-- ==== Sys2Proof/Word.lean ====
section
/-! DEFINITION. The word types and their plainest arithmetic (00 R3, R5). -/

namespace Sys2Proof

/-- A 32-bit scalar, coordinate or special register (02 R43, 04 R87). -/
abbrev Word := BitVec 32

/-- A byte of memory (00 R5). -/
abbrev Byte := BitVec 8

/-- A vector register, or a shuffle pattern (04 R87, R98). -/
abbrev Vec := BitVec 1024

/-- Sparse data by number: a list of pairs in rising order of the number; an absent number holds the default that
its reader names. -/
abbrev Tbl (α : Type) := List (Nat × α)

end Sys2Proof
end

