-- ==== Sys2Proof/Machine/Tbl.lean ====
section
/-! DEFINITION. Operations on sparse data and on byte memories, and the bit-field and byte-order helpers (00 R3, R5,
05 R105). -/

namespace Sys2Proof.Machine

/-- The value at number `n`, or the default. -/
def tget {α : Type} (d : α) : Tbl α → Nat → α
  | [], _ => d
  | (k, v) :: t, n => if k = n then v else tget d t n

/-- The table with `v` at number `n`, in rising order of the number. -/
def tput {α : Type} : Tbl α → Nat → α → Tbl α
  | [], n, v => [(n, v)]
  | (k, w) :: t, n, v =>
    if n < k then (n, v) :: (k, w) :: t
    else if n = k then (n, v) :: t
    else (k, w) :: tput t n v

/-- The table without an entry at number `n`. -/
def tdel {α : Type} : Tbl α → Nat → Tbl α
  | [], _ => []
  | (k, w) :: t, n => if k = n then tdel t n else (k, w) :: tdel t n

/-- The table with `v` at number `n`, listing nothing that equals the default. -/
def tset {α : Type} [DecidableEq α] (d : α) (t : Tbl α) (n : Nat) (v : α) : Tbl α :=
  if v = d then tdel t n else tput t n v

/-- The canonical form of a memory: addresses strictly rise and no entry equals what an unlisted address reads as. -/
def Memory.wf : List Host.Cell → Bool
  | [] => true
  | [(_, b)] => b != 0
  | (a, b) :: (a', b') :: t => b != 0 && decide (a < a') && Memory.wf ((a', b') :: t)

/-- The byte at an address; an unlisted address reads 0x00. -/
def Memory.read (m : List Host.Cell) (a : Nat) : Byte := tget 0 m a

/-- The memory with one byte written. -/
def Memory.write (m : List Host.Cell) (a : Nat) (b : Byte) : List Host.Cell := tset 0 m a b

/-- `n` bytes from address `a`. -/
def Memory.readN (m : List Host.Cell) (a n : Nat) : List Byte := (List.range n).map (fun i => Memory.read m (a + i))

/-- The bytes written one after another from address `a`. -/
def Memory.writeN (m : List Host.Cell) (a : Nat) : List Byte → List Host.Cell
  | [] => m
  | b :: t => Memory.writeN (Memory.write m a b) (a + 1) t

/-- The unsigned value of little-endian bytes (00 R5). -/
def leNat : List Byte → Nat
  | [] => 0
  | b :: t => b.toNat + 256 * leNat t

/-- The `n` low bytes of a number, little-endian (00 R5). -/
def leBytes : Nat → Nat → List Byte
  | 0, _ => []
  | n + 1, v => BitVec.ofNat 8 v :: leBytes n (v / 256)

/-- The unsigned value of bits h..l of a number (00 R10). -/
def bits (v h l : Nat) : Nat := v / 2 ^ l % 2 ^ (h - l + 1)

/-- Bytes `i .. i+n-1` of a list as a little-endian number; bytes past its end read 0. -/
def field (b : List Byte) (i n : Nat) : Nat := leNat ((b.drop i).take n)

/-- The bytes of a list with those from `i` replaced. -/
def patch (b : List Byte) (i : Nat) (r : List Byte) : List Byte := b.take i ++ r ++ b.drop (i + r.length)

/-- The list padded with zero bytes, or cut, to `n` bytes. -/
def padTo (n : Nat) (b : List Byte) : List Byte := (b ++ List.replicate (n - b.length) 0).take n

/-- sext(x, n) of R105 as a number. -/
def sext (x n : Nat) : Int := if x % 2 ^ n < 2 ^ (n - 1) then (x % 2 ^ n : Nat) else (x % 2 ^ n : Nat) - (2 ^ n : Nat)

/-- wrap32(x) of R105. -/
def wrap32 (x : Int) : Word := BitVec.ofInt 32 x

/-- The element of width `e` at bit `l` of a vector. -/
def elem (v : Vec) (l e : Nat) : Nat := v.toNat / 2 ^ l % 2 ^ e

/-- The first element of a list that meets a test, with the list without it. -/
def takeFirst {α : Type} (p : α → Bool) : List α → Option (α × List α)
  | [] => none
  | a :: t =>
    if p a then some (a, t) else
      match takeFirst p t with
      | some (b, r) => some (b, a :: r)
      | none => none

/-- The list with the n-th element changed. -/
def modifyNth {α : Type} (f : α → α) : Nat → List α → List α
  | _, [] => []
  | 0, a :: t => f a :: t
  | n + 1, a :: t => a :: modifyNth f n t

/-- A saturating 32-bit counter (13 R300). -/
def satAdd (c : Word) (n : Nat) : Word := if c.toNat + n < 2 ^ 32 then BitVec.ofNat 32 (c.toNat + n) else BitVec.allOnes 32

end Sys2Proof.Machine
end

