-- ==== Sys2Proof/Machine/Flags.lean ====
section
/-! DEFINITION. The number formats and every flag computation (02 R43 to R63, 06 R142, R143): a floating value is an
exact dyadic number, rounded once. -/

namespace Sys2Proof.Machine

/-! ### FST flags (02 R49) -/

abbrev fINV : Nat := 1
abbrev fDZ : Nat := 2
abbrev fOVF : Nat := 4
abbrev fUNF : Nat := 8
abbrev fINX : Nat := 16
abbrev fSAT : Nat := 32

/-- A lane's result and the flags it sets. -/
abbrev Lane := Nat × Nat

/-- A floating format of R46: exponent bits, fraction bits and bias. -/
structure Fmt where
  eb : Nat
  fb : Nat
  bias : Nat
  deriving DecidableEq, Repr

abbrev fp32 : Fmt := ⟨8, 23, 127⟩
abbrev fp16 : Fmt := ⟨5, 10, 15⟩
abbrev bf16 : Fmt := ⟨8, 7, 127⟩
abbrev e4m3 : Fmt := ⟨4, 3, 7⟩
abbrev e5m2 : Fmt := ⟨5, 2, 15⟩

/-- Width of a format, its Inf pattern (none for E4M3), largest finite pattern and canonical NaN (02 R46, R47). -/
def Fmt.width (f : Fmt) : Nat := 1 + f.eb + f.fb
def Fmt.inf (f : Fmt) : Nat := (2 ^ f.eb - 1) * 2 ^ f.fb
def Fmt.maxPat (f : Fmt) : Nat := if f = e4m3 then 0x7E else f.inf - 1
def Fmt.nan (f : Fmt) : Nat := if f = e4m3 then 0x7F else f.inf + 2 ^ (f.fb - 1)
def Fmt.sign (f : Fmt) : Nat := 2 ^ (f.eb + f.fb)
def Fmt.signed (f : Fmt) (neg : Bool) (p : Nat) : Nat := if neg then p + f.sign else p

/-- A floating value: a NaN, an Inf, or exactly (-1)^neg * m * 2^e. -/
inductive FVal where
  | nan (signalling : Bool)
  | inf (neg : Bool)
  | fin (neg : Bool) (m : Nat) (e : Int)
  deriving DecidableEq, Repr

/-- The value of a pattern (02 R46, R47). -/
def Fmt.decode (f : Fmt) (x : Nat) : FVal :=
  let neg := x / f.sign % 2 == 1
  let e := x / 2 ^ f.fb % 2 ^ f.eb
  let m := x % 2 ^ f.fb
  let lsb : Int := 1 - (f.bias : Int) - (f.fb : Int)
  if f = e4m3 ∧ x % 128 = 127 then .nan false
  else if f ≠ e4m3 ∧ e = 2 ^ f.eb - 1 then (if m = 0 then .inf neg else .nan (decide (m < 2 ^ (f.fb - 1))))
  else if e = 0 then .fin neg m lsb
  else .fin neg (2 ^ f.fb + m) (lsb + (e : Int) - 1)

/-- A BF16 pattern read under FMD.DZ (02 R51): a subnormal reads as a zero of its sign. -/
def flushBf16 (dz : Bool) (x : Nat) : Nat := if dz && x / 128 % 256 == 0 then x / 32768 * 32768 else x

def FVal.isNan : FVal → Bool
  | .nan _ => true
  | _ => false
def FVal.isSnan : FVal → Bool
  | .nan b => b
  | _ => false

/-! ### Rounding (02 R50) -/

/-- Rounds m / 2^sh to an integer by mode (0 nearest-even, 1 toward zero, 2 up, 3 down); and whether it was inexact. -/
def roundShift (mode : Nat) (neg : Bool) (m sh : Nat) : Nat × Bool :=
  if sh = 0 then (m, false)
  else if m = 0 then (0, false)
  else if Nat.log2 m + 1 < sh then
    -- below half a unit
    ((if (mode = 2 ∧ neg = false) ∨ (mode = 3 ∧ neg = true) then 1 else 0), true)
  else
    let n := m / 2 ^ sh
    let r := m % 2 ^ sh
    let half := 2 ^ (sh - 1)
    let up :=
      match mode with
      | 0 => decide (half < r) || (r == half && n % 2 == 1)
      | 1 => false
      | 2 => !neg && r != 0
      | _ => neg && r != 0
    (if up then n + 1 else n, r != 0)

/-- m * 2^e rounded to an integer. -/
def roundInt (mode : Nat) (neg : Bool) (m : Nat) (e : Int) : Nat × Bool :=
  if 0 ≤ e then (m * 2 ^ e.toNat, false) else roundShift mode neg m (-e).toNat

/-- What a result beyond the largest finite value becomes (02 R50, R54). -/
def Fmt.overflow (f : Fmt) (mode : Nat) (satf neg : Bool) : Nat :=
  if f = e4m3 then f.signed neg (if satf then 0x7E else 0x7F)
  else if f = e5m2 then f.signed neg f.inf
  else
    let toMax := mode = 1 ∨ (mode = 2 ∧ neg = true) ∨ (mode = 3 ∧ neg = false)
    f.signed neg (if toMax then f.maxPat else f.inf)

/-- round(x, fmt, mode) of R50 for x = (-1)^neg * m * 2^e: the pattern and the flags. -/
def Fmt.round (f : Fmt) (mode : Nat) (satf neg : Bool) (m : Nat) (e : Int) : Lane :=
  if m = 0 then (f.signed neg 0, 0) else
    let top : Int := (Nat.log2 m : Int) + e
    let emin : Int := 1 - (f.bias : Int)
    let q : Int := max top emin - (f.fb : Int)
    let (n, inx) := roundInt mode neg m (e - q)
    let pat := ((q - emin + (f.fb : Int)).toNat) * 2 ^ f.fb + n
    if f.maxPat < pat then (f.overflow mode satf neg, fOVF + fINX)
    else
      -- tininess after rounding at full precision with unbounded exponent
      let tiny := decide (top < emin) &&
        !(decide (top = emin - 1) && decide ((roundInt mode neg m (e - (top - (f.fb : Int)))).1 = 2 ^ (f.fb + 1)))
      (f.signed neg pat, (if inx then fINX else 0) + (if inx && tiny then fUNF else 0))

/-- A BF16 result under FMD.DZ (02 R51): one that rounds to a subnormal becomes a zero of its sign. -/
def flushResult (f : Fmt) (dz : Bool) (r : Lane) : Lane :=
  if f = bf16 ∧ dz = true ∧ r.1 % 32768 ≠ 0 ∧ r.1 % 32768 < 128 then
    (r.1 / 32768 * 32768, Nat.lor r.2 (fUNF + fINX)) else r

/-! ### Exact sums and products -/

/-- A term of an exact sum. -/
abbrev Term := Bool × Nat × Int

def Term.toInt (q : Int) (t : Term) : Int :=
  let v : Nat := t.2.1 * 2 ^ (t.2.2 - q).toNat
  if t.1 then -(v : Int) else v

/-- The exact sum of terms, rounded once. A zero sum of like-signed zeros keeps their sign; any other zero is +0, or -0
in mode down (02 R50). -/
def Fmt.sum (f : Fmt) (mode : Nat) (ts : List Term) : Lane :=
  let nz := ts.filter (fun t => t.2.1 != 0)
  match nz with
  | [] =>
    if ts.all (fun t => t.1) then (f.signed true 0, 0)
    else if ts.all (fun t => !t.1) then (0, 0)
    else (f.signed (mode == 3) 0, 0)
  | t0 :: r =>
    let q := r.foldl (fun a t => min a t.2.2) t0.2.2
    let s := nz.foldl (fun a t => a + Term.toInt q t) 0
    if s = 0 then (f.signed (mode == 3) 0, 0)
    else f.round mode true (decide (s < 0)) s.natAbs q

/-- The exact product of two values; none for 0 times Inf. -/
def FVal.mul : FVal → FVal → Option FVal
  | .nan s, _ => some (.nan s)
  | _, .nan s => some (.nan s)
  | .inf a, .inf b => some (.inf (a != b))
  | .inf a, .fin b m _ => if m = 0 then none else some (.inf (a != b))
  | .fin a m _, .inf b => if m = 0 then none else some (.inf (a != b))
  | .fin a m e, .fin b n k => some (.fin (a != b) (m * n) (e + k))

def FVal.neg : FVal → FVal
  | .nan s => .nan s
  | .inf a => .inf (!a)
  | .fin a m e => .fin (!a) m e

/-- A rounded sum of values, `ins` being every operand consumed: NaNs give the canonical NaN, with INV for a signalling
operand; an invalid product or opposite Infs give it with INV (02 R47, R62, 06 R131). -/
def Fmt.sumVals (f : Fmt) (mode : Nat) (ins : List FVal) (vs : List (Option FVal)) : Lane :=
  let sn := ins.any FVal.isSnan
  if vs.any (fun v => v.isNone) then (f.nan, fINV)
  else if ins.any FVal.isNan then (f.nan, if sn then fINV else 0)
  else
    let vals := vs.filterMap (fun v => v)
    let pos := vals.any (fun v => v == .inf false)
    let neg := vals.any (fun v => v == .inf true)
    if pos && neg then (f.nan, fINV)
    else if pos then (f.inf, 0)
    else if neg then (f.signed true f.inf, 0)
    else f.sum mode (vals.filterMap (fun v => match v with
      | .fin a m e => some (a, m, e)
      | _ => none))

/-- Reads a pattern of a format under DZ. -/
def Fmt.read (f : Fmt) (dz : Bool) (x : Nat) : FVal := f.decode (if f = bf16 then flushBf16 dz x else x)

/-- VADD, VSUB, VMUL, VFMA, VFMS (06 R131). -/
def fAdd (f : Fmt) (mode : Nat) (dz : Bool) (a b : Nat) : Lane :=
  let x := f.read dz a
  let y := f.read dz b
  flushResult f dz (f.sumVals mode [x, y] [some x, some y])
def fSub (f : Fmt) (mode : Nat) (dz : Bool) (a b : Nat) : Lane :=
  let x := f.read dz a
  let y := f.read dz b
  flushResult f dz (f.sumVals mode [x, y] [some x, some y.neg])
def fMul (f : Fmt) (mode : Nat) (dz : Bool) (a b : Nat) : Lane :=
  let x := f.read dz a
  let y := f.read dz b
  flushResult f dz (f.sumVals mode [x, y] [x.mul y])
def fFma (f : Fmt) (mode : Nat) (dz : Bool) (sub : Bool) (d a b : Nat) : Lane :=
  let z := f.read dz d
  let x := f.read dz a
  let y := f.read dz b
  let p := x.mul y
  flushResult f dz (f.sumVals mode [z, x, y] [some z, if sub then p.map FVal.neg else p])

/-- VDOT.bf16 of one FP32 lane (02 R62, 06 R141). -/
def fDot (mode : Nat) (dz : Bool) (d a0 b0 a1 b1 : Nat) : Lane :=
  let z := fp32.decode d
  let x0 := bf16.read dz a0
  let y0 := bf16.read dz b0
  let x1 := bf16.read dz a1
  let y1 := bf16.read dz b1
  fp32.sumVals mode [z, x0, y0, x1, y1] [some z, x0.mul y0, x1.mul y1]

/-! ### Minimum, maximum, compare (02 R61, 06 R132) -/

/-- Order of two numbers by pattern; -0 orders below +0. -/
def Fmt.key (f : Fmt) (x : Nat) : Int := if x / f.sign % 2 = 1 then -(x % f.sign : Nat) - 1 else (x % f.sign : Nat)

def pick (f : Fmt) (isMax : Bool) (a b : Nat) : Nat :=
  if isMax then (if f.key a < f.key b then b else a) else (if f.key b < f.key a then b else a)

/-- VMIN, VMAX: minimumNumber and maximumNumber. -/
def fMinNum (f : Fmt) (isMax dz : Bool) (a0 b0 : Nat) : Lane :=
  let a := if f = bf16 then flushBf16 dz a0 else a0
  let b := if f = bf16 then flushBf16 dz b0 else b0
  let x := f.decode a
  let y := f.decode b
  let fl := if x.isSnan || y.isSnan then fINV else 0
  if x.isNan && y.isNan then (f.nan, fl)
  else if x.isNan then (b, fl)
  else if y.isNan then (a, fl)
  else (pick f isMax a b, fl)

/-- VMINP, VMAXP: minimum and maximum, which return a NaN operand quieted. -/
def fMinProp (f : Fmt) (isMax : Bool) (a b : Nat) : Lane :=
  let x := f.decode a
  let y := f.decode b
  let fl := if x.isSnan || y.isSnan then fINV else 0
  if x.isNan then (Nat.lor a (2 ^ (f.fb - 1)), fl)
  else if y.isNan then (Nat.lor b (2 ^ (f.fb - 1)), fl)
  else (pick f isMax a b, fl)

/-- VCMP.f32: the relation code of a to b. -/
def fCmp (a b : Nat) : Lane :=
  let x := fp32.decode a
  let y := fp32.decode b
  if x.isNan || y.isNan then (8, if x.isSnan || y.isSnan then fINV else 0)
  else
    let ka := if a % 2 ^ 31 = 0 then 0 else fp32.key a
    let kb := if b % 2 ^ 31 = 0 then 0 else fp32.key b
    (if ka < kb then 1 else if ka = kb then 2 else 4, 0)

/-- VSCL.f32 (06 R133). -/
def fScale (mode : Nat) (a : Nat) (k : Int) : Lane :=
  match fp32.decode a with
  | .nan s => (fp32.nan, if s then fINV else 0)
  | .inf n => (fp32.signed n fp32.inf, 0)
  | .fin n m e => fp32.round mode true n m (e + k)

/-! ### Conversions (02 R53, R54) -/

/-- A widening conversion to FP32. -/
def cvtWiden (f : Fmt) (dz : Bool) (x : Nat) : Lane :=
  match f.read dz x with
  | .nan s => (fp32.nan, if s then fINV else 0)
  | .inf n => (fp32.signed n fp32.inf, 0)
  | .fin n m e => fp32.round 0 true n m e

/-- A narrowing conversion from FP32. -/
def cvtNarrow (f : Fmt) (mode : Nat) (dz satf : Bool) (x : Nat) : Lane :=
  match fp32.decode x with
  | .nan s => (f.nan, if s then fINV else 0)
  | .inf n => if f = e4m3 then (f.overflow mode satf n, fOVF + fINX) else (f.signed n f.inf, 0)
  | .fin n m e => flushResult f dz (f.round mode satf n m e)

/-- FP32 to s32. -/
def cvtToInt (mode : Nat) (x : Nat) : Lane :=
  match fp32.decode x with
  | .nan _ => (0, fINV)
  | .inf n => (if n then 2 ^ 31 else 2 ^ 31 - 1, fINV)
  | .fin n m e =>
    let (v, inx) := roundInt mode n m e
    if n then
      (if 2 ^ 31 < v then (2 ^ 31, fINV) else ((2 ^ 32 - v) % 2 ^ 32, if inx then fINX else 0))
    else (if 2 ^ 31 ≤ v then (2 ^ 31 - 1, fINV) else (v, if inx then fINX else 0))

/-- s32 to FP32. -/
def cvtFromInt (mode : Nat) (x : Nat) : Lane :=
  let v := sext x 32
  fp32.round mode true (decide (v < 0)) v.natAbs 0

/-! ### MXINT blocks (02 R55 to R57, 06 R149, R150) -/

/-- Element bits and implicit exponent of a format code 0 mx8, 1 mx6, 2 mx4. -/
def mxBits (c : Nat) : Nat := if c = 0 then 8 else if c = 1 then 6 else 4
def mxK (c : Nat) : Nat := if c = 0 then 6 else if c = 1 then 4 else 2

/-- A quantised block: elements as patterns, scale byte, saturation count, flags, and whether an input is Inf. -/
structure QBlock where
  els : List Nat
  scale : Nat
  sat : Nat
  flags : Nat
  inf : Bool
  deriving DecidableEq, Repr

/-- The exponent of the leading bit of a finite value; none for zero. -/
def FVal.top : FVal → Option Int
  | .fin _ m e => if m = 0 then none else some ((Nat.log2 m : Int) + e)
  | _ => none

/-- QBLK of one block of values (02 R57). X is the value of the scale byte stored. DESIGN CHOICE (log entry 70): where a NaN or Inf
input sets every element to 0, the finite inputs of the block count for no INX. -/
def qblock (c : Nat) (xs : List FVal) : QBlock :=
  let bitsN := mxBits c
  let inv := if xs.any FVal.isSnan then fINV else 0
  let hasInf := xs.any (fun x => x == .inf false || x == .inf true)
  if hasInf || xs.any FVal.isNan then ⟨xs.map (fun _ => 0), 0xFF, 0, inv, hasInf⟩
  else
    match (xs.filterMap FVal.top) with
    | [] => ⟨xs.map (fun _ => 0), 0, 0, 0, false⟩
    | t :: r =>
      let top := r.foldl max t
      let sb : Nat := min (max (top + 127) 0).toNat 0xFE
      let one (x : FVal) : Nat × Bool × Bool :=
        match x with
        | .fin n m e =>
          let (v, inx) := roundInt 0 n m (e + (mxK c : Int) - ((sb : Int) - 127))
          let lim := if n then 2 ^ (bitsN - 1) else 2 ^ (bitsN - 1) - 1
          let sat := decide (lim < v)
          let w := min v lim
          (if n then (2 ^ bitsN - w) % 2 ^ bitsN else w, inx || sat, sat)
        | _ => (0, false, false)
      let rs := xs.map one
      ⟨rs.map (·.1), sb, (rs.filter (fun p => p.2.2)).length, if rs.any (fun p => p.2.1) then fINX else 0, false⟩

/-- DQBLK of one element (06 R150). -/
def dqElem (c q scale : Nat) : Lane :=
  if scale = 0xFF then (fp32.nan, 0)
  else
    let v := sext q (mxBits c)
    fp32.round 0 true (decide (v < 0)) v.natAbs ((scale : Int) - 127 - (mxK c : Int))

/-- fold_step of R59: the new element and the tile status bits NAN, INF, OVF of R99. -/
def foldStep (d : Nat) (p : Int) (ea eb ka kb : Nat) : Nat × Nat :=
  if ea = 0xFF ∨ eb = 0xFF then
    (fp32.nan, match fp32.decode d with
      | .inf _ => 3
      | _ => 1)
  else
    match fp32.decode d with
    | .nan _ => (fp32.nan, 1)
    | .inf n => (fp32.signed n fp32.inf, 2)
    | .fin n m e =>
      let r := fp32.sum 0 [(n, m, e), (decide (p < 0), p.natAbs, (ea : Int) + eb - 254 - ka - kb)]
      (r.1, if Nat.land r.2 fOVF = 0 then 0 else 6)

/-! ### Estimates (06 R142) -/

/-- The integer square root, bit by bit from bit `k`. -/
def isqrt : Nat → Nat → Nat → Nat
  | 0, r, n => if (r + 1) * (r + 1) ≤ n then r + 1 else r
  | k + 1, r, n =>
    let c := r + 2 ^ (k + 1)
    isqrt k (if c * c ≤ n then c else r) n

/-- VRCPE. -/
def fRcpe (x : Nat) : Lane :=
  match fp32.decode x with
  | .nan s => (fp32.nan, if s then fINV else 0)
  | .inf n => (fp32.signed n 0, 0)
  | .fin n m e =>
    if m = 0 then (fp32.signed n fp32.inf, fDZ)
    else
      let l := Nat.log2 m
      let q : Int := e + l
      let j := m * 2 ^ 12 / 2 ^ l
      -- 1/c = 2^13 / (2j + 1), to 14 fraction bits; the divisor is odd, so there is no tie
      let den := 2 * j + 1
      let r := (2 ^ 28 + den) / (2 * den)
      fp32.round 0 true n r (-14 - q)

/-- VRSQE. -/
def fRsqe (x : Nat) : Lane :=
  match fp32.decode x with
  | .nan s => (fp32.nan, if s then fINV else 0)
  | .inf n => if n then (fp32.nan, fINV) else (0, 0)
  | .fin n m e =>
    if m = 0 then (fp32.signed n fp32.inf, fDZ)
    else if n then (fp32.nan, fINV)
    else
      let l := Nat.log2 m
      let t : Int := e + l
      let odd := t % 2 == 1
      let q : Int := (if odd then t - 1 else t) / 2
      let u := if odd then 2 * m else m
      let j := u * 2 ^ 11 / 2 ^ l
      let d := 2 * j + 1
      -- 1/sqrt(c) = 2^6 / sqrt(2j + 1), to 16 fraction bits
      let k := isqrt 17 0 (2 ^ 44 / d)
      let r := if (2 * k + 1) * (2 * k + 1) * d < 2 ^ 46 then k + 1 else k
      fp32.round 0 true false r (-16 - q)

/-! ### Special functions (06 R143)

Each is computed to 256 fraction bits, truncated, and rounded with the remainder taken as nonzero: an exact result is
recognised apart, and no other result of an FP32 argument comes near a rounding boundary at that precision. -/

/-- Fraction bits of the work. -/
abbrev fxBits : Nat := 256
abbrev fxOne : Nat := 2 ^ fxBits

/-- The sum of z^(2k+1)/(2k+1), k = 0 .. n-1, in fixed point: artanh z. `z2` is z squared, `t` the running power. -/
def atanhSum : Nat → Nat → Nat → Nat → Nat → Nat
  | 0, _, _, _, acc => acc
  | n + 1, k, z2, t, acc => atanhSum n (k + 1) z2 (t * z2 / fxOne) (acc + t / (2 * k + 1))

/-- ln of num/den, for 1 <= num/den < 2, in fixed point: 2 artanh((m-1)/(m+1)). -/
def fxLn (num den : Nat) : Nat :=
  let z := (num - den) * fxOne / (num + den)
  2 * atanhSum 90 0 (z * z / fxOne) z 0

/-- ln 2 in fixed point. -/
def fxLn2 : Nat := fxLn 2 1

/-- The sum of y^k/k! in fixed point, `t` the running term. -/
def expSum : Nat → Nat → Nat → Nat → Nat → Nat
  | 0, _, _, _, acc => acc
  | n + 1, k, y, t, acc => expSum n (k + 1) y (t * y / fxOne / (k + 1)) (acc + t)

/-- 2^f in fixed point for a fixed-point f below 1. -/
def fxExp2 (f : Nat) : Nat := expSum 70 0 (f * fxLn2 / fxOne) fxOne 0

/-- e^(-y) in fixed point for a fixed-point y below 2^7. -/
def fxExpNeg (y : Nat) : Nat :=
  let u := y * fxOne / fxLn2
  let i := u / fxOne
  let f := u % fxOne
  fxExp2 (fxOne - 1 - f) / 2 ^ (i + 1)

/-- A positive or negative inexact value m * 2^e, rounded with a nonzero remainder below it. -/
def roundSticky (neg : Bool) (m : Nat) (e : Int) : Lane := fp32.round 0 true neg (2 * m + 1) (e - 1)

/-- The fixed-point value of m * 2^e, for e above -400. -/
def fxOf (m : Nat) (e : Int) : Nat :=
  if 0 ≤ e + fxBits then m * 2 ^ (e + fxBits).toNat else m / 2 ^ (-(e + fxBits)).toNat

/-- 2^x. -/
def fExp2 (x : Nat) : Lane :=
  match fp32.decode x with
  | .nan s => (fp32.nan, if s then fINV else 0)
  | .inf n => if n then (0, 0) else (fp32.inf, 0)
  | .fin n m e =>
    if m = 0 then (0x3F800000, 0)
    else
      let top : Int := (Nat.log2 m : Int) + e
      if 8 ≤ top then (if n then roundSticky false 1 (-300) else roundSticky false 1 300)
      else if top < -40 then (if n then roundSticky false (2 ^ 60 - 1) (-60) else roundSticky false (2 ^ 60) (-60))
      else
        let v := fxOf m e
        let i := v / fxOne
        let f := v % fxOne
        if f = 0 then fp32.round 0 true false 1 (if n then -(i : Int) else i)
        else if n then roundSticky false (fxExp2 (fxOne - f) / 2 ^ 40) (-(i : Int) - 1 - fxBits + 40)
        else roundSticky false (fxExp2 f / 2 ^ 40) ((i : Int) - fxBits + 40)

/-- log2 x. -/
def fLog2 (x : Nat) : Lane :=
  match fp32.decode x with
  | .nan s => (fp32.nan, if s then fINV else 0)
  | .inf n => if n then (fp32.nan, fINV) else (fp32.inf, 0)
  | .fin n m e =>
    if m = 0 then (fp32.signed true fp32.inf, fDZ)
    else if n then (fp32.nan, fINV)
    else
      let l := Nat.log2 m
      let q : Int := e + l
      if m = 2 ^ l then fp32.round 0 true (decide (q < 0)) q.natAbs 0
      else
        let g := fxLn m (2 ^ l) * fxOne / fxLn2
        if 0 ≤ q then roundSticky false ((q.toNat * fxOne + g) / 2 ^ 40) (-(fxBits : Int) + 40)
        else roundSticky true (((-q).toNat * fxOne - g) / 2 ^ 40) (-(fxBits : Int) + 40)

/-- tanh x. -/
def fTanh (x : Nat) : Lane :=
  match fp32.decode x with
  | .nan s => (fp32.nan, if s then fINV else 0)
  | .inf n => (fp32.signed n 0x3F800000, 0)
  | .fin n m e =>
    if m = 0 then (fp32.signed n 0, 0)
    else
      let top : Int := (Nat.log2 m : Int) + e
      if 5 ≤ top then roundSticky n (2 ^ 60 - 1) (-60)
      else if top < -14 then roundSticky n (m * 2 ^ 60 - 1) (e - 60)
      else
        let y := fxExpNeg (2 * fxOf m e)
        roundSticky n ((fxOne - y) * fxOne / (fxOne + y) / 2 ^ 40) (-(fxBits : Int) + 40)

/-- 1 / (1 + e^(-x)). -/
def fSig (x : Nat) : Lane :=
  match fp32.decode x with
  | .nan s => (fp32.nan, if s then fINV else 0)
  | .inf n => if n then (0, 0) else (0x3F800000, 0)
  | .fin n m e =>
    if m = 0 then (0x3F000000, 0)
    else
      let top : Int := (Nat.log2 m : Int) + e
      if 7 ≤ top then (if n then roundSticky false 1 (-200) else roundSticky false (2 ^ 60 - 1) (-60))
      else if top < -50 then
        (if n then roundSticky false (2 ^ 60 - 1) (-61) else roundSticky false (2 ^ 60) (-61))
      else
        let y := fxExpNeg (fxOf m e)
        if n then roundSticky false (y * fxOne / (fxOne + y) / 2 ^ 20) (-(fxBits : Int) + 20)
        else roundSticky false (fxOne * fxOne / (fxOne + y) / 2 ^ 40) (-(fxBits : Int) + 40)

/-! ### Integer lanes (02 R45, R60) -/

/-- The shifts and rotates of R60 at width w by n. -/
def shlN (w x n : Nat) : Nat := if n < w then x * 2 ^ n % 2 ^ w else 0
def shrN (w x n : Nat) : Nat := if n < w then x / 2 ^ n else 0
def sraN (w x n : Nat) : Nat :=
  let k := if n < w then n else w - 1
  if x / 2 ^ (w - 1) % 2 = 1 then x / 2 ^ k + (2 ^ w - 2 ^ (w - k)) else x / 2 ^ k
def rotN (w x n : Nat) : Nat := let k := n % w; (x * 2 ^ k % 2 ^ w) + x / 2 ^ (w - k)

/-- The exact integer clamped to the signed or unsigned range of width w, as a pattern. -/
def clampS (w : Nat) (v : Int) : Nat :=
  if v < -(2 ^ (w - 1) : Nat) then 2 ^ (w - 1) else if (2 ^ (w - 1) : Nat) ≤ v then 2 ^ (w - 1) - 1 else (v % (2 ^ w : Nat)).toNat
def clampZ (w : Nat) (v : Int) : Nat := if v < 0 then 0 else if (2 ^ w : Nat) ≤ v then 2 ^ w - 1 else v.toNat

/-- VADDS: the clamped sum, with SAT when it clamps. -/
def satS (w a b : Nat) : Lane :=
  let v := sext a w + sext b w
  let r := clampS w v
  (r, if sext r w = v then 0 else fSAT)
def satZ (w a b : Nat) : Lane := (clampZ w (a + b : Nat), if a + b < 2 ^ w then 0 else fSAT)

/-- Leading zeros and ones of a pattern of width w. -/
def clzN (w x : Nat) : Nat := if x = 0 then w else w - 1 - Nat.log2 x
def popN (w x : Nat) : Nat := (List.range w).foldl (fun n i => n + x / 2 ^ i % 2) 0

/-- The relation code of VCMPI (06 R132). -/
def relCode (a b : Nat) : Nat :=
  let x := sext a 32
  let y := sext b 32
  (if x < y then 1 else if x = y then 2 else 4) + (if a < b then 8 else 0) + (if b < a then 16 else 0)

end Sys2Proof.Machine
end

