-- ==== Sys2Proof/Config.lean ====
section
/-! DEFINITION. What is fixed for one installed module and what the spec leaves open: constants with no body, so no
statement can rest on a value of them. -/

namespace Sys2Proof

/-- A free bit for the n-th open choice (08 R196, the value of a byte of another class's held store). -/
opaque Config.freeBit : Nat → Bool

/-- A free number for the n-th open choice among several writers of one byte (09 R207). -/
opaque Config.freeChoice : Nat → Nat

/-- Free bits for the n-th value that the spec leaves open, a poisoned word that a pattern, shape or descriptor read
meets (09 R223, R230). -/
opaque Config.freeVec : Nat → Vec

/-- The n-th trap value of a cause for which the spec names none (04 R90, 14 R320). -/
opaque Config.freeTrapValue : Nat → Word

/-- A free 256-bit number for the n-th draw of the Assay controller's random number generator (16 R367, R369). -/
opaque Config.random : Nat → BitVec 256

/-- The port and the class by which a fabric engine sends to a module (10 R236), for which the spec gives no rule. -/
opaque Config.route : Nat → Nat
opaque Config.routeClass : Nat → Nat

/-- The n-th request from another module: its source module, the requesting core, the operation and the byte position, none of
which 12 R271's header carries (12 R272, R292). -/
opaque Config.freeOrigin : Nat → Nat × Nat × Nat × Nat

/-- The phase in 256 ticks of a domain's sync tick on a port, departing and arriving, which the loader chooses (13 R309). -/
opaque Config.syncPhase : Nat → Nat → Nat
opaque Config.syncArrival : Nat → Nat → Nat

/-- The sync tree that the loader gives a domain on several modules (13 R309): its ports by domain, each with whether it leads to
the parent; and the part of the start delay that lies beyond a child port. -/
opaque Config.syncTree : Nat → List (Nat × Bool)
opaque Config.beyond : Nat → Nat → Nat

/-- The 56-bit Carter-Wegman MACs of the protected pool (08 R191, 11 R268), whose function the spec does not give: of a data line
under a MAC key, its line number, its counter and its 64 bytes of ciphertext; and of a node under its number, its counter in its
parent and its 64 bytes. -/
opaque Config.lineMac : BitVec 128 → Nat → Nat → List Byte → BitVec 56
opaque Config.nodeMac : Nat → Nat → List Byte → BitVec 56

/-- Whether the receiving module of a kind-2 record holds the kind-3 record that takes it (15 R351), which another module's part of the
image says: by module, port, first pitch of the entry, tick and byte count. -/
opaque Config.receives : Nat → Nat → Nat → Nat → Nat → Bool

/-- The 64 KiB frame from which world 0's system software gives the room of the image set of a stop sequence number (14 R341). -/
opaque Config.imageFrame : Nat → Nat

/-- The frame of world 0 in which the controller writes the scrub list of a world (16 R378), for which the spec names none. -/
opaque Config.scrubFrame : Nat → Nat

/-- The offset in configuration space of the MSI-X Message Control word (17 R381), which a function's capability list gives. -/
opaque Config.msixControl : Nat

/-- The cycles beyond the least spacing of 8 before the n-th next skipped core cycle (17 R393). -/
opaque Config.skipGap : Nat → Nat

/-- What a self-test that fails leaves in a memory byte (17 R391): by the number of the free value, core, whether instruction memory,
and address. -/
opaque Config.selfTestByte : Nat → Nat → Bool → Nat → Byte

/-- What a poisoned word of a lent bank yields to a pipeline that reads it (08 R177): by the number of the free value, core and
address. -/
opaque Config.poisonedByte : Nat → Nat → Nat → Byte

/-- The timed slots that an image declares (17 R388), by its digest: no field of an image that the spec describes holds them. -/
opaque Config.timedSlots : BitVec 256 → Nat

/-- The size in bytes of the protected pool, set at boot; the metadata carve-out follows from it (08 R191). -/
opaque Config.protectedPool : Nat

/-- The device id fused in this module (16 R367). -/
opaque Config.deviceId : BitVec 64

/-- The device's SM2 certificate, at most 1,024 bytes (16 R367). -/
opaque Config.certificate : List Byte

/-- The SM3 hash of the debug authority's public key, fused (16 R367, R376). -/
opaque Config.debugAuthorityHash : BitVec 256

/-- The device attestation key fused at provisioning (16 R369). -/
opaque Config.attestationKey : BitVec 256

/-- The measurement of the controller firmware and the boot configuration that extends HM0 (16 R373). -/
opaque Config.bootMeasurement : List Byte

/-- Whether the logic scan check of a self-test passes for a cluster (17 R391). -/
opaque Config.selfTestPasses : Nat → Bool

end Sys2Proof
end

