-- ==== Sys2Proof/Syntax.lean ====
section
/-! DEFINITION. The syntax: one constructor per row of spec/opcode_table.json. The first 225 are the slot and
action instructions, whose fields are those of the table less the stop bit and the slot guard (03 R66); the other
96 are the machine's events, which have no encoding and carry what the event names. -/

namespace Sys2Proof

/-- A received frame (15 R347): the 128 bytes of its flit and its CRC. The event that carries it gives its kind. -/
structure Frame where
  flit : List Byte
  crc : BitVec 32
  deriving DecidableEq, Repr

/-- What training a link establishes (15 R349): up or down, the raw one-way delay in ticks,
the module and port at the other end, and, for the parent port, the parent's line-tick counter; with the entries of the peer state
table that world 0's link management writes for other modules (11 R261): module and state. -/
structure LinkInfo where
  up : Bool
  rawDelay : Nat
  peer : Nat
  peerPort : Nat
  parent : Bool
  peerTick : Nat
  peers : List (Nat × Nat) := []
  /-- An edge port runs at 800 Gb/s (12 R273). -/
  half : Bool := false
  deriving DecidableEq, Repr

/-- A migration request of system software (11 R256). -/
structure MigrationReq where
  world : Nat
  segment : Nat
  newVbase : Nat
  deriving DecidableEq, Repr

/-- One accepted command of the Assay controller (13 R318, 16 R366): its submitter, its request bytes 0..63 and
its acceptance sequence number. A function-level reset enters the same order with no submitter. -/
structure AssayReq where
  world : Nat
  cluster : Nat
  core : Nat
  fromHost : Bool
  seq : Nat
  bytes : List Byte
  deriving DecidableEq, Repr

/-- What IMPORT_REQUEST does: it serves the request in hand on a port (11 R259), or world 0 writes the 32 bytes of an
entry of the import table (11 R258). -/
inductive ImportInput where
  | serve (port : Nat)
  | write (entry : Nat) (bytes : List Byte)
  deriving DecidableEq, Repr

/-- What MIGRATION is about: a request of system software, or the step of the one at the head of the engine's order (11 R256). -/
inductive MigrationInput where
  | request (m : MigrationReq)
  | proceed
  deriving DecidableEq, Repr

/-- What CAPTURE captures: a task that stops, or one stopped at its boundary (14 R332, R340), or a fenced cluster, by world 0 (14
R333); or world 0 ends a stopped task without a capture (14 R332). -/
inductive CaptureInput where
  | task (id : Nat)
  | fenced (cluster : Nat)
  | endStopped (id : Nat)
  deriving DecidableEq, Repr

/-- What CAPTURE_END says of an image set, by its stop sequence number: its stream has ended (14 R407), or world 0 discards it
(14 R341). -/
inductive SetInput where
  | ended (seq : Nat)
  | discard (seq : Nat)
  deriving DecidableEq, Repr

/-- World 0 marks a pipeline ready (12 R298) and gives action bundles of it their owner worlds (12 R286): bundle and world. -/
structure ReadyInput where
  pipe : Nat
  owners : List (Nat × Nat)
  deriving DecidableEq, Repr

/-- The instructions and events of spec/opcode_table.json, in its order. -/
inductive Instr where
  /-- NOP (R125). -/
  | nop
  /-- ADD (R106). -/
  | add (d : BitVec 5) (a : BitVec 5) (b : BitVec 5)
  /-- ADDI (R106). -/
  | addi (d : BitVec 5) (a : BitVec 5) (im : BitVec 9)
  /-- SUB (R106). -/
  | sub (d : BitVec 5) (a : BitVec 5) (b : BitVec 5)
  /-- MUL (R107). -/
  | mul (d : BitVec 5) (a : BitVec 5) (b : BitVec 5)
  /-- MULH (R106). -/
  | mulh (d : BitVec 5) (a : BitVec 5) (b : BitVec 5)
  /-- MULHZ (R106). -/
  | mulhz (d : BitVec 5) (a : BitVec 5) (b : BitVec 5)
  /-- AND (R106). -/
  | and (d : BitVec 5) (a : BitVec 5) (b : BitVec 5)
  /-- ANDI (R106). -/
  | andi (d : BitVec 5) (a : BitVec 5) (im : BitVec 9)
  /-- OR (R106). -/
  | or (d : BitVec 5) (a : BitVec 5) (b : BitVec 5)
  /-- ORI (R106). -/
  | ori (d : BitVec 5) (a : BitVec 5) (im : BitVec 9)
  /-- XOR (R106). -/
  | xor (d : BitVec 5) (a : BitVec 5) (b : BitVec 5)
  /-- XORI (R106). -/
  | xori (d : BitVec 5) (a : BitVec 5) (im : BitVec 9)
  /-- SHL (R106). -/
  | shl (d : BitVec 5) (a : BitVec 5) (b : BitVec 5)
  /-- SHLI (R106). -/
  | shli (d : BitVec 5) (a : BitVec 5) (im : BitVec 8)
  /-- SHR (R106). -/
  | shr (d : BitVec 5) (a : BitVec 5) (b : BitVec 5)
  /-- SHRI (R106). -/
  | shri (d : BitVec 5) (a : BitVec 5) (im : BitVec 8)
  /-- SRA (R106). -/
  | sra (d : BitVec 5) (a : BitVec 5) (b : BitVec 5)
  /-- SRAI (R106). -/
  | srai (d : BitVec 5) (a : BitVec 5) (im : BitVec 8)
  /-- ROT (R106). -/
  | rot (d : BitVec 5) (a : BitVec 5) (b : BitVec 5)
  /-- ROTI (R106). -/
  | roti (d : BitVec 5) (a : BitVec 5) (im : BitVec 8)
  /-- MIN (R106). -/
  | min (d : BitVec 5) (a : BitVec 5) (b : BitVec 5)
  /-- MAX (R106). -/
  | max (d : BitVec 5) (a : BitVec 5) (b : BitVec 5)
  /-- MINZ (R106). -/
  | minz (d : BitVec 5) (a : BitVec 5) (b : BitVec 5)
  /-- MAXZ (R106). -/
  | maxz (d : BitVec 5) (a : BitVec 5) (b : BitVec 5)
  /-- ABS (R106). -/
  | abs (d : BitVec 5) (a : BitVec 5)
  /-- CLZ (R106). -/
  | clz (d : BitVec 5) (a : BitVec 5)
  /-- POPC (R106). -/
  | popc (d : BitVec 5) (a : BitVec 5)
  /-- SXB (R106). -/
  | sxb (d : BitVec 5) (a : BitVec 5)
  /-- SXH (R106). -/
  | sxh (d : BitVec 5) (a : BitVec 5)
  /-- ZXB (R106). -/
  | zxb (d : BitVec 5) (a : BitVec 5)
  /-- ZXH (R106). -/
  | zxh (d : BitVec 5) (a : BitVec 5)
  /-- SETL (R108). -/
  | setl (d : BitVec 5) (im : BitVec 14)
  /-- SETH (R108). -/
  | seth (d : BitVec 5) (im : BitVec 14)
  /-- MOV (R109). -/
  | mov (d : BitVec 5) (a : BitVec 5) (f : BitVec 4)
  /-- MOVS (R110). -/
  | movs (d : BitVec 5) (a : BitVec 5)
  /-- MOVT (R110). -/
  | movt (d : BitVec 5) (a : BitVec 5)
  /-- CMP.cond (R112). -/
  | cmp (d : BitVec 5) (a : BitVec 5) (b : BitVec 5) (c : BitVec 1) (n : BitVec 3)
  /-- CMPI.cond (R113). -/
  | cmpi (d : BitVec 5) (a : BitVec 5) (n : BitVec 3) (im : BitVec 6)
  /-- CMPZ.cond (R112). -/
  | cmpz (d : BitVec 5) (a : BitVec 5) (b : BitVec 5) (c : BitVec 1) (n : BitVec 3)
  /-- PAND (R114). -/
  | pand (d : BitVec 5) (a : BitVec 5) (b : BitVec 5) (t : BitVec 1) (u : BitVec 1) (v : BitVec 1)
  /-- POR (R114). -/
  | por (d : BitVec 5) (a : BitVec 5) (b : BitVec 5) (t : BitVec 1) (u : BitVec 1) (v : BitVec 1)
  /-- PXOR (R114). -/
  | pxor (d : BitVec 5) (a : BitVec 5) (b : BitVec 5) (t : BitVec 1) (u : BitVec 1) (v : BitVec 1)
  /-- PSET (R115). -/
  | pset (d : BitVec 5) (a : BitVec 5) (f : BitVec 4)
  /-- CADD (R117). -/
  | cadd (d : BitVec 5) (a : BitVec 5) (b : BitVec 5) (f : BitVec 4)
  /-- CADDI (R117). -/
  | caddi (d : BitVec 5) (a : BitVec 5) (im : BitVec 9)
  /-- CSET (R117). -/
  | cset (d : BitVec 5) (im : BitVec 14)
  /-- CMOV (R117). -/
  | cmov (d : BitVec 5) (a : BitVec 5) (f : BitVec 4)
  /-- BR (R118). -/
  | br (a : BitVec 5) (im : BitVec 9)
  /-- BRI (R118). -/
  | bri (im : BitVec 14)
  /-- CALL (R120). -/
  | call (d : BitVec 5) (im : BitVec 14)
  /-- RET (R121). -/
  | ret (a : BitVec 5)
  /-- LOOP (R122). -/
  | loop (d : BitVec 5) (a : BitVec 5) (im : BitVec 9)
  /-- MARK (R123). -/
  | mark
  /-- SEL (R116). -/
  | sel (d : BitVec 5) (a : BitVec 5) (b : BitVec 5) (f : BitVec 4)
  /-- CHK (R126). -/
  | chk (a : BitVec 5) (b : BitVec 5) (f : BitVec 4)
  /-- LD.s8 (R204). -/
  | ldS8 (d : BitVec 5) (a : BitVec 5) (im : BitVec 9)
  /-- LD.z8 (R204). -/
  | ldZ8 (d : BitVec 5) (a : BitVec 5) (im : BitVec 9)
  /-- LD.s16 (R204). -/
  | ldS16 (d : BitVec 5) (a : BitVec 5) (im : BitVec 9)
  /-- LD.z16 (R204). -/
  | ldZ16 (d : BitVec 5) (a : BitVec 5) (im : BitVec 9)
  /-- LD.32 (R204). -/
  | ld32 (d : BitVec 5) (a : BitVec 5) (im : BitVec 9)
  /-- ST.8 (R204). -/
  | st8 (d : BitVec 5) (a : BitVec 5) (im : BitVec 9)
  /-- ST.16 (R204). -/
  | st16 (d : BitVec 5) (a : BitVec 5) (im : BitVec 9)
  /-- ST.32 (R204). -/
  | st32 (d : BitVec 5) (a : BitVec 5) (im : BitVec 9)
  /-- LD2 (R204). -/
  | ld2 (d : BitVec 5) (a : BitVec 5) (im : BitVec 9)
  /-- ST2 (R204). -/
  | st2 (d : BitVec 5) (a : BitVec 5) (im : BitVec 9)
  /-- LDV.w512.h1 (R205). -/
  | ldv (d : BitVec 5) (a : BitVec 5) (w : BitVec 2) (h : BitVec 2) (im : BitVec 5)
  /-- STV.w512.h1 (R205). -/
  | stv (d : BitVec 5) (a : BitVec 5) (w : BitVec 2) (h : BitVec 2) (im : BitVec 5)
  /-- LDT (R206). -/
  | ldt (d : BitVec 5) (a : BitVec 5) (b : BitVec 5)
  /-- LDVT.w1024 (R206). -/
  | ldvt (d : BitVec 5) (a : BitVec 5) (b : BitVec 5) (w : BitVec 2) (h : BitVec 2)
  /-- TLD.w512 (R207). -/
  | tld (d : BitVec 5) (k : BitVec 4) (b : BitVec 5) (w : BitVec 2) (h : BitVec 2)
  /-- TST.w512 (R207). -/
  | tst (d : BitVec 5) (k : BitVec 4) (b : BitVec 5) (w : BitVec 2) (h : BitVec 2)
  /-- TLDT.w512 (R207). -/
  | tldt (d : BitVec 5) (k : BitVec 4) (b : BitVec 5) (w : BitVec 2) (h : BitVec 2)
  /-- AADD (R209). -/
  | aadd (d : BitVec 5) (a : BitVec 5) (b : BitVec 5) (f : BitVec 4)
  /-- AMIN (R209). -/
  | amin (d : BitVec 5) (a : BitVec 5) (b : BitVec 5) (f : BitVec 4)
  /-- AMAX (R209). -/
  | amax (d : BitVec 5) (a : BitVec 5) (b : BitVec 5) (f : BitVec 4)
  /-- ASWP (R209). -/
  | aswp (d : BitVec 5) (a : BitVec 5) (b : BitVec 5) (f : BitVec 4)
  /-- ACAS (R209). -/
  | acas (d : BitVec 5) (a : BitVec 5) (b : BitVec 5) (f : BitVec 4)
  /-- AFADD (R209). -/
  | afadd (d : BitVec 5) (a : BitVec 5) (b : BitVec 5) (f : BitVec 4)
  /-- TAGW (R211). -/
  | tagw (d : BitVec 5) (a : BitVec 5) (im : BitVec 9)
  /-- TAGR (R211). -/
  | tagr (d : BitVec 5) (a : BitVec 5) (im : BitVec 9)
  /-- FORMR (R211). -/
  | formr (d : BitVec 5) (a : BitVec 5) (im : BitVec 9)
  /-- SFNC (R212). -/
  | sfnc
  /-- ZLINE (R211). -/
  | zline (a : BitVec 5) (im : BitVec 9)
  /-- MMA.mx8.mx4 (R159). -/
  | mma (e : BitVec 1) (n : BitVec 4) (a : BitVec 3) (b : BitVec 3) (y : BitVec 2) (x : BitVec 2)
  /-- MMAZ.mx8.mx4 (R159). -/
  | mmaz (e : BitVec 1) (n : BitVec 4) (a : BitVec 3) (b : BitVec 3) (y : BitVec 2) (x : BitVec 2)
  /-- SCAC (R165). -/
  | scac (d : BitVec 5) (a : BitVec 5) (b : BitVec 5) (k : BitVec 1) (j : BitVec 3)
  /-- SCACZ (R165). -/
  | scacz (d : BitVec 5) (a : BitVec 5) (b : BitVec 5) (k : BitVec 1) (j : BitVec 3)
  /-- ACCRD (R168). -/
  | accrd (d : BitVec 5) (a : BitVec 5) (k : BitVec 1) (h : BitVec 1)
  /-- ACCZ (R169). -/
  | accz (k : BitVec 1)
  /-- MTS (R170). -/
  | mts (c : BitVec 1) (e : BitVec 4) (a : BitVec 5) (im : BitVec 9)
  /-- RSET (R156). -/
  | rset (q : BitVec 3) (a : BitVec 5) (b : BitVec 5)
  /-- RADV (R156). -/
  | radv (q : BitVec 3) (im : BitVec 9)
  /-- RPOP (R156). -/
  | rpop (q : BitVec 3) (im : BitVec 9)
  /-- CPY (R214). -/
  | cpy (d : BitVec 5) (a : BitVec 5) (b : BitVec 5)
  /-- CPY.hbm (R215). -/
  | cpyHbm (d : BitVec 5) (a : BitVec 5) (b : BitVec 5) (e : BitVec 1)
  /-- HGET (R215). -/
  | hget (d : BitVec 5) (a : BitVec 5) (b : BitVec 5) (e : BitVec 1)
  /-- HPUT (R215). -/
  | hput (d : BitVec 5) (a : BitVec 5) (b : BitVec 5) (e : BitVec 1)
  /-- GTH (R218). -/
  | gth (d : BitVec 5) (a : BitVec 5) (b : BitVec 5) (e : BitVec 1)
  /-- SCT (R218). -/
  | sct (d : BitVec 5) (a : BitVec 5) (b : BitVec 5) (e : BitVec 1)
  /-- XSND (R219). -/
  | xsnd (d : BitVec 5) (a : BitVec 5) (b : BitVec 5)
  /-- XRCV (R220). -/
  | xrcv (d : BitVec 5) (a : BitVec 5) (b : BitVec 5)
  /-- FPUT (R224). -/
  | fput (a : BitVec 5)
  /-- FGET (R224). -/
  | fget (a : BitVec 5)
  /-- FATM (R224). -/
  | fatm (a : BitVec 5)
  /-- FFLR (R224). -/
  | fflr (a : BitVec 5)
  /-- PINJ (R225). -/
  | pinj (a : BitVec 5)
  /-- SEAL (R221). -/
  | seal (a : BitVec 5) (b : BitVec 5)
  /-- OPEN (R222). -/
  | unseal (a : BitVec 5) (b : BitVec 5)
  /-- CAIRN (R228). -/
  | cairn (a : BitVec 5) (b : BitVec 5)
  /-- UFNC (R228). -/
  | ufnc
  /-- TBLW (R229). -/
  | tblw (a : BitVec 5)
  /-- TBLR (R229). -/
  | tblr (d : BitVec 5) (a : BitVec 5) (b : BitVec 5)
  /-- SPLD (R230). -/
  | spld (a : BitVec 5) (b : BitVec 5) (w : BitVec 1)
  /-- SHAPE (R230). -/
  | shape (k : BitVec 4) (a : BitVec 5)
  /-- VADD.f32 (R131). -/
  | vaddF32 (d : BitVec 5) (a : BitVec 5) (b : BitVec 5) (w : BitVec 2) (h : BitVec 2)
  /-- VSUB.f32 (R131). -/
  | vsubF32 (d : BitVec 5) (a : BitVec 5) (b : BitVec 5) (w : BitVec 2) (h : BitVec 2)
  /-- VMUL.f32 (R131). -/
  | vmulF32 (d : BitVec 5) (a : BitVec 5) (b : BitVec 5) (w : BitVec 2) (h : BitVec 2)
  /-- VFMA.f32 (R131). -/
  | vfmaF32 (d : BitVec 5) (a : BitVec 5) (b : BitVec 5) (w : BitVec 2) (h : BitVec 2)
  /-- VFMS.f32 (R131). -/
  | vfmsF32 (d : BitVec 5) (a : BitVec 5) (b : BitVec 5) (w : BitVec 2) (h : BitVec 2)
  /-- VMIN.f32 (R61). -/
  | vminF32 (d : BitVec 5) (a : BitVec 5) (b : BitVec 5) (w : BitVec 2) (h : BitVec 2)
  /-- VMAX.f32 (R61). -/
  | vmaxF32 (d : BitVec 5) (a : BitVec 5) (b : BitVec 5) (w : BitVec 2) (h : BitVec 2)
  /-- VMINP.f32 (R61). -/
  | vminpF32 (d : BitVec 5) (a : BitVec 5) (b : BitVec 5) (w : BitVec 2) (h : BitVec 2)
  /-- VMAXP.f32 (R61). -/
  | vmaxpF32 (d : BitVec 5) (a : BitVec 5) (b : BitVec 5) (w : BitVec 2) (h : BitVec 2)
  /-- VABS.f32 (R131). -/
  | vabsF32 (d : BitVec 5) (a : BitVec 5) (w : BitVec 2) (h : BitVec 2)
  /-- VNEG.f32 (R131). -/
  | vnegF32 (d : BitVec 5) (a : BitVec 5) (w : BitVec 2) (h : BitVec 2)
  /-- VCMP.f32 (R132). -/
  | vcmpF32 (d : BitVec 5) (a : BitVec 5) (b : BitVec 5) (w : BitVec 2) (h : BitVec 2)
  /-- VADD.bf16 (R131). -/
  | vaddBf16 (d : BitVec 5) (a : BitVec 5) (b : BitVec 5) (w : BitVec 2) (h : BitVec 2)
  /-- VMUL.bf16 (R131). -/
  | vmulBf16 (d : BitVec 5) (a : BitVec 5) (b : BitVec 5) (w : BitVec 2) (h : BitVec 2)
  /-- VFMA.bf16 (R131). -/
  | vfmaBf16 (d : BitVec 5) (a : BitVec 5) (b : BitVec 5) (w : BitVec 2) (h : BitVec 2)
  /-- VMIN.bf16 (R61). -/
  | vminBf16 (d : BitVec 5) (a : BitVec 5) (b : BitVec 5) (w : BitVec 2) (h : BitVec 2)
  /-- VMAX.bf16 (R61). -/
  | vmaxBf16 (d : BitVec 5) (a : BitVec 5) (b : BitVec 5) (w : BitVec 2) (h : BitVec 2)
  /-- VADD.i32 (R134). -/
  | vaddI32 (d : BitVec 5) (a : BitVec 5) (b : BitVec 5) (w : BitVec 2) (h : BitVec 2)
  /-- VSUB.i32 (R134). -/
  | vsubI32 (d : BitVec 5) (a : BitVec 5) (b : BitVec 5) (w : BitVec 2) (h : BitVec 2)
  /-- VMUL.i32 (R134). -/
  | vmulI32 (d : BitVec 5) (a : BitVec 5) (b : BitVec 5) (w : BitVec 2) (h : BitVec 2)
  /-- VMIN.s32 (R134). -/
  | vminS32 (d : BitVec 5) (a : BitVec 5) (b : BitVec 5) (w : BitVec 2) (h : BitVec 2)
  /-- VMAX.s32 (R134). -/
  | vmaxS32 (d : BitVec 5) (a : BitVec 5) (b : BitVec 5) (w : BitVec 2) (h : BitVec 2)
  /-- VMIN.z32 (R134). -/
  | vminZ32 (d : BitVec 5) (a : BitVec 5) (b : BitVec 5) (w : BitVec 2) (h : BitVec 2)
  /-- VMAX.z32 (R134). -/
  | vmaxZ32 (d : BitVec 5) (a : BitVec 5) (b : BitVec 5) (w : BitVec 2) (h : BitVec 2)
  /-- VADD.i16 (R134). -/
  | vaddI16 (d : BitVec 5) (a : BitVec 5) (b : BitVec 5) (w : BitVec 2) (h : BitVec 2)
  /-- VSUB.i16 (R134). -/
  | vsubI16 (d : BitVec 5) (a : BitVec 5) (b : BitVec 5) (w : BitVec 2) (h : BitVec 2)
  /-- VADDS.s16 (R134). -/
  | vaddsS16 (d : BitVec 5) (a : BitVec 5) (b : BitVec 5) (w : BitVec 2) (h : BitVec 2)
  /-- VMUL.i16 (R134). -/
  | vmulI16 (d : BitVec 5) (a : BitVec 5) (b : BitVec 5) (w : BitVec 2) (h : BitVec 2)
  /-- VADD.i8 (R134). -/
  | vaddI8 (d : BitVec 5) (a : BitVec 5) (b : BitVec 5) (w : BitVec 2) (h : BitVec 2)
  /-- VSUB.i8 (R134). -/
  | vsubI8 (d : BitVec 5) (a : BitVec 5) (b : BitVec 5) (w : BitVec 2) (h : BitVec 2)
  /-- VADDS.s8 (R134). -/
  | vaddsS8 (d : BitVec 5) (a : BitVec 5) (b : BitVec 5) (w : BitVec 2) (h : BitVec 2)
  /-- VADDS.z8 (R134). -/
  | vaddsZ8 (d : BitVec 5) (a : BitVec 5) (b : BitVec 5) (w : BitVec 2) (h : BitVec 2)
  /-- VAND (R134). -/
  | vand (d : BitVec 5) (a : BitVec 5) (b : BitVec 5) (w : BitVec 2) (h : BitVec 2)
  /-- VOR (R134). -/
  | vor (d : BitVec 5) (a : BitVec 5) (b : BitVec 5) (w : BitVec 2) (h : BitVec 2)
  /-- VXOR (R134). -/
  | vxor (d : BitVec 5) (a : BitVec 5) (b : BitVec 5) (w : BitVec 2) (h : BitVec 2)
  /-- VANDN (R134). -/
  | vandn (d : BitVec 5) (a : BitVec 5) (b : BitVec 5) (w : BitVec 2) (h : BitVec 2)
  /-- VSHL.i16 (R135). -/
  | vshl (d : BitVec 5) (c : BitVec 2) (b : BitVec 5) (w : BitVec 2) (h : BitVec 2)
  /-- VSHR.i16 (R135). -/
  | vshr (d : BitVec 5) (c : BitVec 2) (b : BitVec 5) (w : BitVec 2) (h : BitVec 2)
  /-- VSRA.i16 (R135). -/
  | vsra (d : BitVec 5) (c : BitVec 2) (b : BitVec 5) (w : BitVec 2) (h : BitVec 2)
  /-- VROT.i16 (R135). -/
  | vrot (d : BitVec 5) (c : BitVec 2) (b : BitVec 5) (w : BitVec 2) (h : BitVec 2)
  /-- VSHLI.i8 (R135). -/
  | vshli (d : BitVec 5) (c : BitVec 2) (n : BitVec 3) (m : BitVec 5) (w : BitVec 2) (h : BitVec 2)
  /-- VSHRI.i8 (R135). -/
  | vshri (d : BitVec 5) (c : BitVec 2) (n : BitVec 3) (m : BitVec 5) (w : BitVec 2) (h : BitVec 2)
  /-- VSRAI.i8 (R135). -/
  | vsrai (d : BitVec 5) (c : BitVec 2) (n : BitVec 3) (m : BitVec 5) (w : BitVec 2) (h : BitVec 2)
  /-- VSEL (R136). -/
  | vsel (d : BitVec 5) (a : BitVec 5) (b : BitVec 5) (w : BitVec 2) (h : BitVec 2)
  /-- VMOV (R136). -/
  | vmov (d : BitVec 5) (a : BitVec 5) (w : BitVec 2) (h : BitVec 2)
  /-- VBCST.i16 (R136). -/
  | vbcst (d : BitVec 5) (a : BitVec 5) (c : BitVec 2) (w : BitVec 2) (h : BitVec 2)
  /-- VEXT (R136). -/
  | vext (d : BitVec 5) (a : BitVec 5) (l : BitVec 5) (w : BitVec 2) (h : BitVec 2)
  /-- VINS (R136). -/
  | vins (d : BitVec 5) (a : BitVec 5) (l : BitVec 5) (w : BitVec 2) (h : BitVec 2)
  /-- VIOTA.i32 (R136). -/
  | viota (d : BitVec 5) (a : BitVec 5) (c : BitVec 2) (w : BitVec 2) (h : BitVec 2)
  /-- VRADD.f32 (R140). -/
  | vraddF32 (d : BitVec 5) (a : BitVec 5) (w : BitVec 2) (h : BitVec 2)
  /-- VRMAX.f32 (R140). -/
  | vrmaxF32 (d : BitVec 5) (a : BitVec 5) (w : BitVec 2) (h : BitVec 2)
  /-- VRADD.i32 (R140). -/
  | vraddI32 (d : BitVec 5) (a : BitVec 5) (w : BitVec 2) (h : BitVec 2)
  /-- VDOT.bf16 (R141). -/
  | vdotBf16 (d : BitVec 5) (a : BitVec 5) (b : BitVec 5) (w : BitVec 2) (h : BitVec 2)
  /-- VCMPI (R132). -/
  | vcmpi (d : BitVec 5) (a : BitVec 5) (b : BitVec 5) (w : BitVec 2) (h : BitVec 2)
  /-- VCNT.i32 (R138). -/
  | vcnt (d : BitVec 5) (a : BitVec 5) (c : BitVec 2) (w : BitVec 2) (h : BitVec 2)
  /-- VCLZ.i32 (R138). -/
  | vclz (d : BitVec 5) (a : BitVec 5) (c : BitVec 2) (w : BitVec 2) (h : BitVec 2)
  /-- VMASKP.i32.any (R137). -/
  | vmaskp (d : BitVec 5) (a : BitVec 5) (k : BitVec 1) (y : BitVec 1) (c : BitVec 2) (w : BitVec 2) (h : BitVec 2)
  /-- VPTOM.i8 (R137). -/
  | vptom (d : BitVec 5) (a : BitVec 5) (u : BitVec 2) (c : BitVec 2) (w : BitVec 2) (h : BitVec 2)
  /-- VSCL.f32 (R133). -/
  | vsclF32 (d : BitVec 5) (a : BitVec 5) (b : BitVec 5) (w : BitVec 2) (h : BitVec 2)
  /-- VCHK (R139). -/
  | vchk (a : BitVec 5) (b : BitVec 5) (w : BitVec 2) (h : BitVec 2)
  /-- VRSQE (R142). -/
  | vrsqe (d : BitVec 5) (a : BitVec 5) (w : BitVec 2) (h : BitVec 2)
  /-- VRCPE (R142). -/
  | vrcpe (d : BitVec 5) (a : BitVec 5) (w : BitVec 2) (h : BitVec 2)
  /-- VEXP2 (R143). -/
  | vexp2 (d : BitVec 5) (a : BitVec 5) (w : BitVec 2) (h : BitVec 2)
  /-- VLOG2 (R143). -/
  | vlog2 (d : BitVec 5) (a : BitVec 5) (w : BitVec 2) (h : BitVec 2)
  /-- VTANH (R143). -/
  | vtanh (d : BitVec 5) (a : BitVec 5) (w : BitVec 2) (h : BitVec 2)
  /-- VSIG (R143). -/
  | vsig (d : BitVec 5) (a : BitVec 5) (w : BitVec 2) (h : BitVec 2)
  /-- VSHUF.w1024 (R145). -/
  | vshuf (d : BitVec 5) (p : BitVec 4) (x : BitVec 1) (k : BitVec 5)
  /-- VSWZ (R146). -/
  | vswz (d : BitVec 5) (a : BitVec 5) (b : BitVec 5) (w : BitVec 2) (h : BitVec 2)
  /-- VROTL (R146). -/
  | vrotl (d : BitVec 5) (a : BitVec 5) (b : BitVec 5) (w : BitVec 2) (h : BitVec 2)
  /-- VCMPR (R146). -/
  | vcmpr (d : BitVec 5) (a : BitVec 5) (b : BitVec 5) (w : BitVec 2) (h : BitVec 2)
  /-- VEXPD (R146). -/
  | vexpd (d : BitVec 5) (a : BitVec 5) (b : BitVec 5) (w : BitVec 2) (h : BitVec 2)
  /-- VCVT.bf16.f32 (R147). -/
  | vcvtBf16F32 (d : BitVec 5) (a : BitVec 5) (r : BitVec 3) (w : BitVec 2) (h : BitVec 2)
  /-- VCVT.f32.bf16 (R147). -/
  | vcvtF32Bf16 (d : BitVec 5) (a : BitVec 5) (r : BitVec 3) (w : BitVec 2) (h : BitVec 2)
  /-- VCVT.s32.f32 (R147). -/
  | vcvtS32F32 (d : BitVec 5) (a : BitVec 5) (r : BitVec 3) (w : BitVec 2) (h : BitVec 2)
  /-- VCVT.f32.s32 (R147). -/
  | vcvtF32S32 (d : BitVec 5) (a : BitVec 5) (r : BitVec 3) (w : BitVec 2) (h : BitVec 2)
  /-- VCVT.e4m3.f32 (R147). -/
  | vcvtE4m3F32 (d : BitVec 5) (a : BitVec 5) (r : BitVec 3) (w : BitVec 2) (h : BitVec 2)
  /-- VCVT.f32.e4m3 (R147). -/
  | vcvtF32E4m3 (d : BitVec 5) (a : BitVec 5) (r : BitVec 3) (w : BitVec 2) (h : BitVec 2)
  /-- VCVT.e5m2.f32 (R147). -/
  | vcvtE5m2F32 (d : BitVec 5) (a : BitVec 5) (r : BitVec 3) (w : BitVec 2) (h : BitVec 2)
  /-- VCVT.f32.e5m2 (R147). -/
  | vcvtF32E5m2 (d : BitVec 5) (a : BitVec 5) (r : BitVec 3) (w : BitVec 2) (h : BitVec 2)
  /-- VCVT.f16.f32 (R147). -/
  | vcvtF16F32 (d : BitVec 5) (a : BitVec 5) (r : BitVec 3) (w : BitVec 2) (h : BitVec 2)
  /-- VCVT.f32.f16 (R147). -/
  | vcvtF32F16 (d : BitVec 5) (a : BitVec 5) (r : BitVec 3) (w : BitVec 2) (h : BitVec 2)
  /-- QBLK.mx8 (R149). -/
  | qblk (d : BitVec 5) (a : BitVec 5) (f : BitVec 2)
  /-- QBLKB.mx8 (R149). -/
  | qblkb (d : BitVec 5) (a : BitVec 5) (f : BitVec 2)
  /-- DQBLK.mx8 (R150). -/
  | dqblk (d : BitVec 5) (a : BitVec 5) (f : BitVec 2)
  /-- VPACK.s16.s32 (R148). -/
  | vpack (d : BitVec 5) (a : BitVec 5) (m : BitVec 3) (w : BitVec 2) (h : BitVec 2)
  /-- VUNPK.i32.s16 (R148). -/
  | vunpk (d : BitVec 5) (a : BitVec 5) (m : BitVec 3) (w : BitVec 2) (h : BitVec 2)
  /-- VCNTEQ (R151). -/
  | vcnteq (d : BitVec 5) (a : BitVec 5) (b : BitVec 5) (w : BitVec 2) (h : BitVec 2)
  /-- VSCAN.ex (R151). -/
  | vscan (d : BitVec 5) (a : BitVec 5) (n : BitVec 1) (w : BitVec 2) (h : BitVec 2)
  /-- A.SET (R288). -/
  | aSet (x : BitVec 7) (w : BitVec 2) (im : BitVec 10)
  /-- A.ADD (R288). -/
  | aAdd (x : BitVec 7) (w : BitVec 2) (y : BitVec 7) (v : BitVec 2) (q : BitVec 1)
  /-- A.COPY (R288). -/
  | aCopy (x : BitVec 7) (w : BitVec 2) (y : BitVec 7) (v : BitVec 2) (q : BitVec 1)
  /-- A.HASH (R288). -/
  | aHash (x : BitVec 7) (w : BitVec 2) (y : BitVec 7) (v : BitVec 2)
  /-- A.ABSORB (R288). -/
  | aAbsorb (x : BitVec 7) (w : BitVec 2) (y : BitVec 7) (v : BitVec 2) (q : BitVec 1)
  /-- A.COUNT (R288). -/
  | aCount (x : BitVec 7) (w : BitVec 2) (im : BitVec 10)
  /-- A.FWD (R288). -/
  | aFwd (k : BitVec 2) (p : BitVec 6)
  /-- A.ROUTE (R289). -/
  | aRoute
  /-- A.DROP (R288). -/
  | aDrop
  /-- A.MIRROR (R288). -/
  | aMirror (im : BitVec 10)
  /-- A.METER (R290). -/
  | aMeter (x : BitVec 7) (w : BitVec 2) (y : BitVec 7) (v : BitVec 2) (q : BitVec 1)
  /-- A.REGADD (R288). -/
  | aRegadd (x : BitVec 7) (w : BitVec 2) (y : BitVec 7) (v : BitVec 2) (q : BitVec 1)
  /-- A.PUNT (R288). -/
  | aPunt (im : BitVec 10)
  /-- A.TRUNC (R288). -/
  | aTrunc (im : BitVec 10)
  /-- TRAP (R315). -/
  | trap (im : BitVec 14)
  /-- TRET (R316). -/
  | tret
  /-- ASSAY (R318). -/
  | assay (d : BitVec 5) (a : BitVec 5)
  /-- HALT (R317). -/
  | halt
  /-- BAR (R305). -/
  | bar
  /-- PITCH (R307). -/
  | pitch
  /-- WAIT.c (R313). -/
  | wait (a : BitVec 5) (b : BitVec 5) (c : BitVec 1)
  /-- CNT (R314). -/
  | cnt (d : BitVec 5) (a : BitVec 5) (b : BitVec 5) (m : BitVec 2)
  /-- ROLLBACK (R323): Restores the cluster's contexts to their belays after a trap. -/
  | rollback (g : Nat)
  /-- RESULT_LAND (R26): An issued result writes its register at issue + latency. -/
  | resultLand (g k : Nat)
  /-- CONTEXT_RESUME (R37): A blocked or held bundle issues once its condition is met. -/
  | contextResume (g k x : Nat)
  /-- WITHHOLD_DRAIN (R185): A released buffer entry is written to its bank on a free cycle. -/
  | withholdDrain (g k : Nat)
  /-- ARRIVAL_COUNTER_UPDATE (R303): Per-cycle application of bumps, fires, waits, reads and clears. -/
  | arrivalCounterUpdate (g : Nat)
  /-- CONTEXT_LAUNCH (R36): A pending fire launches its kernel into a free context. -/
  | contextLaunch (g k : Nat)
  /-- BAR_RELEASE (R305): The barrier releases when every core has arrived. -/
  | barRelease (g : Nat)
  /-- PITCH_COMPLETE (R307): A core's PITCH completes once engines finish and its buffer drains. -/
  | pitchComplete (g k : Nat)
  /-- LOCAL_BOUNDARY (R308): The module's cores have completed PITCH and the col begins. -/
  | localBoundary (m : Nat)
  /-- PITCH_START (R308): The next pitch starts at the cycle of tick T. -/
  | pitchStart (m : Nat)
  /-- SYNC_IDLE (R309): Receipt of an IDLE sync flit. -/
  | syncIdle (m p : Nat) (fr : Frame)
  /-- SYNC_READY (R309): Receipt of a READY sync flit from a child. -/
  | syncReady (m p : Nat) (fr : Frame)
  /-- SYNC_PENDING (R309): Receipt of a PENDING sync flit. -/
  | syncPending (m p : Nat) (fr : Frame)
  /-- SYNC_GO (R309): Receipt of GO naming the start tick. -/
  | syncGo (m p : Nat) (fr : Frame)
  /-- SYNC_STOP (R310): Receipt of STOP, failing the col. -/
  | syncStop (m p : Nat) (fr : Frame)
  /-- SYNC_REPLAY (R335): Receipt of REPLAY from a child. -/
  | syncReplay (m p : Nat) (fr : Frame)
  /-- SYNC_LOSS (R310): 16 consecutive failed sync flits fail the col with PEER_DOWN. -/
  | syncLoss (m p : Nat)
  /-- GO_TIMEOUT (R310): No GO by tick T fails the col with SCHEDULE_FAULT. -/
  | goTimeout (m : Nat)
  /-- STRAGGLER (R312): The straggler timer expires and the domain stops. -/
  | straggler (m : Nat)
  /-- MMA_START (R160): A waiting MMA starts when the anvil frees. -/
  | mmaStart (g k : Nat)
  /-- MMA_RETIRE (R160): An MMA pops its ring tiles. -/
  | mmaRetire (g k : Nat)
  /-- MMA_LAND (R160): The bank and poison bits take the MMA result. -/
  | mmaLand (g k : Nat)
  /-- FOLD_START (R166): A waiting fold starts and snapshots its bank. -/
  | foldStart (g k : Nat)
  /-- FOLD_COMPLETE (R166): A fold's tile and status become readable. -/
  | foldComplete (g k : Nat)
  /-- LOCAL_COPY_COMPLETE (R214): A local copy performs its last write. -/
  | localCopyComplete (g k : Nat)
  /-- COPY_ENGINE_COMPLETE (R215): A timed copy-engine command completes at its deadline. -/
  | copyEngineComplete (g e : Nat)
  /-- XSND_DELIVERY (R219): A send's lines land on the receiver's side port. -/
  | xsndDelivery (g k : Nat)
  /-- XRCV_COMPLETE (R220): A pull's lines are written into the issuing core. -/
  | xrcvComplete (g k : Nat)
  /-- SEAL_COMPLETE (R221): The seal record is written. -/
  | sealComplete (g k : Nat)
  /-- OPEN_COMPLETE (R222): The tag check decides and plaintext or failure status is written. -/
  | openComplete (g k : Nat)
  /-- SPLD_SWITCH (R230): The active shuffle bank changes at issue + 2 + n. -/
  | spldSwitch (g k : Nat)
  /-- FABRIC_DEPART (R236): An untimed operation leaves on a free tick. -/
  | fabricDepart (g k : Nat)
  /-- UNTIMED_COMPLETE (R227): An untimed operation completes and bumps its counter. -/
  | untimedComplete (g k x : Nat)
  /-- CAIRN_WRITE (R242): A cairn record is written when the ring has room. -/
  | cairnWrite (r b : Nat)
  /-- CAIRN_RETRY (R242): A stalled cairn retries when a HEAD write drains. -/
  | cairnRetry (r b : Nat)
  /-- RESPONSE_TIMEOUT (R358): A response missing 2^20 ticks completes with PEER_DOWN. -/
  | responseTimeout (g k x : Nat)
  /-- PACKET_INGRESS (R274): A packet enters the parser and runs to its disposition. -/
  | packetIngress (p : Nat) (pk : Option (List Byte))
  /-- IMPORT_REQUEST (R259): An imported request is checked and performed in an untimed slot. -/
  | importRequest (p : ImportInput)
  /-- ABSORB_LINE_WRITE (R295): An absorb line is written from a bank's absorb queue. -/
  | absorbLineWrite (g k bk : Nat)
  /-- ABSORB_ABANDON (R296): An absorb waiting 1,024 ticks is abandoned and punted. -/
  | absorbAbandon (p : Nat)
  /-- PUNT_DELIVERY (R243): A punted packet is written to its punt ring. -/
  | puntDelivery (p : Nat)
  /-- TABLE_WRITE_APPLY (R297): A table write takes effect between two packets. -/
  | tableWriteApply (p : Nat)
  /-- PACKET_EGRESS (R246): A free tick sends the next packet flit by class and world. -/
  | packetEgress (p : Nat)
  /-- FRAME_IDLE (R357): Receipt of an IDLE frame carrying credits and acknowledgement. -/
  | frameIdle (p : Nat) (fr : Frame)
  /-- FRAME_PACKET (R357): Receipt of a packet flit under go-back-N. -/
  | framePacket (p : Nat) (fr : Frame)
  /-- FRAME_SCHEDULED (R353): Receipt of a scheduled flit into the landing buffer. -/
  | frameScheduled (p : Nat) (fr : Frame)
  /-- FRAME_CALIBRATION (R349): Receipt of a calibration frame during training. -/
  | frameCalibration (p : Nat) (fr : Frame)
  /-- LINK_SILENCE_TIMEOUT (R357): No ACK for 4,096 ticks resends from the oldest held flit. -/
  | linkSilenceTimeout (p : Nat)
  /-- LINK_TRAIN (R349): A link trains or retrains and its delay is fixed. -/
  | linkTrain (p : Nat) (ln : LinkInfo)
  /-- SCHEDULED_DEPARTURE (R351): A kind-2 record reads and sends a flit on its tick. -/
  | scheduledDeparture (m r : Nat)
  /-- SCHEDULED_LANDING (R353): A landed flit is written at S + tau' + i + 8. -/
  | scheduledLanding (p : Nat)
  /-- CLUSTER_EXCHANGE (R354): A kind-1 record moves bytes between cores. -/
  | clusterExchange (m r : Nat)
  /-- REDUCTION_STEP (R361): A kind-4 record combines wire data into an accumulator. -/
  | reductionStep (m r : Nat)
  /-- MIGRATION (R256): The migration engine moves a segment to a new VBASE. -/
  | migration (mq : MigrationInput)
  /-- REKEY (R269): A node whose minor counter reached 112 is rekeyed. -/
  | rekey (n : Nat)
  /-- ADMISSION (R248): The Dispatch Controller admits a waiting start vector. -/
  | admission (w pr : Nat)
  /-- CAPTURE (R340): Stopped cores stream out as a scan image. -/
  | capture (t : CaptureInput)
  /-- CAPTURE_END (R407): The capture stream ends and the clusters are zeroed or held. -/
  | captureEnd (q : SetInput)
  /-- RESTORE_RELEASE (R345): Restored clusters are released on cycle rho after the park is applied. -/
  | restoreRelease (q : Nat)
  /-- DOMAIN_PART_END (R317): A domain's part on the module ends with a DONE cairn. -/
  | domainPartEnd (m : Nat)
  /-- TRIGGER_TASK_END (R406): A trigger-mode task ends with a DONE cairn. -/
  | triggerTaskEnd (t : Nat)
  /-- FUSE_READ (R367): Returns the device id, lifecycle and certificate. -/
  | fuseRead (rq : AssayReq)
  /-- NONCE (R367): Returns a fresh outstanding nonce. -/
  | nonce (rq : AssayReq)
  /-- DEBUG_TOKEN (R377): Checks a debug token and unlocks the debug port. -/
  | debugToken (rq : AssayReq)
  /-- WORLD_CREATE (R367): Creates a tenant world and its keys. -/
  | worldCreate (rq : AssayReq)
  /-- WORLD_CONFIG (R367): Rewrites a world table entry. -/
  | worldConfig (rq : AssayReq)
  /-- KEY_IMPORT (R369): Imports a world's section key. -/
  | keyImport (rq : AssayReq)
  /-- IMAGE_LOAD (R371): Measures and loads an image into a world's clusters. -/
  | imageLoad (rq : AssayReq)
  /-- IMAGE_UNLOAD (R367): Unloads an image handle. -/
  | imageUnload (rq : AssayReq)
  /-- WORLD_RESET (R378): Tears down a world and records its scrub. -/
  | worldReset (rq : AssayReq)
  /-- REPORT (R374): Returns a signed assay report. -/
  | report (rq : AssayReq)
  /-- EXTEND (R367): Extends a world's configuration hallmark. -/
  | extend (rq : AssayReq)
  /-- DEPLOY (R375): Fuses the DEPLOYED lifecycle. -/
  | deploy (rq : AssayReq)
  /-- RETIRE (R375): Destroys the attestation key and fuses RETIRED. -/
  | retire (rq : AssayReq)
  /-- SCRUB_COMPLETE (R379): A departed world's frames are zeroed and it becomes FREE. -/
  | scrubComplete (wd : Nat)
  /-- LAUNCH (R383): A host LAUNCH write queues or refuses a start vector. -/
  | launch (fn : Nat) (v : BitVec 64)
  /-- PTCHG (R385): Signals a page-table change and retries delayed walks. -/
  | ptchg (fn : Nat) (v : Word)
  /-- SHOOTW (R385): Requests a shootdown for a world's range. -/
  | shootw (v : Word)
  /-- SELFT_GO (R391): Starts the self-test of a fenced cluster. -/
  | selftGo (v : Word)
  /-- SELFT_COMPLETE (R391): The self-test finishes and may lift the fence. -/
  | selftComplete (pass : Bool)
  /-- REGISTER_WRITE (R382): A write to a BAR0 register with no behaviour of its own. -/
  | registerWrite (fn off wd : Nat) (v : BitVec 64)
  /-- FUNCTION_LEVEL_RESET (R389): A VF reset tears down its world. -/
  | functionLevelReset (fn : Nat)
  /-- PF_FUNCTION_LEVEL_RESET (R389): A PF reset clears its page and world 0's launch queues. -/
  | pfFunctionLevelReset
  /-- PCIE_HOT_RESET (R381): A hot or link-down reset resets configuration spaces only. -/
  | pcieHotReset
  /-- POWER_ON (R390): Power-on or module reset begins bring-up. -/
  | powerOn (cold : Bool)
  /-- PCIE_LINK_UP (R390): The host link comes up. -/
  | pcieLinkUp
  /-- HBM_TRAIN (R390): A die's HBM trains and its clusters become placeable. -/
  | hbmTrain (die : Nat)
  /-- TICK_CALIBRATION (R390): Line-tick calibration completes on every trained link. -/
  | tickCalibration
  /-- PIPELINE_READY (R298): World 0 marks a pipeline ready, leaving base camp. -/
  | pipelineReady (p : ReadyInput)
  /-- SUPPLY_SAG (R393): A droop sensor below 0.47 V stretches the core clock. -/
  | supplySag
  /-- POWER_FAULT_RESET (R393): Prolonged droop or overtemperature resets the module. -/
  | powerFaultReset
  /-- TOKEN_REFILL (R387): Priority tokens are refilled every 2^20 cycles. -/
  | tokenRefill
  /-- SUPPLY_RECOVERY (R393): Every droop sensor again reads at or above 0.47 V and the clock generator stops skipping core cycles. -/
  | supplyRecovery
  /-- SYNC_TICK (R309): On each reserved sync tick of a sync-tree port the module sends its READY, PENDING, IDLE, GO, STOP or REPLAY sync flit. -/
  | syncTick (m p : Nat)
  /-- PROVISIONING (R375): The factory interface fuses the device attestation key and moves the lifecycle from BLANK to PROVISIONED. -/
  | provisioning (ky : BitVec 256)
  /-- LAUNCH_WITHDRAWAL (R248): System software withdraws a REFUSED start vector from its launch queue, freeing the entry. -/
  | launchWithdrawal (wd pr ix : Nat)
  deriving DecidableEq, Repr

/-- A decoded slot (03 R66): stop bit, slot guard and instruction. -/
structure Slot where
  stop : Bool
  guard : BitVec 4
  instr : Instr
  deriving DecidableEq, Repr

end Sys2Proof
end

