-- ==== Sys2Proof/WellFormed.lean ====
section
/-! DEFINITION. Well-formed instructions: the operand limits that the encoding alone decides (03 R67, R68, and each
entry's field rules). Limits on register values are judged when the slot issues. -/

namespace Sys2Proof

/-- A 5-bit field that names a coordinate register or a predicate: bit 4 is zero (03 R67). -/
def isLow (r : BitVec 5) : Bool := decide (r.toNat < 16)

/-- An even register number (05 R112, 09 R203). -/
def isEven (r : BitVec 5) : Bool := r.toNat % 2 == 0

/-- A special-register number that R90 names. -/
def isSr (r : BitVec 5) : Bool := decide (r.toNat < 12)

/-- The width in bits that W selects (03 R68); 0 for the reserved code. -/
def widthBits (w : BitVec 2) : Nat := if w == 0 then 256 else if w == 1 then 512 else if w == 2 then 1024 else 0

/-- The legal pairs of W and H (03 R68). -/
def okWH (w h : BitVec 2) : Bool :=
  w == 0 || (w == 1 && (h == 0 || h == 1)) || (w == 2 && h == 0)

/-- The lane width that a width code selects (06 R128); 0 for the reserved code. -/
def laneBits (c : BitVec 2) : Nat := if c == 0 then 32 else if c == 1 then 16 else if c == 2 then 8 else 0

/-- The number of lanes of `e` bits in a part of width W (06 R127). -/
def lanes (w : BitVec 2) (e : Nat) : Nat := widthBits w / e

/-- A rounding code of R52 that is not reserved. -/
def okRound (r : BitVec 3) : Bool := r == 0 || decide (4 ≤ r.toNat)

/-- The bytes that an action field of width code `w` covers (12 R287). -/
def fieldBytes (w : BitVec 2) : Nat := 2 ^ w.toNat

/-- A vector field that is read: inside the 128 bytes of the header vector (12 R287). -/
def okRead (x : BitVec 7) (w : BitVec 2) : Bool := decide (x.toNat + fieldBytes w ≤ 128)

/-- A vector field that is written: inside the vector and clear of bytes 64..95 (12 R287). -/
def okX (x : BitVec 7) (w : BitVec 2) : Bool :=
  okRead x w && (decide (x.toNat + fieldBytes w ≤ 64) || decide (96 ≤ x.toNat))

/-- A Y field: of the vector, or of the 32 bytes of action data (12 R287). -/
def okY (y : BitVec 7) (v : BitVec 2) (q : BitVec 1) : Bool :=
  if q == 0 then okRead y v else decide (y.toNat + fieldBytes v ≤ 32)

/-- The 4 * 2^c bytes that A.HASH reads lie in the vector (12 R288). -/
def okSpan (y : BitVec 7) (v : BitVec 2) : Bool := decide (y.toNat + 4 * fieldBytes v ≤ 128)

/-- The encoding's operand limits, per constructor; an event's limits are the ranges of what it names. -/
def Instr.wf : Instr → Bool
  | .nop => true
  | .add _ _ _ => true
  | .addi _ _ _ => true
  | .sub _ _ _ => true
  | .mul _ _ _ => true
  | .mulh _ _ _ => true
  | .mulhz _ _ _ => true
  | .and _ _ _ => true
  | .andi _ _ _ => true
  | .or _ _ _ => true
  | .ori _ _ _ => true
  | .xor _ _ _ => true
  | .xori _ _ _ => true
  | .shl _ _ _ => true
  | .shli _ _ _ => true
  | .shr _ _ _ => true
  | .shri _ _ _ => true
  | .sra _ _ _ => true
  | .srai _ _ _ => true
  | .rot _ _ _ => true
  | .roti _ _ _ => true
  | .min _ _ _ => true
  | .max _ _ _ => true
  | .minz _ _ _ => true
  | .maxz _ _ _ => true
  | .abs _ _ => true
  | .clz _ _ => true
  | .popc _ _ => true
  | .sxb _ _ => true
  | .sxh _ _ => true
  | .zxb _ _ => true
  | .zxh _ _ => true
  | .setl _ _ => true
  | .seth _ _ => true
  | .mov _ a f => f == 0 || (f == 1 && isLow a) || (f == 2 && a == 0)
  | .movs _ a => isSr a
  | .movt d _ => isSr d
  | .cmp d _ _ c _ => isLow d && (c == 0 || isEven d)
  | .cmpi d _ _ _ => isLow d
  | .cmpz d _ _ c _ => isLow d && (c == 0 || isEven d)
  | .pand d a b _ _ _ => isLow d && isLow a && isLow b
  | .por d a b _ _ _ => isLow d && isLow a && isLow b
  | .pxor d a b _ _ _ => isLow d && isLow a && isLow b
  | .pset d _ f => (f == 0 && isLow d) || (f == 1 && d == 0)
  | .cadd d a b f => isLow d && isLow a && ((f == 0 && isLow b) || f == 1)
  | .caddi d a _ => isLow d && isLow a
  | .cset d _ => isLow d
  | .cmov d a f => isLow d && (f == 0 || (f == 1 && isLow a))
  | .br _ _ => true
  | .bri _ => true
  | .call _ _ => true
  | .ret _ => true
  | .loop _ _ _ => true
  | .mark => true
  | .sel _ _ _ _ => true
  | .chk a b f => f == 0 || (f == 1 && isLow a && isLow b)
  | .ldS8 _ a _ => isLow a
  | .ldZ8 _ a _ => isLow a
  | .ldS16 _ a _ => isLow a
  | .ldZ16 _ a _ => isLow a
  | .ld32 _ a _ => isLow a
  | .st8 _ a _ => isLow a
  | .st16 _ a _ => isLow a
  | .st32 _ a _ => isLow a
  | .ld2 d a _ => isEven d && isLow a
  | .st2 d a _ => isEven d && isLow a
  | .ldv _ a w h _ => isLow a && okWH w h
  | .stv _ a w h _ => isLow a && okWH w h
  | .ldt _ _ _ => true
  | .ldvt _ _ _ w h => okWH w h
  | .tld _ _ b w h => isLow b && okWH w h
  | .tst _ _ b w h => isLow b && okWH w h
  | .tldt _ _ b w h => isLow b && okWH w h
  | .aadd _ _ _ f => f == 0
  | .amin _ _ _ f => f == 0 || f == 1
  | .amax _ _ _ f => f == 0 || f == 1
  | .aswp _ _ _ f => f == 0
  | .acas _ _ _ f => f == 0
  | .afadd _ _ _ f => f == 0
  | .tagw _ a _ => isLow a
  | .tagr _ a _ => isLow a
  | .formr _ a _ => isLow a
  | .sfnc => true
  | .zline a _ => isLow a
  | .mma _ _ _ _ y x => y != 3 && x != 3
  | .mmaz _ _ _ _ y x => y != 3 && x != 3
  | .scac _ _ _ _ _ => true
  | .scacz _ _ _ _ _ => true
  | .accrd _ _ _ _ => true
  | .accz _ => true
  | .mts _ e a _ => decide (e.toNat ≤ 10) && isLow a
  | .rset _ _ _ => true
  | .radv _ im => im != 0
  | .rpop _ im => im != 0
  | .cpy _ _ _ => true
  | .cpyHbm _ _ _ _ => true
  | .hget _ _ _ _ => true
  | .hput _ _ _ _ => true
  | .gth _ _ _ _ => true
  | .sct _ _ _ _ => true
  | .xsnd _ _ _ => true
  | .xrcv _ _ _ => true
  | .fput _ => true
  | .fget _ => true
  | .fatm _ => true
  | .fflr _ => true
  | .pinj _ => true
  | .seal _ _ => true
  | .unseal _ _ => true
  | .cairn _ _ => true
  | .ufnc => true
  | .tblw _ => true
  | .tblr _ _ _ => true
  | .spld _ _ _ => true
  | .shape _ _ => true
  | .vaddF32 _ _ _ w h => okWH w h
  | .vsubF32 _ _ _ w h => okWH w h
  | .vmulF32 _ _ _ w h => okWH w h
  | .vfmaF32 _ _ _ w h => okWH w h
  | .vfmsF32 _ _ _ w h => okWH w h
  | .vminF32 _ _ _ w h => okWH w h
  | .vmaxF32 _ _ _ w h => okWH w h
  | .vminpF32 _ _ _ w h => okWH w h
  | .vmaxpF32 _ _ _ w h => okWH w h
  | .vabsF32 _ _ w h => okWH w h
  | .vnegF32 _ _ w h => okWH w h
  | .vcmpF32 _ _ _ w h => okWH w h
  | .vaddBf16 _ _ _ w h => okWH w h
  | .vmulBf16 _ _ _ w h => okWH w h
  | .vfmaBf16 _ _ _ w h => okWH w h
  | .vminBf16 _ _ _ w h => okWH w h
  | .vmaxBf16 _ _ _ w h => okWH w h
  | .vaddI32 _ _ _ w h => okWH w h
  | .vsubI32 _ _ _ w h => okWH w h
  | .vmulI32 _ _ _ w h => okWH w h
  | .vminS32 _ _ _ w h => okWH w h
  | .vmaxS32 _ _ _ w h => okWH w h
  | .vminZ32 _ _ _ w h => okWH w h
  | .vmaxZ32 _ _ _ w h => okWH w h
  | .vaddI16 _ _ _ w h => okWH w h
  | .vsubI16 _ _ _ w h => okWH w h
  | .vaddsS16 _ _ _ w h => okWH w h
  | .vmulI16 _ _ _ w h => okWH w h
  | .vaddI8 _ _ _ w h => okWH w h
  | .vsubI8 _ _ _ w h => okWH w h
  | .vaddsS8 _ _ _ w h => okWH w h
  | .vaddsZ8 _ _ _ w h => okWH w h
  | .vand _ _ _ w h => okWH w h
  | .vor _ _ _ w h => okWH w h
  | .vxor _ _ _ w h => okWH w h
  | .vandn _ _ _ w h => okWH w h
  | .vshl _ c _ w h => c != 3 && okWH w h
  | .vshr _ c _ w h => c != 3 && okWH w h
  | .vsra _ c _ w h => c != 3 && okWH w h
  | .vrot _ c _ w h => c != 3 && okWH w h
  | .vshli _ c _ _ w h => c != 3 && okWH w h
  | .vshri _ c _ _ w h => c != 3 && okWH w h
  | .vsrai _ c _ _ w h => c != 3 && okWH w h
  | .vsel _ _ _ w h => okWH w h
  | .vmov _ _ w h => okWH w h
  | .vbcst _ _ c w h => c != 3 && okWH w h
  | .vext _ _ l w h => okWH w h && decide (l.toNat < lanes w 32)
  | .vins _ _ l w h => okWH w h && decide (l.toNat < lanes w 32)
  | .viota _ _ c w h => c != 3 && okWH w h
  | .vraddF32 _ _ w h => okWH w h
  | .vrmaxF32 _ _ w h => okWH w h
  | .vraddI32 _ _ w h => okWH w h
  | .vdotBf16 _ _ _ w h => okWH w h
  | .vcmpi _ _ _ w h => okWH w h
  | .vcnt _ _ c w h => c != 3 && okWH w h
  | .vclz _ _ c w h => c != 3 && okWH w h
  | .vmaskp d _ k _ c w h => isLow d && c != 3 && okWH w h && (k == 0 || isEven d)
  | .vptom _ _ u c w h => c != 3 && okWH w h && decide (32 * u.toNat < lanes w (laneBits c))
  | .vsclF32 _ _ _ w h => okWH w h
  | .vchk _ _ w h => okWH w h
  | .vrsqe _ _ w h => okWH w h
  | .vrcpe _ _ w h => okWH w h
  | .vexp2 _ _ w h => okWH w h
  | .vlog2 _ _ w h => okWH w h
  | .vtanh _ _ w h => okWH w h
  | .vsig _ _ w h => okWH w h
  | .vshuf _ _ _ _ => true
  | .vswz _ _ _ w h => okWH w h
  | .vrotl _ _ _ w h => okWH w h
  | .vcmpr _ _ _ w h => okWH w h
  | .vexpd _ _ _ w h => okWH w h
  | .vcvtBf16F32 _ _ r w h => okRound r && okWH w h
  | .vcvtF32Bf16 _ _ r w h => okRound r && okWH w h
  | .vcvtS32F32 _ _ r w h => okRound r && okWH w h
  | .vcvtF32S32 _ _ r w h => okRound r && okWH w h
  | .vcvtE4m3F32 _ _ r w h => okRound r && okWH w h
  | .vcvtF32E4m3 _ _ r w h => okRound r && okWH w h
  | .vcvtE5m2F32 _ _ r w h => okRound r && okWH w h
  | .vcvtF32E5m2 _ _ r w h => okRound r && okWH w h
  | .vcvtF16F32 _ _ r w h => okRound r && okWH w h
  | .vcvtF32F16 _ _ r w h => okRound r && okWH w h
  | .qblk _ _ f => f != 3
  | .qblkb _ _ f => f != 3
  | .dqblk _ _ f => f != 3
  | .vpack _ _ m w h => decide (m.toNat ≤ 4) && okWH w h
  | .vunpk _ _ m w h => decide (m.toNat ≤ 5) && okWH w h
  | .vcnteq _ _ _ w h => okWH w h
  | .vscan _ _ _ w h => okWH w h
  | .aSet x w _ => okX x w
  | .aAdd x w y v q => okX x w && okY y v q
  | .aCopy x w y v q => okX x w && okY y v q
  | .aHash x w y v => okX x w && okSpan y v
  | .aAbsorb x w y v q => okRead x w && w == 1 && v == 2 && okY y v q
  | .aCount x w im => okRead x w && w == 1 && im != 0
  | .aFwd _ p => decide (p.toNat < 36)
  | .aRoute => true
  | .aDrop => true
  | .aMirror im => decide ((im.extractLsb' 0 6).toNat < 36) && im.extractLsb' 8 2 == 0
  | .aMeter x w y v q => okX x w && w == 0 && okY y v q
  | .aRegadd x w y v q => okX x w && (w == 2 || w == 3) && okY y v q
  | .aPunt im => decide (im.toNat ≤ 0x3EF)
  | .aTrunc im => im != 0
  | .trap _ => true
  | .tret => true
  | .assay _ _ => true
  | .halt => true
  | .bar => true
  | .pitch => true
  | .wait _ _ _ => true
  | .cnt d _ _ m => m != 3 && (m != 2 || d == 0)
  | .rollback g => decide (g < 96)
  | .resultLand g k => decide (g < 96) && decide (k < 48)
  | .contextResume g k x => decide (g < 96) && decide (k < 48) && decide (x < 4)
  | .withholdDrain g k => decide (g < 96) && decide (k < 48)
  | .arrivalCounterUpdate g => decide (g < 96)
  | .contextLaunch g k => decide (g < 96) && decide (k < 48)
  | .barRelease g => decide (g < 96)
  | .pitchComplete g k => decide (g < 96) && decide (k < 48)
  | .localBoundary _ => true
  | .pitchStart _ => true
  | .syncIdle _ p fr => decide (p < 36) && fr.flit.length == 128 && fr.flit.head? == some 0
  | .syncReady _ p fr => decide (p < 36) && fr.flit.length == 128 && fr.flit.head? == some 1
  | .syncPending _ p fr => decide (p < 36) && fr.flit.length == 128 && fr.flit.head? == some 2
  | .syncGo _ p fr => decide (p < 36) && fr.flit.length == 128 && fr.flit.head? == some 3
  | .syncStop _ p fr => decide (p < 36) && fr.flit.length == 128 && fr.flit.head? == some 4
  | .syncReplay _ p fr => decide (p < 36) && fr.flit.length == 128 && fr.flit.head? == some 5
  | .syncLoss _ p => decide (p < 36)
  | .goTimeout _ => true
  | .straggler _ => true
  | .mmaStart g k => decide (g < 96) && decide (k < 48)
  | .mmaRetire g k => decide (g < 96) && decide (k < 48)
  | .mmaLand g k => decide (g < 96) && decide (k < 48)
  | .foldStart g k => decide (g < 96) && decide (k < 48)
  | .foldComplete g k => decide (g < 96) && decide (k < 48)
  | .localCopyComplete g k => decide (g < 96) && decide (k < 48)
  | .copyEngineComplete g e => decide (g < 96) && decide (e < 2)
  | .xsndDelivery g k => decide (g < 96) && decide (k < 48)
  | .xrcvComplete g k => decide (g < 96) && decide (k < 48)
  | .sealComplete g k => decide (g < 96) && decide (k < 48)
  | .openComplete g k => decide (g < 96) && decide (k < 48)
  | .spldSwitch g k => decide (g < 96) && decide (k < 48)
  | .fabricDepart g k => decide (g < 96) && decide (k < 48)
  | .untimedComplete g k x => decide (g < 96) && decide (k < 48) && decide (x < 4)
  | .cairnWrite r _ => decide (r < 4608)
  | .cairnRetry r _ => decide (r < 4608)
  | .responseTimeout g k x => decide (g < 96) && decide (k < 48) && decide (x < 4)
  | .packetIngress p _ => decide (p < 36)
  | .importRequest (.serve p) => decide (p < 36)
  | .importRequest (.write i b) => decide (i < 8192) && b.length == 32
  | .absorbLineWrite g k bk => decide (g < 96) && decide (k < 48) && decide (bk < 32)
  | .absorbAbandon p => decide (p < 36)
  | .puntDelivery p => decide (p < 36)
  | .tableWriteApply p => decide (p < 36)
  | .packetEgress p => decide (p < 36)
  | .frameIdle p fr => decide (p < 36) && fr.flit.length == 128
  | .framePacket p fr => decide (p < 36) && fr.flit.length == 128
  | .frameScheduled p fr => decide (p < 36) && fr.flit.length == 128
  | .frameCalibration p fr => decide (p < 36) && fr.flit.length == 128
  | .linkSilenceTimeout p => decide (p < 36)
  | .linkTrain p _ => decide (p < 36)
  | .scheduledDeparture _ _ => true
  | .scheduledLanding p => decide (p < 36)
  | .clusterExchange _ _ => true
  | .reductionStep _ _ => true
  | .migration _ => true
  | .rekey _ => true
  | .admission w pr => decide (w < 17) && decide (pr < 8)
  | .capture _ => true
  | .captureEnd _ => true
  | .restoreRelease _ => true
  | .domainPartEnd _ => true
  | .triggerTaskEnd _ => true
  | .fuseRead _ => true
  | .nonce _ => true
  | .debugToken _ => true
  | .worldCreate _ => true
  | .worldConfig _ => true
  | .keyImport _ => true
  | .imageLoad _ => true
  | .imageUnload _ => true
  | .worldReset _ => true
  | .report _ => true
  | .extend _ => true
  | .deploy _ => true
  | .retire _ => true
  | .scrubComplete wd => decide (wd < 17)
  | .launch fn _ => decide (fn < 17)
  | .ptchg fn _ => decide (fn < 17)
  | .shootw _ => true
  | .selftGo _ => true
  | .selftComplete _ => true
  | .registerWrite fn _ _ _ => decide (fn < 17)
  | .functionLevelReset fn => decide (fn < 17)
  | .pfFunctionLevelReset => true
  | .pcieHotReset => true
  | .powerOn _ => true
  | .pcieLinkUp => true
  | .hbmTrain die => decide (die < 12)
  | .tickCalibration => true
  | .pipelineReady p => decide (p.pipe < 36)
  | .supplySag => true
  | .powerFaultReset => true
  | .tokenRefill => true
  | .supplyRecovery => true
  | .syncTick _ p => decide (p < 36)
  | .provisioning _ => true
  | .launchWithdrawal wd pr _ => decide (wd < 17) && decide (pr < 8)

/-- Whether the constructor is an event of the machine, which no word encodes. -/
def Instr.isEvent : Instr → Bool
  | .nop => false
  | .add .. => false
  | .addi .. => false
  | .sub .. => false
  | .mul .. => false
  | .mulh .. => false
  | .mulhz .. => false
  | .and .. => false
  | .andi .. => false
  | .or .. => false
  | .ori .. => false
  | .xor .. => false
  | .xori .. => false
  | .shl .. => false
  | .shli .. => false
  | .shr .. => false
  | .shri .. => false
  | .sra .. => false
  | .srai .. => false
  | .rot .. => false
  | .roti .. => false
  | .min .. => false
  | .max .. => false
  | .minz .. => false
  | .maxz .. => false
  | .abs .. => false
  | .clz .. => false
  | .popc .. => false
  | .sxb .. => false
  | .sxh .. => false
  | .zxb .. => false
  | .zxh .. => false
  | .setl .. => false
  | .seth .. => false
  | .mov .. => false
  | .movs .. => false
  | .movt .. => false
  | .cmp .. => false
  | .cmpi .. => false
  | .cmpz .. => false
  | .pand .. => false
  | .por .. => false
  | .pxor .. => false
  | .pset .. => false
  | .cadd .. => false
  | .caddi .. => false
  | .cset .. => false
  | .cmov .. => false
  | .br .. => false
  | .bri .. => false
  | .call .. => false
  | .ret .. => false
  | .loop .. => false
  | .mark => false
  | .sel .. => false
  | .chk .. => false
  | .ldS8 .. => false
  | .ldZ8 .. => false
  | .ldS16 .. => false
  | .ldZ16 .. => false
  | .ld32 .. => false
  | .st8 .. => false
  | .st16 .. => false
  | .st32 .. => false
  | .ld2 .. => false
  | .st2 .. => false
  | .ldv .. => false
  | .stv .. => false
  | .ldt .. => false
  | .ldvt .. => false
  | .tld .. => false
  | .tst .. => false
  | .tldt .. => false
  | .aadd .. => false
  | .amin .. => false
  | .amax .. => false
  | .aswp .. => false
  | .acas .. => false
  | .afadd .. => false
  | .tagw .. => false
  | .tagr .. => false
  | .formr .. => false
  | .sfnc => false
  | .zline .. => false
  | .mma .. => false
  | .mmaz .. => false
  | .scac .. => false
  | .scacz .. => false
  | .accrd .. => false
  | .accz .. => false
  | .mts .. => false
  | .rset .. => false
  | .radv .. => false
  | .rpop .. => false
  | .cpy .. => false
  | .cpyHbm .. => false
  | .hget .. => false
  | .hput .. => false
  | .gth .. => false
  | .sct .. => false
  | .xsnd .. => false
  | .xrcv .. => false
  | .fput .. => false
  | .fget .. => false
  | .fatm .. => false
  | .fflr .. => false
  | .pinj .. => false
  | .seal .. => false
  | .unseal .. => false
  | .cairn .. => false
  | .ufnc => false
  | .tblw .. => false
  | .tblr .. => false
  | .spld .. => false
  | .shape .. => false
  | .vaddF32 .. => false
  | .vsubF32 .. => false
  | .vmulF32 .. => false
  | .vfmaF32 .. => false
  | .vfmsF32 .. => false
  | .vminF32 .. => false
  | .vmaxF32 .. => false
  | .vminpF32 .. => false
  | .vmaxpF32 .. => false
  | .vabsF32 .. => false
  | .vnegF32 .. => false
  | .vcmpF32 .. => false
  | .vaddBf16 .. => false
  | .vmulBf16 .. => false
  | .vfmaBf16 .. => false
  | .vminBf16 .. => false
  | .vmaxBf16 .. => false
  | .vaddI32 .. => false
  | .vsubI32 .. => false
  | .vmulI32 .. => false
  | .vminS32 .. => false
  | .vmaxS32 .. => false
  | .vminZ32 .. => false
  | .vmaxZ32 .. => false
  | .vaddI16 .. => false
  | .vsubI16 .. => false
  | .vaddsS16 .. => false
  | .vmulI16 .. => false
  | .vaddI8 .. => false
  | .vsubI8 .. => false
  | .vaddsS8 .. => false
  | .vaddsZ8 .. => false
  | .vand .. => false
  | .vor .. => false
  | .vxor .. => false
  | .vandn .. => false
  | .vshl .. => false
  | .vshr .. => false
  | .vsra .. => false
  | .vrot .. => false
  | .vshli .. => false
  | .vshri .. => false
  | .vsrai .. => false
  | .vsel .. => false
  | .vmov .. => false
  | .vbcst .. => false
  | .vext .. => false
  | .vins .. => false
  | .viota .. => false
  | .vraddF32 .. => false
  | .vrmaxF32 .. => false
  | .vraddI32 .. => false
  | .vdotBf16 .. => false
  | .vcmpi .. => false
  | .vcnt .. => false
  | .vclz .. => false
  | .vmaskp .. => false
  | .vptom .. => false
  | .vsclF32 .. => false
  | .vchk .. => false
  | .vrsqe .. => false
  | .vrcpe .. => false
  | .vexp2 .. => false
  | .vlog2 .. => false
  | .vtanh .. => false
  | .vsig .. => false
  | .vshuf .. => false
  | .vswz .. => false
  | .vrotl .. => false
  | .vcmpr .. => false
  | .vexpd .. => false
  | .vcvtBf16F32 .. => false
  | .vcvtF32Bf16 .. => false
  | .vcvtS32F32 .. => false
  | .vcvtF32S32 .. => false
  | .vcvtE4m3F32 .. => false
  | .vcvtF32E4m3 .. => false
  | .vcvtE5m2F32 .. => false
  | .vcvtF32E5m2 .. => false
  | .vcvtF16F32 .. => false
  | .vcvtF32F16 .. => false
  | .qblk .. => false
  | .qblkb .. => false
  | .dqblk .. => false
  | .vpack .. => false
  | .vunpk .. => false
  | .vcnteq .. => false
  | .vscan .. => false
  | .aSet .. => false
  | .aAdd .. => false
  | .aCopy .. => false
  | .aHash .. => false
  | .aAbsorb .. => false
  | .aCount .. => false
  | .aFwd .. => false
  | .aRoute => false
  | .aDrop => false
  | .aMirror .. => false
  | .aMeter .. => false
  | .aRegadd .. => false
  | .aPunt .. => false
  | .aTrunc .. => false
  | .trap .. => false
  | .tret => false
  | .assay .. => false
  | .halt => false
  | .bar => false
  | .pitch => false
  | .wait .. => false
  | .cnt .. => false
  | .rollback .. => true
  | .resultLand .. => true
  | .contextResume .. => true
  | .withholdDrain .. => true
  | .arrivalCounterUpdate .. => true
  | .contextLaunch .. => true
  | .barRelease .. => true
  | .pitchComplete .. => true
  | .localBoundary .. => true
  | .pitchStart .. => true
  | .syncIdle .. => true
  | .syncReady .. => true
  | .syncPending .. => true
  | .syncGo .. => true
  | .syncStop .. => true
  | .syncReplay .. => true
  | .syncLoss .. => true
  | .goTimeout .. => true
  | .straggler .. => true
  | .mmaStart .. => true
  | .mmaRetire .. => true
  | .mmaLand .. => true
  | .foldStart .. => true
  | .foldComplete .. => true
  | .localCopyComplete .. => true
  | .copyEngineComplete .. => true
  | .xsndDelivery .. => true
  | .xrcvComplete .. => true
  | .sealComplete .. => true
  | .openComplete .. => true
  | .spldSwitch .. => true
  | .fabricDepart .. => true
  | .untimedComplete .. => true
  | .cairnWrite .. => true
  | .cairnRetry .. => true
  | .responseTimeout .. => true
  | .packetIngress .. => true
  | .importRequest .. => true
  | .absorbLineWrite .. => true
  | .absorbAbandon .. => true
  | .puntDelivery .. => true
  | .tableWriteApply .. => true
  | .packetEgress .. => true
  | .frameIdle .. => true
  | .framePacket .. => true
  | .frameScheduled .. => true
  | .frameCalibration .. => true
  | .linkSilenceTimeout .. => true
  | .linkTrain .. => true
  | .scheduledDeparture .. => true
  | .scheduledLanding .. => true
  | .clusterExchange .. => true
  | .reductionStep .. => true
  | .migration .. => true
  | .rekey .. => true
  | .admission .. => true
  | .capture .. => true
  | .captureEnd .. => true
  | .restoreRelease .. => true
  | .domainPartEnd .. => true
  | .triggerTaskEnd .. => true
  | .fuseRead .. => true
  | .nonce .. => true
  | .debugToken .. => true
  | .worldCreate .. => true
  | .worldConfig .. => true
  | .keyImport .. => true
  | .imageLoad .. => true
  | .imageUnload .. => true
  | .worldReset .. => true
  | .report .. => true
  | .extend .. => true
  | .deploy .. => true
  | .retire .. => true
  | .scrubComplete .. => true
  | .launch .. => true
  | .ptchg .. => true
  | .shootw .. => true
  | .selftGo .. => true
  | .selftComplete .. => true
  | .registerWrite .. => true
  | .functionLevelReset .. => true
  | .pfFunctionLevelReset => true
  | .pcieHotReset => true
  | .powerOn .. => true
  | .pcieLinkUp => true
  | .hbmTrain .. => true
  | .tickCalibration => true
  | .pipelineReady .. => true
  | .supplySag => true
  | .powerFaultReset => true
  | .tokenRefill => true
  | .supplyRecovery => true
  | .syncTick .. => true
  | .provisioning .. => true
  | .launchWithdrawal .. => true

end Sys2Proof
end

