-- ==== Sys2Proof/Decode.lean ====
section
/-! DEFINITION. The decoder of slot words (03 R66, R67, R74), total on every word, which refuses by name, and the
encoder written from the same tables. -/

namespace Sys2Proof

/-- Why a slot word is no instruction: check 8 (an opcode with no meaning) or check 11 (its operand bits) of R73. -/
inductive DecodeError where
  /-- A reserved or undefined opcode (03 R75): OPCODE_UNDEFINED. -/
  | opcodeUndefined
  /-- A field that must be zero is not, or a field holds a value its entry does not define: OPERAND_ILLEGAL. -/
  | operandIllegal
  deriving DecidableEq, Repr

/-- The opcode field of a slot word, bits 26..19 (03 R66). -/
def opcodeOf (w : Word) : BitVec 8 := w.extractLsb' 19 8

/-- The slot guard of a slot word, bits 30..27 (03 R66). -/
def guardOf (w : Word) : BitVec 4 := w.extractLsb' 27 4

/-- The stop bit of a slot word, bit 31 (03 R66). -/
def stopOf (w : Word) : Bool := w.extractLsb' 31 1 == 1

/-- The 224 defined values of the opcode field (03 R74). -/
def opcodeDefined (o : BitVec 8) : Bool :=
  let n := o.toNat
  decide (n ≤ 0x37) || (decide (0x40 ≤ n) && decide (n ≤ 0x5B)) || (decide (0x60 ≤ n) && decide (n ≤ 0x7D)) ||
    (decide (0x80 ≤ n) && decide (n ≤ 0xBB)) || (decide (0xC0 ≤ n) && decide (n ≤ 0xDB)) ||
    (decide (0xE0 ≤ n) && decide (n ≤ 0xED)) || (decide (0xF0 ≤ n) && decide (n ≤ 0xF7))

/-- The 19 operand bits read as the instruction of an opcode, with the bits its entry leaves unused required zero
(03 R67); the operand values are judged by `Instr.wf`. -/
def decodeOperands (opc : BitVec 8) (x : BitVec 19) : Option Instr :=
  match opc.toNat with
  | 0x00 => if x &&& 0x7FFFF#19 = 0x00000#19 then some .nop else none
  | 0x01 => if x &&& 0x0000F#19 = 0x00000#19 then some (.add (x.extractLsb' 14 5) (x.extractLsb' 9 5) (x.extractLsb' 4 5)) else none
  | 0x02 => some (.addi (x.extractLsb' 14 5) (x.extractLsb' 9 5) (x.extractLsb' 0 9))
  | 0x03 => if x &&& 0x0000F#19 = 0x00000#19 then some (.sub (x.extractLsb' 14 5) (x.extractLsb' 9 5) (x.extractLsb' 4 5)) else none
  | 0x04 => if x &&& 0x0000F#19 = 0x00000#19 then some (.mul (x.extractLsb' 14 5) (x.extractLsb' 9 5) (x.extractLsb' 4 5)) else none
  | 0x05 => if x &&& 0x0000F#19 = 0x00000#19 then some (.mulh (x.extractLsb' 14 5) (x.extractLsb' 9 5) (x.extractLsb' 4 5)) else none
  | 0x06 => if x &&& 0x0000F#19 = 0x00000#19 then some (.mulhz (x.extractLsb' 14 5) (x.extractLsb' 9 5) (x.extractLsb' 4 5)) else none
  | 0x07 => if x &&& 0x0000F#19 = 0x00000#19 then some (.and (x.extractLsb' 14 5) (x.extractLsb' 9 5) (x.extractLsb' 4 5)) else none
  | 0x08 => some (.andi (x.extractLsb' 14 5) (x.extractLsb' 9 5) (x.extractLsb' 0 9))
  | 0x09 => if x &&& 0x0000F#19 = 0x00000#19 then some (.or (x.extractLsb' 14 5) (x.extractLsb' 9 5) (x.extractLsb' 4 5)) else none
  | 0x0A => some (.ori (x.extractLsb' 14 5) (x.extractLsb' 9 5) (x.extractLsb' 0 9))
  | 0x0B => if x &&& 0x0000F#19 = 0x00000#19 then some (.xor (x.extractLsb' 14 5) (x.extractLsb' 9 5) (x.extractLsb' 4 5)) else none
  | 0x0C => some (.xori (x.extractLsb' 14 5) (x.extractLsb' 9 5) (x.extractLsb' 0 9))
  | 0x0D => if x &&& 0x0000F#19 = 0x00000#19 then some (.shl (x.extractLsb' 14 5) (x.extractLsb' 9 5) (x.extractLsb' 4 5)) else none
  | 0x0E => if x &&& 0x00100#19 = 0x00000#19 then some (.shli (x.extractLsb' 14 5) (x.extractLsb' 9 5) (x.extractLsb' 0 8)) else none
  | 0x0F => if x &&& 0x0000F#19 = 0x00000#19 then some (.shr (x.extractLsb' 14 5) (x.extractLsb' 9 5) (x.extractLsb' 4 5)) else none
  | 0x10 => if x &&& 0x00100#19 = 0x00000#19 then some (.shri (x.extractLsb' 14 5) (x.extractLsb' 9 5) (x.extractLsb' 0 8)) else none
  | 0x11 => if x &&& 0x0000F#19 = 0x00000#19 then some (.sra (x.extractLsb' 14 5) (x.extractLsb' 9 5) (x.extractLsb' 4 5)) else none
  | 0x12 => if x &&& 0x00100#19 = 0x00000#19 then some (.srai (x.extractLsb' 14 5) (x.extractLsb' 9 5) (x.extractLsb' 0 8)) else none
  | 0x13 => if x &&& 0x0000F#19 = 0x00000#19 then some (.rot (x.extractLsb' 14 5) (x.extractLsb' 9 5) (x.extractLsb' 4 5)) else none
  | 0x14 => if x &&& 0x00100#19 = 0x00000#19 then some (.roti (x.extractLsb' 14 5) (x.extractLsb' 9 5) (x.extractLsb' 0 8)) else none
  | 0x15 => if x &&& 0x0000F#19 = 0x00000#19 then some (.min (x.extractLsb' 14 5) (x.extractLsb' 9 5) (x.extractLsb' 4 5)) else none
  | 0x16 => if x &&& 0x0000F#19 = 0x00000#19 then some (.max (x.extractLsb' 14 5) (x.extractLsb' 9 5) (x.extractLsb' 4 5)) else none
  | 0x17 => if x &&& 0x0000F#19 = 0x00000#19 then some (.minz (x.extractLsb' 14 5) (x.extractLsb' 9 5) (x.extractLsb' 4 5)) else none
  | 0x18 => if x &&& 0x0000F#19 = 0x00000#19 then some (.maxz (x.extractLsb' 14 5) (x.extractLsb' 9 5) (x.extractLsb' 4 5)) else none
  | 0x19 => if x &&& 0x001FF#19 = 0x00000#19 then some (.abs (x.extractLsb' 14 5) (x.extractLsb' 9 5)) else none
  | 0x1A => if x &&& 0x001FF#19 = 0x00000#19 then some (.clz (x.extractLsb' 14 5) (x.extractLsb' 9 5)) else none
  | 0x1B => if x &&& 0x001FF#19 = 0x00000#19 then some (.popc (x.extractLsb' 14 5) (x.extractLsb' 9 5)) else none
  | 0x1C => if x &&& 0x001FF#19 = 0x00000#19 then some (.sxb (x.extractLsb' 14 5) (x.extractLsb' 9 5)) else none
  | 0x1D => if x &&& 0x001FF#19 = 0x00000#19 then some (.sxh (x.extractLsb' 14 5) (x.extractLsb' 9 5)) else none
  | 0x1E => if x &&& 0x001FF#19 = 0x00000#19 then some (.zxb (x.extractLsb' 14 5) (x.extractLsb' 9 5)) else none
  | 0x1F => if x &&& 0x001FF#19 = 0x00000#19 then some (.zxh (x.extractLsb' 14 5) (x.extractLsb' 9 5)) else none
  | 0x20 => some (.setl (x.extractLsb' 14 5) (x.extractLsb' 0 14))
  | 0x21 => some (.seth (x.extractLsb' 14 5) (x.extractLsb' 0 14))
  | 0x22 => if x &&& 0x001F0#19 = 0x00000#19 then some (.mov (x.extractLsb' 14 5) (x.extractLsb' 9 5) (x.extractLsb' 0 4)) else none
  | 0x23 => if x &&& 0x001FF#19 = 0x00000#19 then some (.movs (x.extractLsb' 14 5) (x.extractLsb' 9 5)) else none
  | 0x24 => if x &&& 0x001FF#19 = 0x00000#19 then some (.movt (x.extractLsb' 14 5) (x.extractLsb' 9 5)) else none
  | 0x25 => some (.cmp (x.extractLsb' 14 5) (x.extractLsb' 9 5) (x.extractLsb' 4 5) (x.extractLsb' 3 1) (x.extractLsb' 0 3))
  | 0x26 => some (.cmpi (x.extractLsb' 14 5) (x.extractLsb' 9 5) (x.extractLsb' 6 3) (x.extractLsb' 0 6))
  | 0x27 => some (.cmpz (x.extractLsb' 14 5) (x.extractLsb' 9 5) (x.extractLsb' 4 5) (x.extractLsb' 3 1) (x.extractLsb' 0 3))
  | 0x28 => if x &&& 0x00008#19 = 0x00000#19 then some (.pand (x.extractLsb' 14 5) (x.extractLsb' 9 5) (x.extractLsb' 4 5) (x.extractLsb' 2 1) (x.extractLsb' 1 1) (x.extractLsb' 0 1)) else none
  | 0x29 => if x &&& 0x00008#19 = 0x00000#19 then some (.por (x.extractLsb' 14 5) (x.extractLsb' 9 5) (x.extractLsb' 4 5) (x.extractLsb' 2 1) (x.extractLsb' 1 1) (x.extractLsb' 0 1)) else none
  | 0x2A => if x &&& 0x00008#19 = 0x00000#19 then some (.pxor (x.extractLsb' 14 5) (x.extractLsb' 9 5) (x.extractLsb' 4 5) (x.extractLsb' 2 1) (x.extractLsb' 1 1) (x.extractLsb' 0 1)) else none
  | 0x2B => if x &&& 0x001F0#19 = 0x00000#19 then some (.pset (x.extractLsb' 14 5) (x.extractLsb' 9 5) (x.extractLsb' 0 4)) else none
  | 0x2C => some (.cadd (x.extractLsb' 14 5) (x.extractLsb' 9 5) (x.extractLsb' 4 5) (x.extractLsb' 0 4))
  | 0x2D => some (.caddi (x.extractLsb' 14 5) (x.extractLsb' 9 5) (x.extractLsb' 0 9))
  | 0x2E => some (.cset (x.extractLsb' 14 5) (x.extractLsb' 0 14))
  | 0x2F => if x &&& 0x001F0#19 = 0x00000#19 then some (.cmov (x.extractLsb' 14 5) (x.extractLsb' 9 5) (x.extractLsb' 0 4)) else none
  | 0x30 => if x &&& 0x7C000#19 = 0x00000#19 then some (.br (x.extractLsb' 9 5) (x.extractLsb' 0 9)) else none
  | 0x31 => if x &&& 0x7C000#19 = 0x00000#19 then some (.bri (x.extractLsb' 0 14)) else none
  | 0x32 => some (.call (x.extractLsb' 14 5) (x.extractLsb' 0 14))
  | 0x33 => if x &&& 0x7C1FF#19 = 0x00000#19 then some (.ret (x.extractLsb' 9 5)) else none
  | 0x34 => some (.loop (x.extractLsb' 14 5) (x.extractLsb' 9 5) (x.extractLsb' 0 9))
  | 0x35 => if x &&& 0x7FFFF#19 = 0x00000#19 then some .mark else none
  | 0x36 => some (.sel (x.extractLsb' 14 5) (x.extractLsb' 9 5) (x.extractLsb' 4 5) (x.extractLsb' 0 4))
  | 0x37 => if x &&& 0x7C000#19 = 0x00000#19 then some (.chk (x.extractLsb' 9 5) (x.extractLsb' 4 5) (x.extractLsb' 0 4)) else none
  | 0x40 => some (.ldS8 (x.extractLsb' 14 5) (x.extractLsb' 9 5) (x.extractLsb' 0 9))
  | 0x41 => some (.ldZ8 (x.extractLsb' 14 5) (x.extractLsb' 9 5) (x.extractLsb' 0 9))
  | 0x42 => some (.ldS16 (x.extractLsb' 14 5) (x.extractLsb' 9 5) (x.extractLsb' 0 9))
  | 0x43 => some (.ldZ16 (x.extractLsb' 14 5) (x.extractLsb' 9 5) (x.extractLsb' 0 9))
  | 0x44 => some (.ld32 (x.extractLsb' 14 5) (x.extractLsb' 9 5) (x.extractLsb' 0 9))
  | 0x45 => some (.st8 (x.extractLsb' 14 5) (x.extractLsb' 9 5) (x.extractLsb' 0 9))
  | 0x46 => some (.st16 (x.extractLsb' 14 5) (x.extractLsb' 9 5) (x.extractLsb' 0 9))
  | 0x47 => some (.st32 (x.extractLsb' 14 5) (x.extractLsb' 9 5) (x.extractLsb' 0 9))
  | 0x48 => some (.ld2 (x.extractLsb' 14 5) (x.extractLsb' 9 5) (x.extractLsb' 0 9))
  | 0x49 => some (.st2 (x.extractLsb' 14 5) (x.extractLsb' 9 5) (x.extractLsb' 0 9))
  | 0x4A => some (.ldv (x.extractLsb' 14 5) (x.extractLsb' 9 5) (x.extractLsb' 7 2) (x.extractLsb' 5 2) (x.extractLsb' 0 5))
  | 0x4B => some (.stv (x.extractLsb' 14 5) (x.extractLsb' 9 5) (x.extractLsb' 7 2) (x.extractLsb' 5 2) (x.extractLsb' 0 5))
  | 0x4C => if x &&& 0x0000F#19 = 0x00000#19 then some (.ldt (x.extractLsb' 14 5) (x.extractLsb' 9 5) (x.extractLsb' 4 5)) else none
  | 0x4D => some (.ldvt (x.extractLsb' 14 5) (x.extractLsb' 9 5) (x.extractLsb' 4 5) (x.extractLsb' 2 2) (x.extractLsb' 0 2))
  | 0x4E => if x &&& 0x02000#19 = 0x00000#19 then some (.tld (x.extractLsb' 14 5) (x.extractLsb' 9 4) (x.extractLsb' 4 5) (x.extractLsb' 2 2) (x.extractLsb' 0 2)) else none
  | 0x4F => if x &&& 0x02000#19 = 0x00000#19 then some (.tst (x.extractLsb' 14 5) (x.extractLsb' 9 4) (x.extractLsb' 4 5) (x.extractLsb' 2 2) (x.extractLsb' 0 2)) else none
  | 0x50 => if x &&& 0x02000#19 = 0x00000#19 then some (.tldt (x.extractLsb' 14 5) (x.extractLsb' 9 4) (x.extractLsb' 4 5) (x.extractLsb' 2 2) (x.extractLsb' 0 2)) else none
  | 0x51 => some (.aadd (x.extractLsb' 14 5) (x.extractLsb' 9 5) (x.extractLsb' 4 5) (x.extractLsb' 0 4))
  | 0x52 => some (.amin (x.extractLsb' 14 5) (x.extractLsb' 9 5) (x.extractLsb' 4 5) (x.extractLsb' 0 4))
  | 0x53 => some (.amax (x.extractLsb' 14 5) (x.extractLsb' 9 5) (x.extractLsb' 4 5) (x.extractLsb' 0 4))
  | 0x54 => some (.aswp (x.extractLsb' 14 5) (x.extractLsb' 9 5) (x.extractLsb' 4 5) (x.extractLsb' 0 4))
  | 0x55 => some (.acas (x.extractLsb' 14 5) (x.extractLsb' 9 5) (x.extractLsb' 4 5) (x.extractLsb' 0 4))
  | 0x56 => some (.afadd (x.extractLsb' 14 5) (x.extractLsb' 9 5) (x.extractLsb' 4 5) (x.extractLsb' 0 4))
  | 0x57 => some (.tagw (x.extractLsb' 14 5) (x.extractLsb' 9 5) (x.extractLsb' 0 9))
  | 0x58 => some (.tagr (x.extractLsb' 14 5) (x.extractLsb' 9 5) (x.extractLsb' 0 9))
  | 0x59 => some (.formr (x.extractLsb' 14 5) (x.extractLsb' 9 5) (x.extractLsb' 0 9))
  | 0x5A => if x &&& 0x7FFFF#19 = 0x00000#19 then some .sfnc else none
  | 0x5B => if x &&& 0x7C000#19 = 0x00000#19 then some (.zline (x.extractLsb' 9 5) (x.extractLsb' 0 9)) else none
  | 0x60 => if x &&& 0x03180#19 = 0x00000#19 then some (.mma (x.extractLsb' 18 1) (x.extractLsb' 14 4) (x.extractLsb' 9 3) (x.extractLsb' 4 3) (x.extractLsb' 2 2) (x.extractLsb' 0 2)) else none
  | 0x61 => if x &&& 0x03180#19 = 0x00000#19 then some (.mmaz (x.extractLsb' 18 1) (x.extractLsb' 14 4) (x.extractLsb' 9 3) (x.extractLsb' 4 3) (x.extractLsb' 2 2) (x.extractLsb' 0 2)) else none
  | 0x62 => some (.scac (x.extractLsb' 14 5) (x.extractLsb' 9 5) (x.extractLsb' 4 5) (x.extractLsb' 3 1) (x.extractLsb' 0 3))
  | 0x63 => some (.scacz (x.extractLsb' 14 5) (x.extractLsb' 9 5) (x.extractLsb' 4 5) (x.extractLsb' 3 1) (x.extractLsb' 0 3))
  | 0x64 => if x &&& 0x001CF#19 = 0x00000#19 then some (.accrd (x.extractLsb' 14 5) (x.extractLsb' 9 5) (x.extractLsb' 5 1) (x.extractLsb' 4 1)) else none
  | 0x65 => if x &&& 0x7FFFE#19 = 0x00000#19 then some (.accz (x.extractLsb' 0 1)) else none
  | 0x66 => some (.mts (x.extractLsb' 18 1) (x.extractLsb' 14 4) (x.extractLsb' 9 5) (x.extractLsb' 0 9))
  | 0x67 => if x &&& 0x6000F#19 = 0x00000#19 then some (.rset (x.extractLsb' 14 3) (x.extractLsb' 9 5) (x.extractLsb' 4 5)) else none
  | 0x68 => if x &&& 0x63E00#19 = 0x00000#19 then some (.radv (x.extractLsb' 14 3) (x.extractLsb' 0 9)) else none
  | 0x69 => if x &&& 0x63E00#19 = 0x00000#19 then some (.rpop (x.extractLsb' 14 3) (x.extractLsb' 0 9)) else none
  | 0x6A => if x &&& 0x0000F#19 = 0x00000#19 then some (.cpy (x.extractLsb' 14 5) (x.extractLsb' 9 5) (x.extractLsb' 4 5)) else if x &&& 0x0000D#19 = 0x00001#19 then some (.cpyHbm (x.extractLsb' 14 5) (x.extractLsb' 9 5) (x.extractLsb' 4 5) (x.extractLsb' 1 1)) else none
  | 0x6B => if x &&& 0x0000E#19 = 0x00000#19 then some (.hget (x.extractLsb' 14 5) (x.extractLsb' 9 5) (x.extractLsb' 4 5) (x.extractLsb' 0 1)) else none
  | 0x6C => if x &&& 0x0000E#19 = 0x00000#19 then some (.hput (x.extractLsb' 14 5) (x.extractLsb' 9 5) (x.extractLsb' 4 5) (x.extractLsb' 0 1)) else none
  | 0x6D => if x &&& 0x0000E#19 = 0x00000#19 then some (.gth (x.extractLsb' 14 5) (x.extractLsb' 9 5) (x.extractLsb' 4 5) (x.extractLsb' 0 1)) else none
  | 0x6E => if x &&& 0x0000E#19 = 0x00000#19 then some (.sct (x.extractLsb' 14 5) (x.extractLsb' 9 5) (x.extractLsb' 4 5) (x.extractLsb' 0 1)) else none
  | 0x6F => if x &&& 0x0000F#19 = 0x00000#19 then some (.xsnd (x.extractLsb' 14 5) (x.extractLsb' 9 5) (x.extractLsb' 4 5)) else none
  | 0x70 => if x &&& 0x0000F#19 = 0x00000#19 then some (.xrcv (x.extractLsb' 14 5) (x.extractLsb' 9 5) (x.extractLsb' 4 5)) else none
  | 0x71 => if x &&& 0x7C1FF#19 = 0x00000#19 then some (.fput (x.extractLsb' 9 5)) else none
  | 0x72 => if x &&& 0x7C1FF#19 = 0x00000#19 then some (.fget (x.extractLsb' 9 5)) else none
  | 0x73 => if x &&& 0x7C1FF#19 = 0x00000#19 then some (.fatm (x.extractLsb' 9 5)) else none
  | 0x74 => if x &&& 0x7C1FF#19 = 0x00000#19 then some (.fflr (x.extractLsb' 9 5)) else none
  | 0x75 => if x &&& 0x7C1FF#19 = 0x00000#19 then some (.pinj (x.extractLsb' 9 5)) else none
  | 0x76 => if x &&& 0x7C00F#19 = 0x00000#19 then some (.seal (x.extractLsb' 9 5) (x.extractLsb' 4 5)) else none
  | 0x77 => if x &&& 0x7C00F#19 = 0x00000#19 then some (.unseal (x.extractLsb' 9 5) (x.extractLsb' 4 5)) else none
  | 0x78 => if x &&& 0x7C00F#19 = 0x00000#19 then some (.cairn (x.extractLsb' 9 5) (x.extractLsb' 4 5)) else none
  | 0x79 => if x &&& 0x7FFFF#19 = 0x00000#19 then some .ufnc else none
  | 0x7A => if x &&& 0x7C1FF#19 = 0x00000#19 then some (.tblw (x.extractLsb' 9 5)) else none
  | 0x7B => if x &&& 0x0000F#19 = 0x00000#19 then some (.tblr (x.extractLsb' 14 5) (x.extractLsb' 9 5) (x.extractLsb' 4 5)) else none
  | 0x7C => if x &&& 0x7C00E#19 = 0x00000#19 then some (.spld (x.extractLsb' 9 5) (x.extractLsb' 4 5) (x.extractLsb' 0 1)) else none
  | 0x7D => if x &&& 0x401FF#19 = 0x00000#19 then some (.shape (x.extractLsb' 14 4) (x.extractLsb' 9 5)) else none
  | 0x80 => some (.vaddF32 (x.extractLsb' 14 5) (x.extractLsb' 9 5) (x.extractLsb' 4 5) (x.extractLsb' 2 2) (x.extractLsb' 0 2))
  | 0x81 => some (.vsubF32 (x.extractLsb' 14 5) (x.extractLsb' 9 5) (x.extractLsb' 4 5) (x.extractLsb' 2 2) (x.extractLsb' 0 2))
  | 0x82 => some (.vmulF32 (x.extractLsb' 14 5) (x.extractLsb' 9 5) (x.extractLsb' 4 5) (x.extractLsb' 2 2) (x.extractLsb' 0 2))
  | 0x83 => some (.vfmaF32 (x.extractLsb' 14 5) (x.extractLsb' 9 5) (x.extractLsb' 4 5) (x.extractLsb' 2 2) (x.extractLsb' 0 2))
  | 0x84 => some (.vfmsF32 (x.extractLsb' 14 5) (x.extractLsb' 9 5) (x.extractLsb' 4 5) (x.extractLsb' 2 2) (x.extractLsb' 0 2))
  | 0x85 => some (.vminF32 (x.extractLsb' 14 5) (x.extractLsb' 9 5) (x.extractLsb' 4 5) (x.extractLsb' 2 2) (x.extractLsb' 0 2))
  | 0x86 => some (.vmaxF32 (x.extractLsb' 14 5) (x.extractLsb' 9 5) (x.extractLsb' 4 5) (x.extractLsb' 2 2) (x.extractLsb' 0 2))
  | 0x87 => some (.vminpF32 (x.extractLsb' 14 5) (x.extractLsb' 9 5) (x.extractLsb' 4 5) (x.extractLsb' 2 2) (x.extractLsb' 0 2))
  | 0x88 => some (.vmaxpF32 (x.extractLsb' 14 5) (x.extractLsb' 9 5) (x.extractLsb' 4 5) (x.extractLsb' 2 2) (x.extractLsb' 0 2))
  | 0x89 => if x &&& 0x001F0#19 = 0x00000#19 then some (.vabsF32 (x.extractLsb' 14 5) (x.extractLsb' 9 5) (x.extractLsb' 2 2) (x.extractLsb' 0 2)) else none
  | 0x8A => if x &&& 0x001F0#19 = 0x00000#19 then some (.vnegF32 (x.extractLsb' 14 5) (x.extractLsb' 9 5) (x.extractLsb' 2 2) (x.extractLsb' 0 2)) else none
  | 0x8B => some (.vcmpF32 (x.extractLsb' 14 5) (x.extractLsb' 9 5) (x.extractLsb' 4 5) (x.extractLsb' 2 2) (x.extractLsb' 0 2))
  | 0x8C => some (.vaddBf16 (x.extractLsb' 14 5) (x.extractLsb' 9 5) (x.extractLsb' 4 5) (x.extractLsb' 2 2) (x.extractLsb' 0 2))
  | 0x8D => some (.vmulBf16 (x.extractLsb' 14 5) (x.extractLsb' 9 5) (x.extractLsb' 4 5) (x.extractLsb' 2 2) (x.extractLsb' 0 2))
  | 0x8E => some (.vfmaBf16 (x.extractLsb' 14 5) (x.extractLsb' 9 5) (x.extractLsb' 4 5) (x.extractLsb' 2 2) (x.extractLsb' 0 2))
  | 0x8F => some (.vminBf16 (x.extractLsb' 14 5) (x.extractLsb' 9 5) (x.extractLsb' 4 5) (x.extractLsb' 2 2) (x.extractLsb' 0 2))
  | 0x90 => some (.vmaxBf16 (x.extractLsb' 14 5) (x.extractLsb' 9 5) (x.extractLsb' 4 5) (x.extractLsb' 2 2) (x.extractLsb' 0 2))
  | 0x91 => some (.vaddI32 (x.extractLsb' 14 5) (x.extractLsb' 9 5) (x.extractLsb' 4 5) (x.extractLsb' 2 2) (x.extractLsb' 0 2))
  | 0x92 => some (.vsubI32 (x.extractLsb' 14 5) (x.extractLsb' 9 5) (x.extractLsb' 4 5) (x.extractLsb' 2 2) (x.extractLsb' 0 2))
  | 0x93 => some (.vmulI32 (x.extractLsb' 14 5) (x.extractLsb' 9 5) (x.extractLsb' 4 5) (x.extractLsb' 2 2) (x.extractLsb' 0 2))
  | 0x94 => some (.vminS32 (x.extractLsb' 14 5) (x.extractLsb' 9 5) (x.extractLsb' 4 5) (x.extractLsb' 2 2) (x.extractLsb' 0 2))
  | 0x95 => some (.vmaxS32 (x.extractLsb' 14 5) (x.extractLsb' 9 5) (x.extractLsb' 4 5) (x.extractLsb' 2 2) (x.extractLsb' 0 2))
  | 0x96 => some (.vminZ32 (x.extractLsb' 14 5) (x.extractLsb' 9 5) (x.extractLsb' 4 5) (x.extractLsb' 2 2) (x.extractLsb' 0 2))
  | 0x97 => some (.vmaxZ32 (x.extractLsb' 14 5) (x.extractLsb' 9 5) (x.extractLsb' 4 5) (x.extractLsb' 2 2) (x.extractLsb' 0 2))
  | 0x98 => some (.vaddI16 (x.extractLsb' 14 5) (x.extractLsb' 9 5) (x.extractLsb' 4 5) (x.extractLsb' 2 2) (x.extractLsb' 0 2))
  | 0x99 => some (.vsubI16 (x.extractLsb' 14 5) (x.extractLsb' 9 5) (x.extractLsb' 4 5) (x.extractLsb' 2 2) (x.extractLsb' 0 2))
  | 0x9A => some (.vaddsS16 (x.extractLsb' 14 5) (x.extractLsb' 9 5) (x.extractLsb' 4 5) (x.extractLsb' 2 2) (x.extractLsb' 0 2))
  | 0x9B => some (.vmulI16 (x.extractLsb' 14 5) (x.extractLsb' 9 5) (x.extractLsb' 4 5) (x.extractLsb' 2 2) (x.extractLsb' 0 2))
  | 0x9C => some (.vaddI8 (x.extractLsb' 14 5) (x.extractLsb' 9 5) (x.extractLsb' 4 5) (x.extractLsb' 2 2) (x.extractLsb' 0 2))
  | 0x9D => some (.vsubI8 (x.extractLsb' 14 5) (x.extractLsb' 9 5) (x.extractLsb' 4 5) (x.extractLsb' 2 2) (x.extractLsb' 0 2))
  | 0x9E => some (.vaddsS8 (x.extractLsb' 14 5) (x.extractLsb' 9 5) (x.extractLsb' 4 5) (x.extractLsb' 2 2) (x.extractLsb' 0 2))
  | 0x9F => some (.vaddsZ8 (x.extractLsb' 14 5) (x.extractLsb' 9 5) (x.extractLsb' 4 5) (x.extractLsb' 2 2) (x.extractLsb' 0 2))
  | 0xA0 => some (.vand (x.extractLsb' 14 5) (x.extractLsb' 9 5) (x.extractLsb' 4 5) (x.extractLsb' 2 2) (x.extractLsb' 0 2))
  | 0xA1 => some (.vor (x.extractLsb' 14 5) (x.extractLsb' 9 5) (x.extractLsb' 4 5) (x.extractLsb' 2 2) (x.extractLsb' 0 2))
  | 0xA2 => some (.vxor (x.extractLsb' 14 5) (x.extractLsb' 9 5) (x.extractLsb' 4 5) (x.extractLsb' 2 2) (x.extractLsb' 0 2))
  | 0xA3 => some (.vandn (x.extractLsb' 14 5) (x.extractLsb' 9 5) (x.extractLsb' 4 5) (x.extractLsb' 2 2) (x.extractLsb' 0 2))
  | 0xA4 => if x &&& 0x03800#19 = 0x00000#19 then some (.vshl (x.extractLsb' 14 5) (x.extractLsb' 9 2) (x.extractLsb' 4 5) (x.extractLsb' 2 2) (x.extractLsb' 0 2)) else none
  | 0xA5 => if x &&& 0x03800#19 = 0x00000#19 then some (.vshr (x.extractLsb' 14 5) (x.extractLsb' 9 2) (x.extractLsb' 4 5) (x.extractLsb' 2 2) (x.extractLsb' 0 2)) else none
  | 0xA6 => if x &&& 0x03800#19 = 0x00000#19 then some (.vsra (x.extractLsb' 14 5) (x.extractLsb' 9 2) (x.extractLsb' 4 5) (x.extractLsb' 2 2) (x.extractLsb' 0 2)) else none
  | 0xA7 => if x &&& 0x03800#19 = 0x00000#19 then some (.vrot (x.extractLsb' 14 5) (x.extractLsb' 9 2) (x.extractLsb' 4 5) (x.extractLsb' 2 2) (x.extractLsb' 0 2)) else none
  | 0xA8 => some (.vshli (x.extractLsb' 14 5) (x.extractLsb' 12 2) (x.extractLsb' 9 3) (x.extractLsb' 4 5) (x.extractLsb' 2 2) (x.extractLsb' 0 2))
  | 0xA9 => some (.vshri (x.extractLsb' 14 5) (x.extractLsb' 12 2) (x.extractLsb' 9 3) (x.extractLsb' 4 5) (x.extractLsb' 2 2) (x.extractLsb' 0 2))
  | 0xAA => some (.vsrai (x.extractLsb' 14 5) (x.extractLsb' 12 2) (x.extractLsb' 9 3) (x.extractLsb' 4 5) (x.extractLsb' 2 2) (x.extractLsb' 0 2))
  | 0xAB => some (.vsel (x.extractLsb' 14 5) (x.extractLsb' 9 5) (x.extractLsb' 4 5) (x.extractLsb' 2 2) (x.extractLsb' 0 2))
  | 0xAC => if x &&& 0x001F0#19 = 0x00000#19 then some (.vmov (x.extractLsb' 14 5) (x.extractLsb' 9 5) (x.extractLsb' 2 2) (x.extractLsb' 0 2)) else none
  | 0xAD => if x &&& 0x001C0#19 = 0x00000#19 then some (.vbcst (x.extractLsb' 14 5) (x.extractLsb' 9 5) (x.extractLsb' 4 2) (x.extractLsb' 2 2) (x.extractLsb' 0 2)) else none
  | 0xAE => some (.vext (x.extractLsb' 14 5) (x.extractLsb' 9 5) (x.extractLsb' 4 5) (x.extractLsb' 2 2) (x.extractLsb' 0 2))
  | 0xAF => some (.vins (x.extractLsb' 14 5) (x.extractLsb' 9 5) (x.extractLsb' 4 5) (x.extractLsb' 2 2) (x.extractLsb' 0 2))
  | 0xB0 => if x &&& 0x001C0#19 = 0x00000#19 then some (.viota (x.extractLsb' 14 5) (x.extractLsb' 9 5) (x.extractLsb' 4 2) (x.extractLsb' 2 2) (x.extractLsb' 0 2)) else none
  | 0xB1 => if x &&& 0x001F0#19 = 0x00000#19 then some (.vraddF32 (x.extractLsb' 14 5) (x.extractLsb' 9 5) (x.extractLsb' 2 2) (x.extractLsb' 0 2)) else none
  | 0xB2 => if x &&& 0x001F0#19 = 0x00000#19 then some (.vrmaxF32 (x.extractLsb' 14 5) (x.extractLsb' 9 5) (x.extractLsb' 2 2) (x.extractLsb' 0 2)) else none
  | 0xB3 => if x &&& 0x001F0#19 = 0x00000#19 then some (.vraddI32 (x.extractLsb' 14 5) (x.extractLsb' 9 5) (x.extractLsb' 2 2) (x.extractLsb' 0 2)) else none
  | 0xB4 => some (.vdotBf16 (x.extractLsb' 14 5) (x.extractLsb' 9 5) (x.extractLsb' 4 5) (x.extractLsb' 2 2) (x.extractLsb' 0 2))
  | 0xB5 => some (.vcmpi (x.extractLsb' 14 5) (x.extractLsb' 9 5) (x.extractLsb' 4 5) (x.extractLsb' 2 2) (x.extractLsb' 0 2))
  | 0xB6 => if x &&& 0x001C0#19 = 0x00000#19 then some (.vcnt (x.extractLsb' 14 5) (x.extractLsb' 9 5) (x.extractLsb' 4 2) (x.extractLsb' 2 2) (x.extractLsb' 0 2)) else none
  | 0xB7 => if x &&& 0x001C0#19 = 0x00000#19 then some (.vclz (x.extractLsb' 14 5) (x.extractLsb' 9 5) (x.extractLsb' 4 2) (x.extractLsb' 2 2) (x.extractLsb' 0 2)) else none
  | 0xB8 => if x &&& 0x00100#19 = 0x00000#19 then some (.vmaskp (x.extractLsb' 14 5) (x.extractLsb' 9 5) (x.extractLsb' 7 1) (x.extractLsb' 6 1) (x.extractLsb' 4 2) (x.extractLsb' 2 2) (x.extractLsb' 0 2)) else none
  | 0xB9 => if x &&& 0x00100#19 = 0x00000#19 then some (.vptom (x.extractLsb' 14 5) (x.extractLsb' 9 5) (x.extractLsb' 6 2) (x.extractLsb' 4 2) (x.extractLsb' 2 2) (x.extractLsb' 0 2)) else none
  | 0xBA => some (.vsclF32 (x.extractLsb' 14 5) (x.extractLsb' 9 5) (x.extractLsb' 4 5) (x.extractLsb' 2 2) (x.extractLsb' 0 2))
  | 0xBB => if x &&& 0x7C000#19 = 0x00000#19 then some (.vchk (x.extractLsb' 9 5) (x.extractLsb' 4 5) (x.extractLsb' 2 2) (x.extractLsb' 0 2)) else none
  | 0xC0 => if x &&& 0x001F0#19 = 0x00000#19 then some (.vrsqe (x.extractLsb' 14 5) (x.extractLsb' 9 5) (x.extractLsb' 2 2) (x.extractLsb' 0 2)) else none
  | 0xC1 => if x &&& 0x001F0#19 = 0x00000#19 then some (.vrcpe (x.extractLsb' 14 5) (x.extractLsb' 9 5) (x.extractLsb' 2 2) (x.extractLsb' 0 2)) else none
  | 0xC2 => if x &&& 0x001F0#19 = 0x00000#19 then some (.vexp2 (x.extractLsb' 14 5) (x.extractLsb' 9 5) (x.extractLsb' 2 2) (x.extractLsb' 0 2)) else none
  | 0xC3 => if x &&& 0x001F0#19 = 0x00000#19 then some (.vlog2 (x.extractLsb' 14 5) (x.extractLsb' 9 5) (x.extractLsb' 2 2) (x.extractLsb' 0 2)) else none
  | 0xC4 => if x &&& 0x001F0#19 = 0x00000#19 then some (.vtanh (x.extractLsb' 14 5) (x.extractLsb' 9 5) (x.extractLsb' 2 2) (x.extractLsb' 0 2)) else none
  | 0xC5 => if x &&& 0x001F0#19 = 0x00000#19 then some (.vsig (x.extractLsb' 14 5) (x.extractLsb' 9 5) (x.extractLsb' 2 2) (x.extractLsb' 0 2)) else none
  | 0xC6 => if x &&& 0x0000F#19 = 0x00008#19 then some (.vshuf (x.extractLsb' 14 5) (x.extractLsb' 10 4) (x.extractLsb' 9 1) (x.extractLsb' 4 5)) else none
  | 0xC7 => some (.vswz (x.extractLsb' 14 5) (x.extractLsb' 9 5) (x.extractLsb' 4 5) (x.extractLsb' 2 2) (x.extractLsb' 0 2))
  | 0xC8 => some (.vrotl (x.extractLsb' 14 5) (x.extractLsb' 9 5) (x.extractLsb' 4 5) (x.extractLsb' 2 2) (x.extractLsb' 0 2))
  | 0xC9 => some (.vcmpr (x.extractLsb' 14 5) (x.extractLsb' 9 5) (x.extractLsb' 4 5) (x.extractLsb' 2 2) (x.extractLsb' 0 2))
  | 0xCA => some (.vexpd (x.extractLsb' 14 5) (x.extractLsb' 9 5) (x.extractLsb' 4 5) (x.extractLsb' 2 2) (x.extractLsb' 0 2))
  | 0xCB => if x &&& 0x00180#19 = 0x00000#19 then some (.vcvtBf16F32 (x.extractLsb' 14 5) (x.extractLsb' 9 5) (x.extractLsb' 4 3) (x.extractLsb' 2 2) (x.extractLsb' 0 2)) else none
  | 0xCC => if x &&& 0x00180#19 = 0x00000#19 then some (.vcvtF32Bf16 (x.extractLsb' 14 5) (x.extractLsb' 9 5) (x.extractLsb' 4 3) (x.extractLsb' 2 2) (x.extractLsb' 0 2)) else none
  | 0xCD => if x &&& 0x00180#19 = 0x00000#19 then some (.vcvtS32F32 (x.extractLsb' 14 5) (x.extractLsb' 9 5) (x.extractLsb' 4 3) (x.extractLsb' 2 2) (x.extractLsb' 0 2)) else none
  | 0xCE => if x &&& 0x00180#19 = 0x00000#19 then some (.vcvtF32S32 (x.extractLsb' 14 5) (x.extractLsb' 9 5) (x.extractLsb' 4 3) (x.extractLsb' 2 2) (x.extractLsb' 0 2)) else none
  | 0xCF => if x &&& 0x00180#19 = 0x00000#19 then some (.vcvtE4m3F32 (x.extractLsb' 14 5) (x.extractLsb' 9 5) (x.extractLsb' 4 3) (x.extractLsb' 2 2) (x.extractLsb' 0 2)) else none
  | 0xD0 => if x &&& 0x00180#19 = 0x00000#19 then some (.vcvtF32E4m3 (x.extractLsb' 14 5) (x.extractLsb' 9 5) (x.extractLsb' 4 3) (x.extractLsb' 2 2) (x.extractLsb' 0 2)) else none
  | 0xD1 => if x &&& 0x00180#19 = 0x00000#19 then some (.vcvtE5m2F32 (x.extractLsb' 14 5) (x.extractLsb' 9 5) (x.extractLsb' 4 3) (x.extractLsb' 2 2) (x.extractLsb' 0 2)) else none
  | 0xD2 => if x &&& 0x00180#19 = 0x00000#19 then some (.vcvtF32E5m2 (x.extractLsb' 14 5) (x.extractLsb' 9 5) (x.extractLsb' 4 3) (x.extractLsb' 2 2) (x.extractLsb' 0 2)) else none
  | 0xD3 => if x &&& 0x00180#19 = 0x00000#19 then some (.vcvtF16F32 (x.extractLsb' 14 5) (x.extractLsb' 9 5) (x.extractLsb' 4 3) (x.extractLsb' 2 2) (x.extractLsb' 0 2)) else none
  | 0xD4 => if x &&& 0x00180#19 = 0x00000#19 then some (.vcvtF32F16 (x.extractLsb' 14 5) (x.extractLsb' 9 5) (x.extractLsb' 4 3) (x.extractLsb' 2 2) (x.extractLsb' 0 2)) else none
  | 0xD5 => if x &&& 0x001CF#19 = 0x00008#19 then some (.qblk (x.extractLsb' 14 5) (x.extractLsb' 9 5) (x.extractLsb' 4 2)) else none
  | 0xD6 => if x &&& 0x001CF#19 = 0x00008#19 then some (.qblkb (x.extractLsb' 14 5) (x.extractLsb' 9 5) (x.extractLsb' 4 2)) else none
  | 0xD7 => if x &&& 0x001CF#19 = 0x00008#19 then some (.dqblk (x.extractLsb' 14 5) (x.extractLsb' 9 5) (x.extractLsb' 4 2)) else none
  | 0xD8 => if x &&& 0x00180#19 = 0x00000#19 then some (.vpack (x.extractLsb' 14 5) (x.extractLsb' 9 5) (x.extractLsb' 4 3) (x.extractLsb' 2 2) (x.extractLsb' 0 2)) else none
  | 0xD9 => if x &&& 0x00180#19 = 0x00000#19 then some (.vunpk (x.extractLsb' 14 5) (x.extractLsb' 9 5) (x.extractLsb' 4 3) (x.extractLsb' 2 2) (x.extractLsb' 0 2)) else none
  | 0xDA => some (.vcnteq (x.extractLsb' 14 5) (x.extractLsb' 9 5) (x.extractLsb' 4 5) (x.extractLsb' 2 2) (x.extractLsb' 0 2))
  | 0xDB => if x &&& 0x001E0#19 = 0x00000#19 then some (.vscan (x.extractLsb' 14 5) (x.extractLsb' 9 5) (x.extractLsb' 4 1) (x.extractLsb' 2 2) (x.extractLsb' 0 2)) else none
  | 0xE0 => some (.aSet (x.extractLsb' 12 7) (x.extractLsb' 10 2) (x.extractLsb' 0 10))
  | 0xE1 => some (.aAdd (x.extractLsb' 12 7) (x.extractLsb' 10 2) (x.extractLsb' 3 7) (x.extractLsb' 1 2) (x.extractLsb' 0 1))
  | 0xE2 => some (.aCopy (x.extractLsb' 12 7) (x.extractLsb' 10 2) (x.extractLsb' 3 7) (x.extractLsb' 1 2) (x.extractLsb' 0 1))
  | 0xE3 => if x &&& 0x00001#19 = 0x00000#19 then some (.aHash (x.extractLsb' 12 7) (x.extractLsb' 10 2) (x.extractLsb' 3 7) (x.extractLsb' 1 2)) else none
  | 0xE4 => some (.aAbsorb (x.extractLsb' 12 7) (x.extractLsb' 10 2) (x.extractLsb' 3 7) (x.extractLsb' 1 2) (x.extractLsb' 0 1))
  | 0xE5 => some (.aCount (x.extractLsb' 12 7) (x.extractLsb' 10 2) (x.extractLsb' 0 10))
  | 0xE6 => if x &&& 0x7FF00#19 = 0x00000#19 then some (.aFwd (x.extractLsb' 6 2) (x.extractLsb' 0 6)) else none
  | 0xE7 => if x &&& 0x7FFFF#19 = 0x00000#19 then some .aRoute else none
  | 0xE8 => if x &&& 0x7FFFF#19 = 0x00000#19 then some .aDrop else none
  | 0xE9 => if x &&& 0x7FC00#19 = 0x00000#19 then some (.aMirror (x.extractLsb' 0 10)) else none
  | 0xEA => some (.aMeter (x.extractLsb' 12 7) (x.extractLsb' 10 2) (x.extractLsb' 3 7) (x.extractLsb' 1 2) (x.extractLsb' 0 1))
  | 0xEB => some (.aRegadd (x.extractLsb' 12 7) (x.extractLsb' 10 2) (x.extractLsb' 3 7) (x.extractLsb' 1 2) (x.extractLsb' 0 1))
  | 0xEC => if x &&& 0x7FC00#19 = 0x00000#19 then some (.aPunt (x.extractLsb' 0 10)) else none
  | 0xED => if x &&& 0x7FC00#19 = 0x00000#19 then some (.aTrunc (x.extractLsb' 0 10)) else none
  | 0xF0 => if x &&& 0x7C000#19 = 0x00000#19 then some (.trap (x.extractLsb' 0 14)) else none
  | 0xF1 => if x &&& 0x7FFFF#19 = 0x00000#19 then some .tret else none
  | 0xF2 => if x &&& 0x001FF#19 = 0x00000#19 then some (.assay (x.extractLsb' 14 5) (x.extractLsb' 9 5)) else none
  | 0xF3 => if x &&& 0x7FFFF#19 = 0x00000#19 then some .halt else none
  | 0xF4 => if x &&& 0x7FFFF#19 = 0x00000#19 then some .bar else none
  | 0xF5 => if x &&& 0x7FFFF#19 = 0x00000#19 then some .pitch else none
  | 0xF6 => if x &&& 0x7C00E#19 = 0x00000#19 then some (.wait (x.extractLsb' 9 5) (x.extractLsb' 4 5) (x.extractLsb' 0 1)) else none
  | 0xF7 => if x &&& 0x0000C#19 = 0x00000#19 then some (.cnt (x.extractLsb' 14 5) (x.extractLsb' 9 5) (x.extractLsb' 4 5) (x.extractLsb' 0 2)) else none
  | _ => none

/-- The slot that a word stands for: the opcode is judged first (check 8), then the operand bits (check 11). -/
def decodeSlot (w : Word) : Except DecodeError Slot :=
  if opcodeDefined (opcodeOf w) then
    match decodeOperands (opcodeOf w) (w.extractLsb' 0 19) with
    | some i => if i.wf then .ok ⟨stopOf w, guardOf w, i⟩ else .error .operandIllegal
    | none => .error .operandIllegal
  else .error .opcodeUndefined

/-- The opcode and operand bits of a slot or action instruction, bits 26..0 (03 R67, R74); events have none. -/
def encodeBody : Instr → BitVec 27
  | .nop => 0x00#8 ++ 0#19
  | .add d a b => 0x01#8 ++ d ++ a ++ b ++ 0#4
  | .addi d a im => 0x02#8 ++ d ++ a ++ im
  | .sub d a b => 0x03#8 ++ d ++ a ++ b ++ 0#4
  | .mul d a b => 0x04#8 ++ d ++ a ++ b ++ 0#4
  | .mulh d a b => 0x05#8 ++ d ++ a ++ b ++ 0#4
  | .mulhz d a b => 0x06#8 ++ d ++ a ++ b ++ 0#4
  | .and d a b => 0x07#8 ++ d ++ a ++ b ++ 0#4
  | .andi d a im => 0x08#8 ++ d ++ a ++ im
  | .or d a b => 0x09#8 ++ d ++ a ++ b ++ 0#4
  | .ori d a im => 0x0A#8 ++ d ++ a ++ im
  | .xor d a b => 0x0B#8 ++ d ++ a ++ b ++ 0#4
  | .xori d a im => 0x0C#8 ++ d ++ a ++ im
  | .shl d a b => 0x0D#8 ++ d ++ a ++ b ++ 0#4
  | .shli d a im => 0x0E#8 ++ d ++ a ++ 0#1 ++ im
  | .shr d a b => 0x0F#8 ++ d ++ a ++ b ++ 0#4
  | .shri d a im => 0x10#8 ++ d ++ a ++ 0#1 ++ im
  | .sra d a b => 0x11#8 ++ d ++ a ++ b ++ 0#4
  | .srai d a im => 0x12#8 ++ d ++ a ++ 0#1 ++ im
  | .rot d a b => 0x13#8 ++ d ++ a ++ b ++ 0#4
  | .roti d a im => 0x14#8 ++ d ++ a ++ 0#1 ++ im
  | .min d a b => 0x15#8 ++ d ++ a ++ b ++ 0#4
  | .max d a b => 0x16#8 ++ d ++ a ++ b ++ 0#4
  | .minz d a b => 0x17#8 ++ d ++ a ++ b ++ 0#4
  | .maxz d a b => 0x18#8 ++ d ++ a ++ b ++ 0#4
  | .abs d a => 0x19#8 ++ d ++ a ++ 0#9
  | .clz d a => 0x1A#8 ++ d ++ a ++ 0#9
  | .popc d a => 0x1B#8 ++ d ++ a ++ 0#9
  | .sxb d a => 0x1C#8 ++ d ++ a ++ 0#9
  | .sxh d a => 0x1D#8 ++ d ++ a ++ 0#9
  | .zxb d a => 0x1E#8 ++ d ++ a ++ 0#9
  | .zxh d a => 0x1F#8 ++ d ++ a ++ 0#9
  | .setl d im => 0x20#8 ++ d ++ im
  | .seth d im => 0x21#8 ++ d ++ im
  | .mov d a f => 0x22#8 ++ d ++ a ++ 0#5 ++ f
  | .movs d a => 0x23#8 ++ d ++ a ++ 0#9
  | .movt d a => 0x24#8 ++ d ++ a ++ 0#9
  | .cmp d a b c n => 0x25#8 ++ d ++ a ++ b ++ c ++ n
  | .cmpi d a n im => 0x26#8 ++ d ++ a ++ n ++ im
  | .cmpz d a b c n => 0x27#8 ++ d ++ a ++ b ++ c ++ n
  | .pand d a b t u v => 0x28#8 ++ d ++ a ++ b ++ 0#1 ++ t ++ u ++ v
  | .por d a b t u v => 0x29#8 ++ d ++ a ++ b ++ 0#1 ++ t ++ u ++ v
  | .pxor d a b t u v => 0x2A#8 ++ d ++ a ++ b ++ 0#1 ++ t ++ u ++ v
  | .pset d a f => 0x2B#8 ++ d ++ a ++ 0#5 ++ f
  | .cadd d a b f => 0x2C#8 ++ d ++ a ++ b ++ f
  | .caddi d a im => 0x2D#8 ++ d ++ a ++ im
  | .cset d im => 0x2E#8 ++ d ++ im
  | .cmov d a f => 0x2F#8 ++ d ++ a ++ 0#5 ++ f
  | .br a im => 0x30#8 ++ 0#5 ++ a ++ im
  | .bri im => 0x31#8 ++ 0#5 ++ im
  | .call d im => 0x32#8 ++ d ++ im
  | .ret a => 0x33#8 ++ 0#5 ++ a ++ 0#9
  | .loop d a im => 0x34#8 ++ d ++ a ++ im
  | .mark => 0x35#8 ++ 0#19
  | .sel d a b f => 0x36#8 ++ d ++ a ++ b ++ f
  | .chk a b f => 0x37#8 ++ 0#5 ++ a ++ b ++ f
  | .ldS8 d a im => 0x40#8 ++ d ++ a ++ im
  | .ldZ8 d a im => 0x41#8 ++ d ++ a ++ im
  | .ldS16 d a im => 0x42#8 ++ d ++ a ++ im
  | .ldZ16 d a im => 0x43#8 ++ d ++ a ++ im
  | .ld32 d a im => 0x44#8 ++ d ++ a ++ im
  | .st8 d a im => 0x45#8 ++ d ++ a ++ im
  | .st16 d a im => 0x46#8 ++ d ++ a ++ im
  | .st32 d a im => 0x47#8 ++ d ++ a ++ im
  | .ld2 d a im => 0x48#8 ++ d ++ a ++ im
  | .st2 d a im => 0x49#8 ++ d ++ a ++ im
  | .ldv d a w h im => 0x4A#8 ++ d ++ a ++ w ++ h ++ im
  | .stv d a w h im => 0x4B#8 ++ d ++ a ++ w ++ h ++ im
  | .ldt d a b => 0x4C#8 ++ d ++ a ++ b ++ 0#4
  | .ldvt d a b w h => 0x4D#8 ++ d ++ a ++ b ++ w ++ h
  | .tld d k b w h => 0x4E#8 ++ d ++ 0#1 ++ k ++ b ++ w ++ h
  | .tst d k b w h => 0x4F#8 ++ d ++ 0#1 ++ k ++ b ++ w ++ h
  | .tldt d k b w h => 0x50#8 ++ d ++ 0#1 ++ k ++ b ++ w ++ h
  | .aadd d a b f => 0x51#8 ++ d ++ a ++ b ++ f
  | .amin d a b f => 0x52#8 ++ d ++ a ++ b ++ f
  | .amax d a b f => 0x53#8 ++ d ++ a ++ b ++ f
  | .aswp d a b f => 0x54#8 ++ d ++ a ++ b ++ f
  | .acas d a b f => 0x55#8 ++ d ++ a ++ b ++ f
  | .afadd d a b f => 0x56#8 ++ d ++ a ++ b ++ f
  | .tagw d a im => 0x57#8 ++ d ++ a ++ im
  | .tagr d a im => 0x58#8 ++ d ++ a ++ im
  | .formr d a im => 0x59#8 ++ d ++ a ++ im
  | .sfnc => 0x5A#8 ++ 0#19
  | .zline a im => 0x5B#8 ++ 0#5 ++ a ++ im
  | .mma e n a b y x => 0x60#8 ++ e ++ n ++ 0#2 ++ a ++ 0#2 ++ b ++ y ++ x
  | .mmaz e n a b y x => 0x61#8 ++ e ++ n ++ 0#2 ++ a ++ 0#2 ++ b ++ y ++ x
  | .scac d a b k j => 0x62#8 ++ d ++ a ++ b ++ k ++ j
  | .scacz d a b k j => 0x63#8 ++ d ++ a ++ b ++ k ++ j
  | .accrd d a k h => 0x64#8 ++ d ++ a ++ 0#3 ++ k ++ h ++ 0#4
  | .accz k => 0x65#8 ++ 0#18 ++ k
  | .mts c e a im => 0x66#8 ++ c ++ e ++ a ++ im
  | .rset q a b => 0x67#8 ++ 0#2 ++ q ++ a ++ b ++ 0#4
  | .radv q im => 0x68#8 ++ 0#2 ++ q ++ 0#5 ++ im
  | .rpop q im => 0x69#8 ++ 0#2 ++ q ++ 0#5 ++ im
  | .cpy d a b => 0x6A#8 ++ d ++ a ++ b ++ 0#4
  | .cpyHbm d a b e => 0x6A#8 ++ d ++ a ++ b ++ 0#2 ++ e ++ 1#1
  | .hget d a b e => 0x6B#8 ++ d ++ a ++ b ++ 0#3 ++ e
  | .hput d a b e => 0x6C#8 ++ d ++ a ++ b ++ 0#3 ++ e
  | .gth d a b e => 0x6D#8 ++ d ++ a ++ b ++ 0#3 ++ e
  | .sct d a b e => 0x6E#8 ++ d ++ a ++ b ++ 0#3 ++ e
  | .xsnd d a b => 0x6F#8 ++ d ++ a ++ b ++ 0#4
  | .xrcv d a b => 0x70#8 ++ d ++ a ++ b ++ 0#4
  | .fput a => 0x71#8 ++ 0#5 ++ a ++ 0#9
  | .fget a => 0x72#8 ++ 0#5 ++ a ++ 0#9
  | .fatm a => 0x73#8 ++ 0#5 ++ a ++ 0#9
  | .fflr a => 0x74#8 ++ 0#5 ++ a ++ 0#9
  | .pinj a => 0x75#8 ++ 0#5 ++ a ++ 0#9
  | .seal a b => 0x76#8 ++ 0#5 ++ a ++ b ++ 0#4
  | .unseal a b => 0x77#8 ++ 0#5 ++ a ++ b ++ 0#4
  | .cairn a b => 0x78#8 ++ 0#5 ++ a ++ b ++ 0#4
  | .ufnc => 0x79#8 ++ 0#19
  | .tblw a => 0x7A#8 ++ 0#5 ++ a ++ 0#9
  | .tblr d a b => 0x7B#8 ++ d ++ a ++ b ++ 0#4
  | .spld a b w => 0x7C#8 ++ 0#5 ++ a ++ b ++ 0#3 ++ w
  | .shape k a => 0x7D#8 ++ 0#1 ++ k ++ a ++ 0#9
  | .vaddF32 d a b w h => 0x80#8 ++ d ++ a ++ b ++ w ++ h
  | .vsubF32 d a b w h => 0x81#8 ++ d ++ a ++ b ++ w ++ h
  | .vmulF32 d a b w h => 0x82#8 ++ d ++ a ++ b ++ w ++ h
  | .vfmaF32 d a b w h => 0x83#8 ++ d ++ a ++ b ++ w ++ h
  | .vfmsF32 d a b w h => 0x84#8 ++ d ++ a ++ b ++ w ++ h
  | .vminF32 d a b w h => 0x85#8 ++ d ++ a ++ b ++ w ++ h
  | .vmaxF32 d a b w h => 0x86#8 ++ d ++ a ++ b ++ w ++ h
  | .vminpF32 d a b w h => 0x87#8 ++ d ++ a ++ b ++ w ++ h
  | .vmaxpF32 d a b w h => 0x88#8 ++ d ++ a ++ b ++ w ++ h
  | .vabsF32 d a w h => 0x89#8 ++ d ++ a ++ 0#5 ++ w ++ h
  | .vnegF32 d a w h => 0x8A#8 ++ d ++ a ++ 0#5 ++ w ++ h
  | .vcmpF32 d a b w h => 0x8B#8 ++ d ++ a ++ b ++ w ++ h
  | .vaddBf16 d a b w h => 0x8C#8 ++ d ++ a ++ b ++ w ++ h
  | .vmulBf16 d a b w h => 0x8D#8 ++ d ++ a ++ b ++ w ++ h
  | .vfmaBf16 d a b w h => 0x8E#8 ++ d ++ a ++ b ++ w ++ h
  | .vminBf16 d a b w h => 0x8F#8 ++ d ++ a ++ b ++ w ++ h
  | .vmaxBf16 d a b w h => 0x90#8 ++ d ++ a ++ b ++ w ++ h
  | .vaddI32 d a b w h => 0x91#8 ++ d ++ a ++ b ++ w ++ h
  | .vsubI32 d a b w h => 0x92#8 ++ d ++ a ++ b ++ w ++ h
  | .vmulI32 d a b w h => 0x93#8 ++ d ++ a ++ b ++ w ++ h
  | .vminS32 d a b w h => 0x94#8 ++ d ++ a ++ b ++ w ++ h
  | .vmaxS32 d a b w h => 0x95#8 ++ d ++ a ++ b ++ w ++ h
  | .vminZ32 d a b w h => 0x96#8 ++ d ++ a ++ b ++ w ++ h
  | .vmaxZ32 d a b w h => 0x97#8 ++ d ++ a ++ b ++ w ++ h
  | .vaddI16 d a b w h => 0x98#8 ++ d ++ a ++ b ++ w ++ h
  | .vsubI16 d a b w h => 0x99#8 ++ d ++ a ++ b ++ w ++ h
  | .vaddsS16 d a b w h => 0x9A#8 ++ d ++ a ++ b ++ w ++ h
  | .vmulI16 d a b w h => 0x9B#8 ++ d ++ a ++ b ++ w ++ h
  | .vaddI8 d a b w h => 0x9C#8 ++ d ++ a ++ b ++ w ++ h
  | .vsubI8 d a b w h => 0x9D#8 ++ d ++ a ++ b ++ w ++ h
  | .vaddsS8 d a b w h => 0x9E#8 ++ d ++ a ++ b ++ w ++ h
  | .vaddsZ8 d a b w h => 0x9F#8 ++ d ++ a ++ b ++ w ++ h
  | .vand d a b w h => 0xA0#8 ++ d ++ a ++ b ++ w ++ h
  | .vor d a b w h => 0xA1#8 ++ d ++ a ++ b ++ w ++ h
  | .vxor d a b w h => 0xA2#8 ++ d ++ a ++ b ++ w ++ h
  | .vandn d a b w h => 0xA3#8 ++ d ++ a ++ b ++ w ++ h
  | .vshl d c b w h => 0xA4#8 ++ d ++ 0#3 ++ c ++ b ++ w ++ h
  | .vshr d c b w h => 0xA5#8 ++ d ++ 0#3 ++ c ++ b ++ w ++ h
  | .vsra d c b w h => 0xA6#8 ++ d ++ 0#3 ++ c ++ b ++ w ++ h
  | .vrot d c b w h => 0xA7#8 ++ d ++ 0#3 ++ c ++ b ++ w ++ h
  | .vshli d c n m w h => 0xA8#8 ++ d ++ c ++ n ++ m ++ w ++ h
  | .vshri d c n m w h => 0xA9#8 ++ d ++ c ++ n ++ m ++ w ++ h
  | .vsrai d c n m w h => 0xAA#8 ++ d ++ c ++ n ++ m ++ w ++ h
  | .vsel d a b w h => 0xAB#8 ++ d ++ a ++ b ++ w ++ h
  | .vmov d a w h => 0xAC#8 ++ d ++ a ++ 0#5 ++ w ++ h
  | .vbcst d a c w h => 0xAD#8 ++ d ++ a ++ 0#3 ++ c ++ w ++ h
  | .vext d a l w h => 0xAE#8 ++ d ++ a ++ l ++ w ++ h
  | .vins d a l w h => 0xAF#8 ++ d ++ a ++ l ++ w ++ h
  | .viota d a c w h => 0xB0#8 ++ d ++ a ++ 0#3 ++ c ++ w ++ h
  | .vraddF32 d a w h => 0xB1#8 ++ d ++ a ++ 0#5 ++ w ++ h
  | .vrmaxF32 d a w h => 0xB2#8 ++ d ++ a ++ 0#5 ++ w ++ h
  | .vraddI32 d a w h => 0xB3#8 ++ d ++ a ++ 0#5 ++ w ++ h
  | .vdotBf16 d a b w h => 0xB4#8 ++ d ++ a ++ b ++ w ++ h
  | .vcmpi d a b w h => 0xB5#8 ++ d ++ a ++ b ++ w ++ h
  | .vcnt d a c w h => 0xB6#8 ++ d ++ a ++ 0#3 ++ c ++ w ++ h
  | .vclz d a c w h => 0xB7#8 ++ d ++ a ++ 0#3 ++ c ++ w ++ h
  | .vmaskp d a k y c w h => 0xB8#8 ++ d ++ a ++ 0#1 ++ k ++ y ++ c ++ w ++ h
  | .vptom d a u c w h => 0xB9#8 ++ d ++ a ++ 0#1 ++ u ++ c ++ w ++ h
  | .vsclF32 d a b w h => 0xBA#8 ++ d ++ a ++ b ++ w ++ h
  | .vchk a b w h => 0xBB#8 ++ 0#5 ++ a ++ b ++ w ++ h
  | .vrsqe d a w h => 0xC0#8 ++ d ++ a ++ 0#5 ++ w ++ h
  | .vrcpe d a w h => 0xC1#8 ++ d ++ a ++ 0#5 ++ w ++ h
  | .vexp2 d a w h => 0xC2#8 ++ d ++ a ++ 0#5 ++ w ++ h
  | .vlog2 d a w h => 0xC3#8 ++ d ++ a ++ 0#5 ++ w ++ h
  | .vtanh d a w h => 0xC4#8 ++ d ++ a ++ 0#5 ++ w ++ h
  | .vsig d a w h => 0xC5#8 ++ d ++ a ++ 0#5 ++ w ++ h
  | .vshuf d p x k => 0xC6#8 ++ d ++ p ++ x ++ k ++ 8#4
  | .vswz d a b w h => 0xC7#8 ++ d ++ a ++ b ++ w ++ h
  | .vrotl d a b w h => 0xC8#8 ++ d ++ a ++ b ++ w ++ h
  | .vcmpr d a b w h => 0xC9#8 ++ d ++ a ++ b ++ w ++ h
  | .vexpd d a b w h => 0xCA#8 ++ d ++ a ++ b ++ w ++ h
  | .vcvtBf16F32 d a r w h => 0xCB#8 ++ d ++ a ++ 0#2 ++ r ++ w ++ h
  | .vcvtF32Bf16 d a r w h => 0xCC#8 ++ d ++ a ++ 0#2 ++ r ++ w ++ h
  | .vcvtS32F32 d a r w h => 0xCD#8 ++ d ++ a ++ 0#2 ++ r ++ w ++ h
  | .vcvtF32S32 d a r w h => 0xCE#8 ++ d ++ a ++ 0#2 ++ r ++ w ++ h
  | .vcvtE4m3F32 d a r w h => 0xCF#8 ++ d ++ a ++ 0#2 ++ r ++ w ++ h
  | .vcvtF32E4m3 d a r w h => 0xD0#8 ++ d ++ a ++ 0#2 ++ r ++ w ++ h
  | .vcvtE5m2F32 d a r w h => 0xD1#8 ++ d ++ a ++ 0#2 ++ r ++ w ++ h
  | .vcvtF32E5m2 d a r w h => 0xD2#8 ++ d ++ a ++ 0#2 ++ r ++ w ++ h
  | .vcvtF16F32 d a r w h => 0xD3#8 ++ d ++ a ++ 0#2 ++ r ++ w ++ h
  | .vcvtF32F16 d a r w h => 0xD4#8 ++ d ++ a ++ 0#2 ++ r ++ w ++ h
  | .qblk d a f => 0xD5#8 ++ d ++ a ++ 0#3 ++ f ++ 8#4
  | .qblkb d a f => 0xD6#8 ++ d ++ a ++ 0#3 ++ f ++ 8#4
  | .dqblk d a f => 0xD7#8 ++ d ++ a ++ 0#3 ++ f ++ 8#4
  | .vpack d a m w h => 0xD8#8 ++ d ++ a ++ 0#2 ++ m ++ w ++ h
  | .vunpk d a m w h => 0xD9#8 ++ d ++ a ++ 0#2 ++ m ++ w ++ h
  | .vcnteq d a b w h => 0xDA#8 ++ d ++ a ++ b ++ w ++ h
  | .vscan d a n w h => 0xDB#8 ++ d ++ a ++ 0#4 ++ n ++ w ++ h
  | .aSet x w im => 0xE0#8 ++ x ++ w ++ im
  | .aAdd x w y v q => 0xE1#8 ++ x ++ w ++ y ++ v ++ q
  | .aCopy x w y v q => 0xE2#8 ++ x ++ w ++ y ++ v ++ q
  | .aHash x w y v => 0xE3#8 ++ x ++ w ++ y ++ v ++ 0#1
  | .aAbsorb x w y v q => 0xE4#8 ++ x ++ w ++ y ++ v ++ q
  | .aCount x w im => 0xE5#8 ++ x ++ w ++ im
  | .aFwd k p => 0xE6#8 ++ 0#11 ++ k ++ p
  | .aRoute => 0xE7#8 ++ 0#19
  | .aDrop => 0xE8#8 ++ 0#19
  | .aMirror im => 0xE9#8 ++ 0#9 ++ im
  | .aMeter x w y v q => 0xEA#8 ++ x ++ w ++ y ++ v ++ q
  | .aRegadd x w y v q => 0xEB#8 ++ x ++ w ++ y ++ v ++ q
  | .aPunt im => 0xEC#8 ++ 0#9 ++ im
  | .aTrunc im => 0xED#8 ++ 0#9 ++ im
  | .trap im => 0xF0#8 ++ 0#5 ++ im
  | .tret => 0xF1#8 ++ 0#19
  | .assay d a => 0xF2#8 ++ d ++ a ++ 0#9
  | .halt => 0xF3#8 ++ 0#19
  | .bar => 0xF4#8 ++ 0#19
  | .pitch => 0xF5#8 ++ 0#19
  | .wait a b c => 0xF6#8 ++ 0#5 ++ a ++ b ++ 0#3 ++ c
  | .cnt d a b m => 0xF7#8 ++ d ++ a ++ b ++ 0#2 ++ m
  | .rollback .. => 0
  | .resultLand .. => 0
  | .contextResume .. => 0
  | .withholdDrain .. => 0
  | .arrivalCounterUpdate .. => 0
  | .contextLaunch .. => 0
  | .barRelease .. => 0
  | .pitchComplete .. => 0
  | .localBoundary .. => 0
  | .pitchStart .. => 0
  | .syncIdle .. => 0
  | .syncReady .. => 0
  | .syncPending .. => 0
  | .syncGo .. => 0
  | .syncStop .. => 0
  | .syncReplay .. => 0
  | .syncLoss .. => 0
  | .goTimeout .. => 0
  | .straggler .. => 0
  | .mmaStart .. => 0
  | .mmaRetire .. => 0
  | .mmaLand .. => 0
  | .foldStart .. => 0
  | .foldComplete .. => 0
  | .localCopyComplete .. => 0
  | .copyEngineComplete .. => 0
  | .xsndDelivery .. => 0
  | .xrcvComplete .. => 0
  | .sealComplete .. => 0
  | .openComplete .. => 0
  | .spldSwitch .. => 0
  | .fabricDepart .. => 0
  | .untimedComplete .. => 0
  | .cairnWrite .. => 0
  | .cairnRetry .. => 0
  | .responseTimeout .. => 0
  | .packetIngress .. => 0
  | .importRequest .. => 0
  | .absorbLineWrite .. => 0
  | .absorbAbandon .. => 0
  | .puntDelivery .. => 0
  | .tableWriteApply .. => 0
  | .packetEgress .. => 0
  | .frameIdle .. => 0
  | .framePacket .. => 0
  | .frameScheduled .. => 0
  | .frameCalibration .. => 0
  | .linkSilenceTimeout .. => 0
  | .linkTrain .. => 0
  | .scheduledDeparture .. => 0
  | .scheduledLanding .. => 0
  | .clusterExchange .. => 0
  | .reductionStep .. => 0
  | .migration .. => 0
  | .rekey .. => 0
  | .admission .. => 0
  | .capture .. => 0
  | .captureEnd .. => 0
  | .restoreRelease .. => 0
  | .domainPartEnd .. => 0
  | .triggerTaskEnd .. => 0
  | .fuseRead .. => 0
  | .nonce .. => 0
  | .debugToken .. => 0
  | .worldCreate .. => 0
  | .worldConfig .. => 0
  | .keyImport .. => 0
  | .imageLoad .. => 0
  | .imageUnload .. => 0
  | .worldReset .. => 0
  | .report .. => 0
  | .extend .. => 0
  | .deploy .. => 0
  | .retire .. => 0
  | .scrubComplete .. => 0
  | .launch .. => 0
  | .ptchg .. => 0
  | .shootw .. => 0
  | .selftGo .. => 0
  | .selftComplete .. => 0
  | .registerWrite .. => 0
  | .functionLevelReset .. => 0
  | .pfFunctionLevelReset => 0
  | .pcieHotReset => 0
  | .powerOn .. => 0
  | .pcieLinkUp => 0
  | .hbmTrain .. => 0
  | .tickCalibration => 0
  | .pipelineReady .. => 0
  | .supplySag => 0
  | .powerFaultReset => 0
  | .tokenRefill => 0
  | .supplyRecovery => 0
  | .syncTick .. => 0
  | .provisioning .. => 0
  | .launchWithdrawal .. => 0

/-- The word of a slot (03 R66). -/
def encodeSlot (sl : Slot) : Word := BitVec.ofBool sl.stop ++ sl.guard ++ encodeBody sl.instr

/-- The word of an instruction in the last slot of a bundle, unguarded. -/
def encode (i : Instr) : Word := encodeSlot ⟨true, 0, i⟩

/-- The instruction that the decoder reads from a word numbered as spec/opcode_table.json numbers it; a slot is one
32-bit word, so the bits above 31 are not part of it. -/
def decodeTableWord (_nbits w : Nat) : Option Instr :=
  match decodeSlot (BitVec.ofNat 32 w) with
  | .ok sl => some sl.instr
  | .error _ => none

/-- The unit positions SA to VD of a core bundle, 0 to 7 (01 R12, 03 R65), at which an opcode may stand (03 R70). -/
def legalPosition (o : BitVec 8) (pos : Nat) : Bool :=
  let n := o.toNat
  if n = 0 then decide (pos < 8)
  else if n ≤ 0x2F ∨ n = 0x36 ∨ n = 0x37 then pos == 0 || pos == 1
  else if n ≤ 0x35 then pos == 0
  else if 0x40 ≤ n ∧ n ≤ 0x5B then pos == 2
  else if 0x60 ≤ n ∧ n ≤ 0x7D then pos == 3
  else if (0x80 ≤ n ∧ n ≤ 0xBB) ∨ (0xC0 ≤ n ∧ n ≤ 0xDB) then decide (4 ≤ pos) && decide (pos ≤ 7)
  else if 0xF0 ≤ n ∧ n ≤ 0xF7 then pos == 0
  else false

/-- The lane groups that a slot counts against the budget of R71: its width by R68 for a vector opcode, else 0. -/
def laneGroups (w : Word) : Nat :=
  let n := (opcodeOf w).toNat
  if (0x80 ≤ n ∧ n ≤ 0xBB) ∨ (0xC0 ≤ n ∧ n ≤ 0xDB) then widthBits (w.extractLsb' 2 2) / 256 else 0

/-- The special-function and shuffle opcodes of the second budget of R71. -/
def isSpecial (w : Word) : Bool :=
  let n := (opcodeOf w).toNat
  decide (0xC0 ≤ n) && decide (n ≤ 0xCA)

end Sys2Proof
end

