-- ==== Sys2Proof/Machine/State.lean ====
section
/-! DEFINITION. The state of one YK9-4608 module as plain data, and the module right after reset. Clusters are
numbered 0..95 over the module, cores 0..47 in a cluster, contexts 0..3 in a core (00 R7); a cluster, core, context,
port or pipeline that no table lists holds its reset value. -/

namespace Sys2Proof.Machine

/-- What stops the machine. No rule of the spec stops the module without a described next state, so the one
fault is about the model's own input queue. -/
inductive Fault where
  /-- Raised by `step` when an input names an object outside the module's ranges (a port above 35, a cluster above
  95): no such event can reach the module. Safe. -/
  | noSuchInput
  deriving DecidableEq, Repr

/-- What the model answers for an instruction it gives no meaning. -/
inductive Refusal where
  /-- An arm of `exec` that has no meaning yet. Safe. -/
  | notModelled (mnemonic : String)
  deriving DecidableEq, Repr

/-- The destination register of a result in flight (01 R26, 04 R87). -/
inductive Dest where
  | s (n : Nat)
  | c (n : Nat)
  | p (n : Nat)
  | v (n : Nat)
  | sr (n : Nat)
  deriving DecidableEq, Repr

/-- A result in flight (01 R26, 04 R101): the bits under `mask` of `dest` take `val` on cycle `due`, and `flags` are
ORed into FST on that cycle (02 R49). `pos` is the unit position that decides collisions. -/
structure Result where
  due : Nat
  issued : Nat
  pos : Nat
  dest : Dest
  mask : Vec
  val : Vec
  flags : Word
  deriving DecidableEq, Repr

/-- Why a context does not issue (01 R37, 13 R305, R307, R317). -/
inductive Status where
  /-- Never launched since the cluster entered its mode (01 R36). -/
  | never
  /-- May issue when the core runs it (01 R38). -/
  | ready
  /-- Its held bundle waits for its condition (01 R37). -/
  | blocked
  /-- It has executed HALT (13 R317). -/
  | halted
  /-- It has issued BAR and waits for the release (13 R305). -/
  | atBar
  /-- It has issued PITCH; the PITCH has completed, and it waits for the next pitch (13 R307). -/
  | atPitch
  | atBoundary
  /-- It raised a fault fatal to its domain and counts as arrived (14 R332). -/
  | faulted
  deriving DecidableEq, Repr

/-- The shadow of a taken transfer (01 R27): it was issued on `issue` and goes to `target`. -/
structure Shadow where
  issue : Nat
  target : Nat
  deriving DecidableEq, Repr

/-- The duplicate register set of a context (04 R100) with its pending landings (14 R324): each lands again its
count of cycles after the belay bundle re-issues. -/
structure CtxDup where
  s : Tbl Word := []
  c : Tbl Word := []
  p : BitVec 16 := 1
  v : Tbl Vec := []
  hvb : Word := 0
  fst : Word := 0
  fmd : Word := 8
  pend : List (Nat × Result) := []
  deriving DecidableEq, Repr

/-- A change that a context of a core made to an arrival counter since its belay (14 R325): CNT.add, a WAIT.c consume, or
a CNT.clr of the amount that stood there. -/
structure CounterChange where
  core : Nat
  ctx : Nat
  counter : Nat
  up : Bool
  amount : Nat
  deriving DecidableEq, Repr

/-- Where an untimed operation stands (10 R235, R236, 09 R227). -/
inductive UntimedPhase where
  /-- In the fabric engine, to depart in issue order. -/
  | queued
  /-- Departed; its effect or its response is awaited. -/
  | departed
  /-- Its effects are over; its completion is to be raised. -/
  | completed
  /-- It has no cairn, and its counter bump is to be made. -/
  | bumpDue
  /-- Its cairn is to be written, after its counter bump. -/
  | cairnDue
  deriving DecidableEq, Repr

/-- An untimed operation by its global core number, context and number. -/
structure OpRef where
  core : Nat
  ctx : Nat
  id : Nat
  deriving DecidableEq, Repr

/-- An entry of a context's untimed queue (10 R235): its kind (10 R241), the descriptor of R223 as read, and its
progress. -/
structure Untimed where
  id : Nat
  kind : Nat
  issued : Nat
  /-- The world on whose behalf it was issued, by which its cairn names its world (10 R241). -/
  world : Nat := 0
  module : Nat := 0
  imp : Nat := 0
  key : Nat := 0
  offset : Nat := 0
  length : Nat := 0
  loc : Nat := 0
  counter : Nat := 0
  bump : Bool := false
  cairn : Bool := false
  irq : Bool := false
  op : Nat := 0
  port : Nat := 0
  handle : Nat := 0
  index : Nat := 0
  /-- Bytes read from the scratchpad so far. -/
  data : List Byte := []
  phase : UntimedPhase := .queued
  status : Nat := 0
  /-- Bytes moved, and bytes whose packets have left the engine. -/
  moved : Nat := 0
  gone : Nat := 0
  /-- Packets still to leave or responses still to arrive, and responses still to be absorbed. -/
  awaiting : Nat := 0
  absorbing : Nat := 0
  /-- Refused at its source, or its table write refused: the cairn is forced (09 R226, R229). -/
  refused : Bool := false
  /-- The base of its context's cairn ring, noted when the operation is parked (14 R346). -/
  ring : Nat := 0
  departTick : Nat := 0
  doneTick : Nat := 0
  deriving DecidableEq, Repr

/-- One hardware context (04 R87, 01 R12). Registers that no list names hold 0. -/
structure Ctx where
  s : Tbl Word := []
  c : Tbl Word := []
  p : BitVec 16 := 1
  v : Tbl Vec := []
  tsr : Word := 0
  tcr : Word := 0
  tva : Word := 0
  hvb : Word := 0
  fst : Word := 0
  fmd : Word := 8
  blp : Word := 0
  status : Status := .never
  /-- Address of the next bundle. -/
  pc : Nat := 0
  /-- Sync base (01 R23); `refc` is the reference cycle of an elastic region (01 R30). -/
  base : Int := 0
  refc : Int := 0
  /-- E of the region's first bundle, and the previous bundle's offset; none at a region's start (01 R24, R30). -/
  regionE : Option Bool := none
  lastOfs : Option Nat := none
  shadow : Option Shadow := none
  /-- No bundle of the context issues before this cycle (01 R34, R38). -/
  notBefore : Nat := 0
  /-- The next bundle was held or blocked, so its sync base becomes r - o when it issues (01 R37, 08 R181). -/
  held : Bool := false
  /-- The guard of the next bundle has been read in serial issue mode (01 R34). -/
  guarded : Bool := false
  /-- Launched or rolled back with no bundle issued since: a context that gets its core later has that cycle as its base (01
  R25). -/
  fresh : Bool := false
  /-- The task requested serial issue (01 R33). -/
  serialTask : Bool := false
  /-- Serial issue: the cycle on which the last bundle that issued did so (01 R34). -/
  lastIssue : Option Nat := none
  flight : List Result := []
  dup : CtxDup := {}
  /-- Cycle on which the last belay was taken, and whether it is implicit: of a launch or a pitch start (14 R326). -/
  belayCycle : Nat := 0
  belayImplicit : Bool := true
  /-- The belay bundle is to re-issue: its pending landings are replayed from that cycle (14 R324). -/
  replaying : Bool := false
  untimed : List Untimed := []
  /-- Untimed operations issued since the belay, and the replay count (10 R237). -/
  issuedSince : List Nat := []
  replay : List Nat := []
  ring : Nat := 0
  /-- Address at which the TRET of a serial-issue trap resumes (14 R327). -/
  resume : Nat := 0
  /-- Address of the last duplication mismatch, and the belays issued since (14 R330): 0 none, 1 the re-issue of the one
  from which its rollback resumed and no other, 2 one in ordinary progress. -/
  dupAddr : Option Nat := none
  dupBelays : Nat := 0
  deriving DecidableEq, Repr

/-- A byte in a withholding-buffer entry: offset in the line, value, age, and whether an SFNC has made it visible to
every class (08 R185, 09 R212). -/
structure WByte where
  off : Nat
  val : Byte
  age : Nat
  vis : Bool := false
  deriving DecidableEq, Repr

/-- An entry of the store-withholding buffer (08 R185). -/
structure WEntry where
  line : Nat
  cls : Nat
  ctx : Nat
  released : Bool
  bytes : List WByte
  deriving DecidableEq, Repr

/-- The SECDED state of a 64-bit word (08 R175 to R177): sound, with a correctable error, uncorrectable and not yet
found, or holding the poison code. -/
inductive WordErr where
  | sound | correctable | uncorrectable | poison
  deriving DecidableEq, Repr

/-- A 64-byte line as engines move it: data, tag, form, and a poison bit per 64-bit word (08 R174, R175). -/
structure Line where
  data : BitVec 512 := 0
  tag : BitVec 12 := 0
  sealed : Bool := false
  poison : BitVec 8 := 0
  deriving DecidableEq, Repr

/-- A ring descriptor (07 R155) and its claim count (07 R156). -/
structure Ring where
  base : Nat := 0
  size : Nat := 0
  tile : Nat := 0
  head : Nat := 0
  count : Nat := 0
  deriving DecidableEq, Repr

/-- A change of per-core state that lands on its own cycle (07 R156, R160, R166, R169, R170, 09 R230). -/
inductive CoreUpdate where
  | ringSet (q : Nat) (r : Ring)
  | ringFill (q n : Nat)
  | ringPop (q n : Nat)
  /-- The pop of a retired MMA, with its claim (07 R160). -/
  | mmaPop (q n : Nat)
  | bankLand (bank : Nat) (rows : List (BitVec 2048)) (poison : BitVec 32) (clearTs : Bool)
  | bankClear (bank : Nat)
  | tsCond (entry : Nat) (bits : BitVec 4) (sat : Nat)
  | tsClear (entry : Nat)
  | shape (k : Nat) (v : BitVec 384)
  | pattern (bank e : Nat) (v : Vec)
  | patternSwitch
  deriving DecidableEq, Repr

/-- A per-core update in flight: its cycle, the cycle and context that issued it. -/
structure Pending where
  due : Nat
  issued : Nat
  ctx : Nat
  upd : CoreUpdate
  deriving DecidableEq, Repr

/-- A line as the anvil or the fold unit reads it: the operand fault that it meets (0 lent bank, 1 sealed line, 2
poisoned word, 07 R163) and its poisoned words. -/
structure OpLine where
  data : BitVec 512
  why : Option Nat
  poison : BitVec 8
  deriving DecidableEq, Repr

/-- An MMA in the anvil (07 R159, R160): the first of the list runs, the second waits. -/
structure Mma where
  ctx : Nat
  issued : Nat
  zero : Bool
  bank : Nat
  qa : Nat
  qb : Nat
  n : Nat
  wa : Nat
  wb : Nat
  /-- Addresses of the A and B tile of each K block. -/
  tiles : List (Nat × Nat)
  /-- The start cycle that its issue fixed, and the one on which it has started. -/
  planned : Nat := 0
  start : Option Nat := none
  /-- The 32 rows being summed, their poison at the start, and the rows that met an operand fault. -/
  rows : List (BitVec 2048) := []
  poison : BitVec 32 := 0
  dead : BitVec 32 := 0
  /-- Lines read so far in the running pass. -/
  stream : List OpLine := []
  /-- Cycles by which a belay that has issued again puts off what the MMA does to per-core state (04 R100). -/
  shift : Nat := 0
  deriving DecidableEq, Repr

/-- A row that a fold has computed: its 64 elements, which are to be written, and the lines left unchanged. -/
structure FoldRow where
  row : Nat
  els : BitVec 2048
  write : BitVec 64
  bad : BitVec 4
  deriving DecidableEq, Repr

/-- A fold in the fold unit (07 R165, R166). -/
structure Fold where
  ctx : Nat
  issued : Nat
  zero : Bool
  bank : Nat
  dst : Nat
  rows : Nat
  sup : Bool
  sa : Nat
  fa : Nat
  sb : Nat
  fb : Nat
  j : Nat
  planned : Nat := 0
  start : Option Nat := none
  snap : List (BitVec 2048) := []
  snapPoison : BitVec 32 := 0
  ea : List Nat := []
  eb : List Nat := []
  /-- Rows computed and waiting for their write cycle, and the conditions met. -/
  out : List FoldRow := []
  bits : BitVec 4 := 0
  /-- Cycles by which its status update is put off, as for an MMA. -/
  shift : Nat := 0
  deriving DecidableEq, Repr

/-- The timed engine commands of R214 to R222 and R230. -/
inductive CmdKind where
  | cpy | hget | hput | cpyHbm | gth | sct | xsnd | xrcv | sealOp | openOp | spld | shape
  deriving DecidableEq, Repr

/-- The state of one 64-byte HBM line: the form bit, the world that last wrote it under protection, the counter that it used and
its MAC, the poison of its words, and 1 + the order of the last timed write (08 R190 to R192, 09 R217, 11 R268). -/
structure HbmLine where
  sealed : Bool := false
  owner : Option Nat := none
  ctr : Nat := 0
  mac : BitVec 56 := 0
  poison : BitVec 8 := 0
  key : Nat := 0
  deriving DecidableEq, Repr

/-- HBM as it stands: what its cells hold, ciphertext in a protected line, and the state of its lines by line number. -/
structure Hbm where
  cells : List Host.Cell := []
  lines : Tbl HbmLine := []
  deriving DecidableEq, Repr

/-- The translation of one 64 KiB page of a segment that a copy command uses (11 R251, R252): the page of the segment,
its frame, whether it is protected, and what the segment and the leaf allow. -/
structure PageMap where
  page : Nat
  frame : Nat
  prot : Bool
  rd : Bool
  wr : Bool
  deriving DecidableEq, Repr

/-- A timed engine command (10 R231, R232): its operands, its cycles and the lines it has read and not yet written. -/
structure Cmd where
  kind : CmdKind
  ctx : Nat
  issued : Nat
  done : Nat
  engine : Nat := 0
  src : Nat := 0
  dst : Nat := 0
  /-- Lines moved (bytes for CPY, rows for GTH and SCT, entries for SPLD). -/
  n : Nat := 0
  /-- The other core of a send or pull, the index list, the seal record, the first entry, the shape record. -/
  other : Nat := 0
  seg : Nat := 0
  tag : BitVec 12 := 0
  /-- W of R215 (of an OPEN: the cycle that it last worked on), and z of R218. -/
  w : Nat := 0
  z : Nat := 0
  sw : Bool := false
  world : Nat := 0
  /-- The place of R190 in the order of timed HBM accesses. -/
  order : Nat := 0
  maps : List PageMap := []
  /-- Indices read so far; none for a poisoned word (09 R218). -/
  idx : List (Option Nat) := []
  /-- HBM as the command's reads meet it. -/
  view : Hbm := {}
  /-- Whether the domain's commands exceed the bound of R216. -/
  late : Bool := false
  buf : List (Nat × Line) := []
  iv : List Byte := []
  /-- The tag check of an OPEN has failed; or the completion of a copy has been made and its entry stays (08 R190). -/
  failed : Bool := false
  /-- Cycles by which what it does to per-core state is put off, as for an MMA. -/
  shift : Nat := 0
  deriving DecidableEq, Repr

/-- A core-side access held (08 R181): its cycle and bank, and the context and issue cycle of the operation. -/
structure Booking where
  due : Nat
  bank : Nat
  ctx : Nat
  issued : Nat
  deriving DecidableEq, Repr

/-- A word, or the metadata field of a line, whose correction waits for the bank's side port (08 R176); `ready` from the
cycle after the read on. -/
structure Fix where
  field : Bool
  num : Nat
  ready : Bool := false
  deriving DecidableEq, Repr

/-- The anvil fault record (07 R163) and the context that issued the faulting instruction. -/
structure AnvilFault where
  word : Word
  ctx : Nat
  deriving DecidableEq, Repr

/-- An item of per-core state that carries a last-writer tag (04 R100). -/
inductive Item where
  | bank (n : Nat) | ring (n : Nat) | shape (n : Nat) | patterns (n : Nat) | ts (n : Nat)
  deriving DecidableEq, Repr

/-- The duplicate copy of per-core state (04 R100), with the updates that land again after a rollback. -/
structure CoreDup where
  acc : Tbl (BitVec 2048) := []
  accPoison : Tbl (BitVec 32) := []
  rings : Tbl Ring := []
  shapes : Tbl (BitVec 384) := []
  patterns : Tbl Vec := []
  patSel : Nat := 0
  ts : Tbl Word := []
  writers : List (Item × Nat) := []
  pend : List (Nat × Pending) := []
  deriving DecidableEq, Repr

/-- One core (04 R87, 08 R173): its contexts and the state they share. -/
structure Core where
  ctxs : Tbl Ctx := []
  /-- The context that holds the core; or, where `choosing` names a cycle, the one that blocked or halted on it, with the
  next still to be chosen (01 R38). -/
  running : Nat := 0
  choosing : Option Nat := none
  /-- The running cycle whose drains have been made (08 R185). -/
  drained : Nat := 0
  spad : List Host.Cell := []
  /-- TAG and FORM by line number (08 R174), and the state of the 64-bit words by word number (08 R175). -/
  tags : Tbl (BitVec 12) := []
  forms : Tbl Bool := []
  errs : Tbl WordErr := []
  /-- Metadata fields with a correctable error, by line, and the corrections to be written back (08 R176, R182). -/
  fieldErrs : Tbl Bool := []
  fixes : List Fix := []
  /-- Lent banks: 1 + the pipeline each serves (08 R187, 12 R275). -/
  lent : Tbl Nat := []
  imem : List Host.Cell := []
  /-- The state of the words of instruction memory by word number (08 R188). -/
  imemErrs : Tbl WordErr := []
  wbuf : List WEntry := []
  /-- Core-side accesses held (08 R181). -/
  sched : List Booking := []
  acc : Tbl (BitVec 2048) := []
  accPoison : Tbl (BitVec 32) := []
  rings : Tbl Ring := []
  shapes : Tbl (BitVec 384) := []
  patterns : Tbl Vec := []
  patSel : Nat := 0
  ts : Tbl Word := []
  anvil : List Mma := []
  /-- Retirement and landing still due of MMAs already retired are in `pending`; banks not yet landed (07 R169). -/
  fold : List Fold := []
  cmds : List Cmd := []
  pending : List Pending := []
  afault : Option AnvilFault := none
  sealCtr : BitVec 72 := 0
  collisions : Word := 0
  ceCount : Word := 0
  poisonCount : Word := 0
  stg : Word := 0xB0
  writers : List (Item × Nat) := []
  dup : CoreDup := {}
  /-- Banks that an untimed access has used on the side port: (module cycle, bank) (08 R182). -/
  sideUsed : List (Nat × Nat) := []
  /-- Lines that this cycle's side-port writes, or the LS slot issued on this cycle, changed: as an engine read on this
  cycle still meets them (08 R183, R194). -/
  sideOld : List (Nat × Line) := []
  /-- The words that hold HEAD of rings whose cairn waits for room, and whether HEAD has been written since (10 R242). -/
  heads : List (Nat × Bool) := []
  deriving DecidableEq, Repr

/-- A trigger-table entry (11 R264). -/
structure Trigger where
  flags : Nat := 0
  counter : Nat := 0
  threshold : Nat := 0
  core : Nat := 0
  pending : Nat := 0
  entry : Nat := 0
  hvb : Word := 0
  ring : Nat := 0
  deriving DecidableEq, Repr

/-- A landing-list entry (12 R294). -/
structure Landing where
  base : Nat := 0
  core : Nat := 0
  valid : Bool := false
  bytes : Nat := 0
  deriving DecidableEq, Repr

/-- A translation-buffer entry of a copy engine (11 R252): world, virtual page of 64 KiB or of 32 MiB, its physical
address, and the leaf's permissions. A stale piton serves until its domain's next boundary (11 R254). -/
structure Translation where
  world : Nat
  page : Nat
  phys : Nat
  large : Bool
  write : Bool
  prot : Bool
  pinned : Bool := false
  stale : Bool := false
  deriving DecidableEq, Repr

/-- What a timed side-port access is (08 R182): the write of a cluster send, the source read or the write of a pull, or
an exchange landing. -/
inductive SideKind where
  | send | pullRead | pull | exchange | landing
  deriving DecidableEq, Repr

/-- A timed side-port access to come (08 R182, 09 R219, R220, 15 R353, R354): its cycle, its bank's core and line, the
cycle and core that issued it (the record of an exchange, the port of a landing), the data that a write carries (none marks
the line), and for a read the line it serves (the record of an exchange, which line of its flit a landing is). -/
structure SideAcc where
  due : Nat
  kind : SideKind
  issued : Nat
  source : Nat
  ctx : Nat
  core : Nat
  line : Nat
  data : Option Line := none
  /-- Failure code of the exchange pitch when the write performs. -/
  fail : Option Nat := none
  dst : Nat := 0
  tag : BitVec 12 := 0
  done : Bool := false
  deriving DecidableEq, Repr

/-- What step 3 to 5 of R303 owe on a cycle for a CNT: the selector, its destination and whether it clears. -/
structure CntRead where
  due : Nat
  core : Nat
  ctx : Nat
  sel : Nat
  pos : Nat
  d : Nat
  clear : Bool
  deriving DecidableEq, Repr

/-- A bump due (13 R303): its cycle, counter and amount, the core and context of a CNT.add, and the untimed operation whose
completion it is. -/
structure Bump where
  due : Nat
  counter : Nat
  amount : Nat
  who : Option (Nat × Nat) := none
  op : Option OpRef := none
  deriving DecidableEq, Repr

/-- The kinds of holds (14 R331). -/
inductive HoldKind where
  | correctable | compat | capture | fence
  deriving DecidableEq, Repr

/-- A hold due: it begins when running cycle `after` ends, for `len` cycles (14 R331, 03 R85, 08 R176). -/
structure Hold where
  after : Nat
  len : Nat
  kind : HoldKind
  deriving DecidableEq, Repr

/-- A trap in progress in a cluster (14 R322): who trapped, on which cycle, whether the rollback is still to make,
and the release cycle once TRET has issued. Deferred traps of R164, R306, R311 roll back after the TRET. -/
structure TrapState where
  cycle : Nat
  /-- Cores and contexts whose handler has not ended. -/
  handlers : List (Nat × Nat)
  deferred : Bool := false
  rollbackAt : Option Nat := none
  release : Option Nat := none
  deriving DecidableEq, Repr

/-- One cluster (01 R12, R13). -/
structure Cluster where
  cores : Tbl Core := []
  /-- Running cycles since the cluster was assigned; its low 32 bits are CYC of its cores (04 R90). -/
  run : Nat := 0
  /-- The running cycle with which the domain's current pitch began. -/
  pitchRun : Nat := 0
  /-- Held cycles left of the hold in force, and holds to come (14 R331). -/
  holding : Option Hold := none
  holds : List Hold := []
  trigger : Bool := false
  fenced : Bool := false
  fenceCode : Nat := 0
  world : Nat := 0
  image : Option Nat := none
  /-- The digest of the image that its instruction memory holds, with the rewrites where they are in place (14 R341). -/
  digest : BitVec 256 := 0
  logical : Nat := 0
  counters : Tbl Word := []
  triggers : Tbl Trigger := []
  landings : Tbl Landing := []
  holdCount : Word := 0
  compatCount : Word := 0
  dupCount : Word := 0
  copyErrors : Word := 0
  cairnErrors : Word := 0
  satCount : Word := 0
  tlb0 : List Translation := []
  tlb1 : List Translation := []
  trap : Option TrapState := none
  bumps : List Bump := []
  reads : List CntRead := []
  /-- Changes to arrival counters that a rollback would reverse, oldest first (14 R325). -/
  changes : List CounterChange := []
  /-- The running cycle whose counter update has been made (13 R303). -/
  counted : Nat := 0
  /-- Cycles on which cores arrived at the barrier (13 R305). -/
  arrived : Tbl Nat := []
  barError : Bool := false
  /-- The cluster is held for a capture, or its capture or restore streams until the module cycle given (14 R340). -/
  frozen : Bool := false
  streaming : Option Nat := none
  /-- A page-table change has been signalled: blocked walks are tried again (17 R385). -/
  rewalk : Bool := false
  /-- Copy-engine acceptance on this cycle: (cycle, engine) (10 R232). -/
  accepted : List (Nat × Nat) := []
  /-- Timed side-port accesses to come (08 R182). -/
  side : List SideAcc := []
  deriving DecidableEq, Repr

/-- A world-table entry (11 R260, 17 R387). -/
structure World where
  state : Nat := 0
  flags : Nat := 0
  function : Nat := 0
  pageRoot : Nat := 0
  segments : Nat := 0
  partition : Nat := 0
  clusters : BitVec 96 := 0
  puntCore : Nat := 0
  puntBase : Nat := 0
  puntCounter : Nat := 0
  mgmtCore : Nat := 0
  mgmtBase : Nat := 0
  weight : Nat := 0
  maxPriority : Nat := 0
  depth : Nat := 0
  refill : Nat := 0
  tokens : Nat := 0
  ls : Nat := 0
  hbmShare : Nat := 0
  tickLimit : Nat := 0
  packetWeight : Nat := 0
  ports : BitVec 40 := 0
  meter : BitVec 128 := 0
  /-- Port shares, tick limit and packet weight that take effect at the next window of 256 ticks (17 R387). -/
  nextPorts : Option (BitVec 40 × Nat × Nat) := none
  /-- The partition field has been written (16 R405). -/
  mapped : Bool := false
  deriving DecidableEq, Repr

/-- The keys that the Assay controller holds for a world (16 R369); none is readable by a command. -/
structure Keys where
  pair : Option (BitVec 256) := none
  sectionKey : Option (BitVec 128) := none
  memory : Option (BitVec 256) := none
  sealKey : Option (BitVec 128) := none
  image : Option (BitVec 128) := none
  deriving DecidableEq, Repr

/-- A scrub record of the persistent store (16 R378): the world, the list's address and length in bytes in HBM and its digest, and
the pointer, which advances after every 512 frames; with it the frames of the list as the controller works through them, the
frames done, and whether the record has survived a reset (16 R380). -/
structure Scrub where
  world : Nat
  address : Nat := 0
  length : Nat := 0
  frames : List Nat
  pointer : Nat
  digest : BitVec 256
  done : Nat := 0
  resumed : Bool := false
  deriving DecidableEq, Repr

/-- The Assay controller (16 R366 to R380). -/
structure Assay where
  serving : Bool := false
  fused : Nat := 2
  lifecycle : Nat := 2
  attestKey : Option (BitVec 256) := some Config.attestationKey
  /-- The fused device id and debug authority hash (16 R367). -/
  deviceId : BitVec 64 := Config.deviceId
  authority : BitVec 256 := Config.debugAuthorityHash
  hallmarks : Tbl (BitVec 256) := []
  nonceOut : Option (BitVec 256) := none
  keys : Tbl Keys := []
  queue : List AssayReq := []
  /-- Acceptance sequence number of the next command. -/
  seq : Nat := 1
  debugOpen : Bool := false
  debugScope : Nat := 0
  /-- The digest of the debug token that is being carried out (16 R377). -/
  unlock : Option (BitVec 256) := none
  scrubs : List Scrub := []
  draws : Nat := 0
  deriving DecidableEq, Repr

/-- A loaded image (16 R371, 03 R81): handle, world, header bytes, digests, and its timetable section if any. -/
structure Image where
  handle : Nat
  world : Nat
  header : List Byte
  digest : BitVec 256
  rewritten : Option (BitVec 256) := none
  rtt : List (Nat × Nat) := []
  timetable : List Byte := []
  placement : List Nat := []
  clusters : Nat := 0
  /-- Its timetable has been unloaded at the end of the part that ran it (11 R270). -/
  unloaded : Bool := false
  deriving DecidableEq, Repr

/-- An entry of a launch queue (10 R248). -/
structure LaunchEntry where
  segment : Nat
  offset : Nat
  refused : Bool := false
  /-- A checkpointed task names its image set (10 R248, 14 R338). -/
  restore : Option Nat := none
  deriving DecidableEq, Repr

/-- A task that holds clusters (01 R13, 11 R263). -/
structure Task where
  id : Nat
  world : Nat
  /-- Effective priority at admission, and the level of the launch queue (17 R388, 10 R248). -/
  priority : Nat
  level : Nat
  killable : Bool
  drain : Nat
  image : Nat
  clusters : List Nat
  timetable : Bool
  segment : Nat
  offset : Nat
  admitted : Nat
  /-- A capture or a kill is under way: 0 none, 1 checkpoint, 2 kill, 3 evacuation. -/
  stopping : Nat := 0
  stopAt : Option Nat := none
  /-- Its start vector requests serial issue (01 R33). -/
  serial : Bool := false
  /-- The pre-emption that waits for this task was answered with drain since its last boundary (14 R337). -/
  draining : Bool := false
  /-- The world's HBM share at the admission (17 R387). -/
  share : Nat := 0
  deriving DecidableEq, Repr

/-- Where a domain's part on this module stands (13 R308 to R311). -/
inductive DomainPhase where
  | pitch
  /-- In the col since boundary cycle B. -/
  | col (b : Nat)
  /-- The boundary is in its error phase (13 R311). -/
  | errorPhase
  /-- Stopped at its boundary with a status (13 R310, 14 R332). -/
  | stopped (status : Nat)
  | ended
  deriving DecidableEq, Repr

/-- What a neighbour of the sync tree last sent (13 R309). -/
structure Neighbour where
  port : Nat
  parent : Bool
  ready : Bool := false
  replay : Bool := false
  /-- The status of the REPLAY (14 R335). -/
  status : Nat := 0
  losses : Nat := 0
  /-- Tick of the last sync flit that passed its CRC. -/
  heard : Option Nat := none
  deriving DecidableEq, Repr

/-- A write of a reduction step (15 R361): its running cycle, the core, the address, the bytes and the poison of each of
their 64-bit words. -/
structure StepWrite where
  due : Nat
  core : Nat
  addr : Nat
  bytes : List Byte
  poison : Nat
  deriving DecidableEq, Repr

/-- A domain's part on the module (01 R14, R16, 13 R299, R308). -/
structure Domain where
  id : Nat
  world : Nat
  clusters : List Nat
  image : Nat
  pcn : BitVec 32 := 0
  t0 : Nat := 0
  /-- Module cycle on which the pitch began, and its start tick (13 R302). -/
  startCycle : Nat := 0
  startTick : Nat := 0
  /-- Module cycle from which the straggler timer counts (13 R312, 14 R345). -/
  timerBase : Nat := 0
  dccBase : Nat := 0
  phase : DomainPhase := .pitch
  /-- First failure of the current exchange pitch, and the replays made (14 R334, R336). -/
  failure : Option Nat := none
  replays : Nat := 0
  /-- A fault fatal to the domain waits for the boundary (14 R332). -/
  fatal : Option Nat := none
  /-- Prepass walks still failing: engine, segment, offset page (11 R253). -/
  delayed : List (Nat × Nat × Nat) := []
  readyAt : Nat := 0
  /-- The start tick decided or received (13 R309), and the pitch it starts. -/
  go : Option (Nat × Nat) := none
  neighbours : List Neighbour := []
  startDelay : Nat := 0
  /-- The world's HBM share at the admission (17 R387). -/
  share : Nat := 0
  /-- Image digest and timetable section, as loaded (13 R309, 11 R266). -/
  digest : BitVec 256 := 0
  timetable : List Byte := []
  /-- A GO arrived after its start tick (13 R310). -/
  goLate : Bool := false
  sent : List (Nat × Nat) := []
  /-- Records of the pitch already run: (index, flits or steps done). -/
  done : List (Nat × Nat) := []
  /-- Collectives whose wire overflowed and kind-4 records that a fault has met in the pitch (15 R361, R362). -/
  wireOverflow : List Nat := []
  faulty : List Nat := []
  /-- Writes of reduction steps to come: global core, and running cycle, address, bytes and poison (15 R361). -/
  writes : List StepWrite := []
  /-- STOP to send over the sync tree (13 R310). -/
  stop : Option Nat := none
  deriving DecidableEq, Repr

/-- A scan image set (14 R341): its header fields and the cluster states at the stop cycle, whole; `ended` once its stream has
written it to HBM. -/
structure ImageSet where
  seq : Nat
  kind : Nat
  world : Nat
  status : Nat
  pcn : BitVec 32
  dcc : Nat
  pitchCycles : Nat
  digest : BitVec 256
  stopTick : Nat
  stopCycle : Nat
  sealedSet : Bool
  key : Option (BitVec 128)
  icm : Bool
  rwr : Bool
  stepping : Nat
  clusters : List (Nat × Cluster)
  domain : Option Domain
  task : Option Task
  ended : Bool := false
  /-- It has been restored: the commands that it stores run again (14 R345). -/
  resumed : Bool := false
  deriving DecidableEq, Repr


/-- A restore that streams (14 R345): the image set's number and the module cycle of its release. -/
structure Restore where
  seq : Nat
  cycle : Nat
  clusters : List Nat
  deriving DecidableEq, Repr

/-- An import-table entry (11 R258). -/
structure Import where
  flags : Nat := 0
  exporter : Nat := 0
  importer : Nat := 0
  source : Nat := 0
  segment : Nat := 0
  key : Nat := 0
  base : Nat := 0
  length : Nat := 0
  refusals : Word := 0
  deriving DecidableEq, Repr

/-- A packet (12 R271): its bytes, link class and world; for an injected one, the untimed operation that sent it and
whether it is that operation's last. `sent` counts the flits that have departed, or those by which
it arrived. -/
structure Packet where
  bytes : List Byte
  cls : Nat := 0
  world : Nat := 0
  op : Option OpRef := none
  last : Bool := true
  injected : Bool := false
  sent : Nat := 0
  /-- An imported request that has raised BUSY and waits for its segment (11 R259). -/
  held : Bool := false
  /-- The model's own note of a request's source, which 12 R271's header has no place for: the module, the requesting core, the
  operation and the byte position, which the response names. -/
  origin : Option (Nat × Nat × Nat × Nat) := none
  deriving DecidableEq, Repr

/-- An absorb in a pipeline's absorb buffer (12 R295, R296). -/
structure Absorb where
  id : Nat
  cluster : Nat
  core : Nat
  addr : Nat
  bytes : List Byte
  /-- Bytes handed to bank queues, and lines of them still to be written. -/
  handed : Nat := 0
  queued : Nat := 0
  /-- Tick since which the next line waits. -/
  waiting : Nat := 0
  faulted : Bool := false
  /-- Arrival counter bumped after the last write, and the packet's A.COUNT bumps (cluster, counter, amount). -/
  landing : Option Nat := none
  counts : List (Nat × Nat × Nat) := []
  /-- The packet and its punt header, for reasons 0x3F3 and 0x3F4. -/
  packet : List Byte := []
  header : List Byte := []
  world : Nat := 0
  /-- A response's absorb serves this untimed operation. -/
  op : Option OpRef := none
  deriving DecidableEq, Repr

/-- One line write in a bank's absorb queue (08 R184). -/
structure AbsorbLine where
  pipe : Nat
  absorb : Nat
  addr : Nat
  bytes : List Byte
  deriving DecidableEq, Repr

/-- A packet in a punt queue (10 R243): its punt header, its bytes and the world whose ring takes it; `wrote` is the
module cycle on which its slot was written, before its TAIL. -/
structure Punt where
  header : List Byte
  bytes : List Byte
  world : Nat
  wrote : Option Nat := none
  deriving DecidableEq, Repr

/-- A cairn to be written to a ring (10 R241, R242): the ring's global core number and base, the record's fields (flags but
for bit 0), the function and vector of the interrupt asked for, and the untimed operation whose entry it frees. -/
structure CairnReq where
  core : Nat
  base : Nat
  status : Nat
  kind : Nat
  flags : Nat
  world : Nat
  source : Nat
  order : Nat
  stamp : Nat
  count : Nat
  irq : Option (Nat × Nat) := none
  op : Option OpRef := none
  /-- STALL has been counted; the module cycle on which the record was written. -/
  stalled : Bool := false
  wrote : Option Nat := none
  deriving DecidableEq, Repr

/-- A park record (14 R346): the operations of a captured set that are outstanding, by core and context, and the bumps,
cairns and response bytes of those that have completed since, with the entries that those cairns still hold (10 R242). -/
structure Park where
  seq : Nat
  ops : List (OpRef × Untimed) := []
  held : List (OpRef × Untimed) := []
  bumps : List (Nat × Nat × Nat) := []
  cairns : List CairnReq := []
  responses : List (Nat × Nat × List Byte) := []
  deriving DecidableEq, Repr

/-- A table write waiting to take effect (12 R297). -/
structure TableWrite where
  handle : Nat
  index : Nat
  data : List Byte
  world : Nat
  op : OpRef
  deriving DecidableEq, Repr

/-- A packet between the stages and its disposition (12 R274, R291), with what the disposition needs. -/
structure Disp where
  ready : Nat
  cls : Nat
  edge : Bool
  bytes : List Byte
  hv : List Byte
  world : Nat
  counts : List (Nat × Nat × Nat) := []
  mirrorCls : Nat := 0
  puntStage : Nat := 12
  puntHandle : Nat := 0xFFFFFFFF
  puntWorld : Nat := 0
  origin : Option (Nat × Nat × Nat × Nat) := none
  deriving DecidableEq, Repr

/-- A bundle that a lookup of the current stage applies (12 R284): its slots, its action data and the handle of its
table, and the stage position. -/
structure PktBundle where
  slots : List Word
  data : List Byte
  handle : Nat
  owner : Nat
  pos : Nat
  deriving DecidableEq, Repr

/-- The packet whose stages run (12 R277): its pipeline, bytes and header vector, the stage and the bundles still to be
applied in it, and the bundle in hand. -/
structure PktCtx where
  active : Bool := false
  port : Nat := 0
  edge : Bool := false
  cls : Nat := 0
  world : Nat := 0
  bytes : List Byte := []
  hv : List Byte := List.replicate 128 0
  /-- The stage whose bundles are applied, and the stages whose lookups have been made. -/
  stage : Nat := 0
  looked : Nat := 0
  todo : List PktBundle := []
  bundle : PktBundle := { slots := [], data := [], handle := 0xFFFFFFFF, owner := 0, pos := 0 }
  counts : List (Nat × Nat × Nat) := []
  mirrorCls : Nat := 0
  puntStage : Nat := 12
  puntHandle : Nat := 0xFFFFFFFF
  puntWorld : Nat := 0
  origin : Option (Nat × Nat × Nat × Nat) := none
  /-- The tick of its entry to the parser, READY as it stood then, and the bundles as they stood at its entry into stage 0. -/
  tick : Nat := 0
  ready : Bool := false
  bundles : Tbl (List Byte) := []
  deriving DecidableEq, Repr

/-- A meter's buckets and the tick of its last use (12 R290). -/
structure Meter where
  committed : Nat := 0
  peak : Nat := 0
  last : Nat := 0
  deriving DecidableEq, Repr

/-- One packet pipeline (12 R274 to R290). -/
structure Pipe where
  ready : Bool := false
  parser : Tbl (List Byte) := []
  config : Tbl (List Byte) := []
  ternary : Tbl (List Byte) := []
  defaults : Tbl (List Byte) := []
  bundles : Tbl (List Byte) := []
  owners : Tbl Nat := []
  directory : Tbl Nat := []
  /-- Packets whose stages are under way, oldest first (12 R274). -/
  staged : List PktCtx := []
  flight : List Disp := []
  absorbs : List Absorb := []
  nextId : Nat := 0
  punts : List Punt := []
  injected : List Packet := []
  writes : List TableWrite := []
  /-- Tick of the last parser entry. -/
  lastEntry : Option Nat := none
  meters : Tbl Meter := []
  unclaimed : Word := 0
  hopLimit : Word := 0
  puntDrops : Word := 0
  deriving DecidableEq, Repr

/-- A packet flit held for sending or resending (10 R247, 15 R356). -/
structure Flit where
  seq : Nat
  cls : Nat
  sop : Bool
  eop : Bool
  bytes : List Byte
  deriving DecidableEq, Repr

/-- A scheduled flit that has been read and waits for its tick (15 R351, R352): its 128 bytes, a byte with the form bits of
its two lines and two bytes with their poison bits, and whether its CRC is to be inverted. -/
structure Departing where
  tick : Nat
  bytes : List Byte
  bad : Bool
  deriving DecidableEq, Repr

/-- A scheduled flit in a port's landing buffer (15 R353), or none where its CRC failed: its 128 bytes, a byte with the form
bits of its two lines and two bytes with their poison bits. -/
structure LandFlit where
  tick : Nat
  bytes : Option (List Byte)
  deriving DecidableEq, Repr

/-- One fabric port (10 R244 to R247, 15 R347 to R357). -/
structure Port where
  edge : Bool := false
  edgeWorld : Nat := 0
  trained : Bool := false
  packetsOnly : Bool := false
  /-- An edge port in its 800 Gb/s form (12 R273). -/
  half : Bool := false
  calibrating : Bool := false
  /-- The link delay, and the delay that the link's first fitting training fixed, 0 before it (15 R349, R350). -/
  delay : Nat := 0
  fixed : Nat := 0
  peer : Nat := 0
  peerPort : Nat := 0
  /-- Whole packets that have arrived and the bytes of the packet that each class is receiving. -/
  ingress : List Packet := []
  partials : Tbl (List Byte) := []
  egress : List Packet := []
  /-- Ticks served to each world in the round of R246. -/
  served : Tbl Nat := []
  retry : List Flit := []
  resend : List Flit := []
  nextSeq : Nat := 0
  expected : Nat := 0
  nakDue : Bool := false
  discarding : Bool := false
  lastNak : Option Nat := none
  /-- Flits of ingress room that the peer has granted by class, and flits freed here and not yet returned. -/
  credits : Tbl Nat := []
  owed : Tbl Nat := []
  /-- The tick of the last advance of the acknowledgement received, and the replays since. -/
  ackTick : Nat := 0
  fruitless : Nat := 0
  landing : List LandFlit := []
  departing : List Departing := []
  /-- Tick of the last frame sent. -/
  sentTick : Option Nat := none
  imports : List Packet := []
  drops : Word := 0
  importErrors : Word := 0
  replays : Word := 0
  crcFails : Word := 0
  deriving DecidableEq, Repr

/-- One PCIe function's register page and vectors (17 R382, R386). -/
structure Func where
  lstat : Word := 0
  shootVa : BitVec 64 := 0
  shootLen : BitVec 64 := 0
  masked : BitVec 16 := 0xFFFF
  pendingBits : BitVec 16 := 0
  /-- The message address and data of each vector, and whether a function-level reset is under way (17 R389). -/
  msix : Tbl (BitVec 96) := []
  resetting : Bool := false
  /-- The bytes of configuration space that differ from zero (17 R381, R389). -/
  config : Tbl Nat := []
  deriving DecidableEq, Repr

/-- A migration in progress or requested (11 R256). -/
structure Migration where
  req : MigrationReq
  /-- The module cycle of the request. -/
  asked : Nat := 0
  held : Bool := false
  deriving DecidableEq, Repr

/-- A shootdown in progress (11 R254): who asked, the range, and the cycle by which unpinned entries are gone. -/
structure Shootdown where
  world : Nat
  firstPage : Nat
  pages : Nat
  due : Nat
  deriving DecidableEq, Repr

/-- A node of the integrity tree (11 R268): its counters and its MAC, none for a node that nothing has written since the boot that
made the tree. -/
structure Node where
  major : BitVec 64 := 0
  minors : Tbl Nat := []
  mac : Option (BitVec 56) := none
  deriving DecidableEq, Repr

/-- The slot being issued: cluster, core, context, unit position, bundle address, opcode; and what its issue asked
for: a trap taken (cause, TVA), or the bundle to be held or blocked (01 R37, 08 R181). -/
structure Issue where
  g : Nat := 0
  k : Nat := 0
  x : Nat := 0
  pos : Nat := 0
  addr : Nat := 0
  opc : Nat := 0
  /-- Address of the next bundle in program order, and of the first one past the shadow (05 R120). -/
  nextAddr : Nat := 0
  link : Nat := 0
  trapped : Option (Nat × Word) := none
  /-- Uncorrectable words that the issue found (08 R177): they stay poisoned though the bundle faults. -/
  found : List Nat := []
  /-- Pages that the issue asked the walker for: (engine, segment, page) (11 R252). -/
  walks : List (Nat × Nat × Nat) := []
  blocked : Bool := false
  held : Bool := false
  deriving DecidableEq, Repr

/-- The whole module. -/
structure State where
  /-- Core cycles of the module since reset, and the line-tick counter (13 R299, R301). -/
  now : Nat := 0
  tick : BitVec 64 := 0
  moduleId : BitVec 12 := 0
  clusters : Tbl Cluster := []
  hbm : Hbm := {}
  nodes : Tbl Node := []
  /-- Nodes whose rekey is scheduled (11 R269). -/
  rekeys : List Nat := []
  /-- Bytes that timed copies moved lately: (domain or world, cycle, bytes) (09 R216). -/
  moved : List (Nat × Nat × Nat) := []
  worlds : Tbl World := []
  peers : Tbl Nat := []
  imports : Tbl Import := []
  images : List Image := []
  imageSets : List ImageSet := []
  parks : List Park := []
  restores : List Restore := []
  launchQ : Tbl (List LaunchEntry) := []
  tasks : List Task := []
  domains : List Domain := []
  nextTask : Nat := 0
  /-- Admissions of each world in the round of R248. -/
  admitted : Tbl Nat := []
  stopSeq : Nat := 0
  migrations : List Migration := []
  shootdowns : List Shootdown := []
  assay : Assay := {}
  ports : Tbl Port := []
  /-- The port of the timing parent, none on the timing root (15 R349). -/
  clockParent : Option Nat := none
  pipes : Tbl Pipe := []
  absorbQ : Tbl (List AbsorbLine) := []
  cairns : List CairnReq := []
  funcs : Tbl Func := []
  bring : Word := 0
  /-- The steps of bring-up that have completed, by their bits of BRING, recorded there in the order of 17 R390. -/
  bringDone : Word := 0
  bports : BitVec 64 := 0
  selft : Word := 0
  /-- The self-test under way: the cycle on which it finishes, and its cluster (17 R391). -/
  selftDone : Option (Nat × Nat) := none
  sagging : Bool := false
  stretchCount : Word := 0
  stretchEvents : Word := 0
  /-- Core cycles since the last one skipped, and those still to go before the next while a sensor reads low (17 R393). -/
  skipPhase : Nat := 7
  skipWait : Nat := 0
  /-- The clock generator has skipped this tick's core cycle (17 R393). -/
  skipped : Bool := false
  refilled : Nat := 0
  nextUntimed : Nat := 0
  /-- The model's own: inputs from outside with the tick each is due, MSI-X sends (function, vector) and frames sent (port,
  kind, flit), the counter of free values, the slot and the packet in hand, and the action slots to apply. -/
  inputs : List (Nat × Instr) := []
  irqs : List (Nat × Nat) := []
  sent : List (Nat × Nat × List Byte) := []
  fresh : Nat := 0
  cur : Issue := {}
  pkt : PktCtx := {}
  actions : List Word := []
  deriving DecidableEq, Repr

/-- World 0's entry at boot (16 R405). -/
def World.boot : World :=
  { state := 1, flags := 2, function := 0, clusters := BitVec.allOnes 96, weight := 255, maxPriority := 7,
    depth := 65535, refill := 65535, tokens := 65535, packetWeight := 255 }

/-- The module right after reset: before any step of bring-up (17 R390) has completed, with world 0's entry as the
Assay controller sets it at boot (16 R405) and every other item at its reset value. -/
def State.reset : State := { worlds := [(0, World.boot)] }

end Sys2Proof.Machine
end

