-- ==== Sys2Proof/Machine/Ops.lean ====
section
/-! DEFINITION. The shared operations: reading and changing a cluster, core or context; registers (04 R87 to R94);
results in flight (01 R26); the scratchpad, its line state and its withholding buffer (08 R173 to R186); the access
schedule (08 R181); traps and fences (14 R320 to R332); the legality of R21. -/

namespace Sys2Proof.Machine

/-- What a meaning answers. -/
abbrev Out := Host.Outcome State Fault Refusal

/-! ### Codes (14 R320) -/

abbrev codeDone : Nat := 0x00
abbrev codeBundleMalformed : Nat := 0x01
abbrev codeElasticIllegal : Nat := 0x02
abbrev codeOpcodeUndefined : Nat := 0x03
abbrev codeUnitIllegal : Nat := 0x04
abbrev codeBundleIllegal : Nat := 0x05
abbrev codeOperandIllegal : Nat := 0x06
abbrev codeShadowIllegal : Nat := 0x07
abbrev codePhaseIllegal : Nat := 0x08
abbrev codeModeIllegal : Nat := 0x09
abbrev codeContextIllegal : Nat := 0x0A
abbrev codeAddressRange : Nat := 0x0B
abbrev codeMisaligned : Nat := 0x0C
abbrev codeLentBank : Nat := 0x0D
abbrev codeFormSealed : Nat := 0x0E
abbrev codeFormPlainExport : Nat := 0x0F
abbrev codePoison : Nat := 0x10
abbrev codeScheduleFault : Nat := 0x11
abbrev codeTagMismatch : Nat := 0x12
abbrev codeBankConflict : Nat := 0x13
abbrev codeWithholdFull : Nat := 0x14
abbrev codeEngineBusy : Nat := 0x15
abbrev codeRingBusy : Nat := 0x16
abbrev codeRingOverrun : Nat := 0x17
abbrev codeRingUnderrun : Nat := 0x18
abbrev codeAccBusy : Nat := 0x19
abbrev codeDupMismatch : Nat := 0x1A
abbrev codeAnvilOperand : Nat := 0x1B
abbrev codeSoftwareTrap : Nat := 0x1C
abbrev codeTableDenied : Nat := 0x1D
abbrev codeStatusCorrupt : Nat := 0x40
abbrev codeDupHard : Nat := 0x41
abbrev codeFetchUncorrectable : Nat := 0x42
abbrev codeHandlerFault : Nat := 0x43
abbrev codeStraggler : Nat := 0x44
abbrev codeLateDeparture : Nat := 0x45
abbrev codeCollMismatch : Nat := 0x46
abbrev codeReplayLimit : Nat := 0x47
abbrev codeFlitCrc : Nat := 0x48
abbrev codePeerAbsent : Nat := 0x60
abbrev codePeerDown : Nat := 0x61
abbrev codePeerDenied : Nat := 0x62
abbrev codeImportInvalid : Nat := 0x63
abbrev codeImportDenied : Nat := 0x64
abbrev codeKeyMismatch : Nat := 0x65
abbrev codePermDenied : Nat := 0x66
abbrev codeTranslationFault : Nat := 0x67
abbrev codeMigrationAbort : Nat := 0x68
abbrev codePlacementRefused : Nat := 0x70
abbrev codeImageInvalid : Nat := 0x71
abbrev codeImageStepping : Nat := 0x72
abbrev codeStartInvalid : Nat := 0x73
abbrev codeQueueFull : Nat := 0x74
abbrev codePreempted : Nat := 0x75
abbrev codeKilled : Nat := 0x76
abbrev codeDebugPending : Nat := 0x80
abbrev codeDebugUnlock : Nat := 0x81
abbrev codeSignatureInvalid : Nat := 0x82
abbrev codeLifecycleIllegal : Nat := 0x83
abbrev codeNotPermitted : Nat := 0x84
abbrev codeWorldBusy : Nat := 0x85

/-! ### Clusters, cores and contexts -/

def Core.ctx (c : Core) (x : Nat) : Ctx := tget {} c.ctxs x
def Core.modCtx (x : Nat) (f : Ctx → Ctx) (c : Core) : Core := { c with ctxs := tput c.ctxs x (f (c.ctx x)) }
def Cluster.core (c : Cluster) (k : Nat) : Core := tget {} c.cores k
def Cluster.modCore (k : Nat) (f : Core → Core) (c : Cluster) : Cluster :=
  { c with cores := tput c.cores k (f (c.core k)) }
def State.cluster (s : State) (g : Nat) : Cluster := tget {} s.clusters g
def State.modCluster (g : Nat) (f : Cluster → Cluster) (s : State) : State :=
  { s with clusters := tput s.clusters g (f (s.cluster g)) }
def State.core (s : State) (g k : Nat) : Core := (s.cluster g).core k
def State.modCore (g k : Nat) (f : Core → Core) (s : State) : State := s.modCluster g (Cluster.modCore k f)
def State.ctx (s : State) (g k x : Nat) : Ctx := (s.core g k).ctx x
def State.modCtx (g k x : Nat) (f : Ctx → Ctx) (s : State) : State := s.modCore g k (Core.modCtx x f)
def State.world (s : State) (w : Nat) : World := tget {} s.worlds w
def State.modWorld (w : Nat) (f : World → World) (s : State) : State :=
  { s with worlds := tput s.worlds w (f (s.world w)) }
def State.port (s : State) (p : Nat) : Port := tget {} s.ports p
def State.modPort (p : Nat) (f : Port → Port) (s : State) : State := { s with ports := tput s.ports p (f (s.port p)) }
def State.pipe (s : State) (p : Nat) : Pipe := tget {} s.pipes p
def State.modPipe (p : Nat) (f : Pipe → Pipe) (s : State) : State := { s with pipes := tput s.pipes p (f (s.pipe p)) }
def State.func (s : State) (f : Nat) : Func := tget {} s.funcs f
def State.modFunc (n : Nat) (f : Func → Func) (s : State) : State := { s with funcs := tput s.funcs n (f (s.func n)) }

/-- The context, core and cluster of the slot being issued. -/
def State.here (s : State) : Ctx := s.ctx s.cur.g s.cur.k s.cur.x
def State.hereCore (s : State) : Core := s.core s.cur.g s.cur.k
def State.hereCluster (s : State) : Cluster := s.cluster s.cur.g
def State.modHere (f : Ctx → Ctx) (s : State) : State := s.modCtx s.cur.g s.cur.k s.cur.x f
def State.modHereCore (f : Core → Core) (s : State) : State := s.modCore s.cur.g s.cur.k f
def State.modHereCluster (f : Cluster → Cluster) (s : State) : State := s.modCluster s.cur.g f
/-- The running cycle of the slot's cluster. -/
def State.t (s : State) : Nat := s.hereCluster.run

/-- Global core number (00 R7). -/
def gcore (g k : Nat) : Nat := g * 48 + k

/-! ### Registers (04 R87, R88, R90) -/

def Ctx.rs (c : Ctx) (r : Nat) : Word := if r = 0 then 0 else tget 0 c.s r
def Ctx.rc (c : Ctx) (r : Nat) : Word := tget 0 c.c r
def Ctx.rp (c : Ctx) (r : Nat) : Bool := r = 0 || c.p.getLsbD r
def Ctx.rv (c : Ctx) (r : Nat) : Vec := tget 0 c.v r

/-- Register reads of the issuing slot (01 R26): what has landed by the issue cycle. -/
def State.rs (s : State) (r : BitVec 5) : Word := s.here.rs r.toNat
def State.rc (s : State) (r : BitVec 5) : Word := s.here.rc r.toNat
def State.rp (s : State) (r : BitVec 5) : Bool := s.here.rp r.toNat
def State.rv (s : State) (r : BitVec 5) : Vec := s.here.rv r.toNat

/-- The domain whose part on the module holds a cluster (01 R14). -/
def State.domainOf (s : State) (g : Nat) : Option Domain :=
  s.domains.find? (fun d => d.clusters.contains g && d.phase != .ended)

/-- PCN as MOVS reads it: 0 in trigger mode and where no domain runs (04 R90). -/
def State.pcnOf (s : State) (g : Nat) : Word :=
  if (s.cluster g).trigger then 0 else
    match s.domainOf g with
    | some d => d.pcn
    | none => 0

/-- An exchange pitch: timetable mode and an odd PCN (01 R16). -/
def State.inExchange (s : State) (g : Nat) : Bool := !(s.cluster g).trigger && (s.pcnOf g).toNat % 2 == 1

/-- CTX (04 R91). -/
def ctxWord (cl : Cluster) (k x : Nat) : Word :=
  BitVec.ofNat 32 (cl.logical * 512 + k * 8 + (if cl.trigger then 4 else 0) + x)

/-- A special register by its number (04 R90). -/
def State.sr (s : State) (n : Nat) : Word :=
  let c := s.here
  match n with
  | 0 => c.tsr
  | 1 => c.tcr
  | 2 => c.tva
  | 3 => c.hvb
  | 4 => c.fst
  | 5 => c.fmd
  | 6 => ctxWord s.hereCluster s.cur.k s.cur.x
  | 7 => BitVec.ofNat 32 s.hereCluster.world
  | 8 => BitVec.ofNat 32 s.t
  | 9 => s.pcnOf s.cur.g
  | 10 => c.blp
  | 11 => s.hereCore.stg
  | _ => 0

/-- TSR.HND and TSR.SER (04 R92). DESIGN CHOICE (log entry 69): a handler that writes SER 0 into TSR leaves serial issue mode with
that write, since the mode is what TSR records (01 R33), though 01 R33 has it last until the TRET. -/
def Ctx.hnd (c : Ctx) : Bool := c.tsr.getLsbD 4
def Ctx.ser (c : Ctx) : Bool := c.tsr.getLsbD 3

/-! ### Results in flight (01 R26) -/

/-- Bits 31..0 of a vector: the mask of a 32-bit result. -/
def mask32 : Vec := 0xFFFFFFFF

/-- Issues a result that lands `lat` running cycles from now. -/
def State.emit (lat : Nat) (d : Dest) (mask val : Vec) (flags : Word) (s : State) : State :=
  s.modHere fun c => { c with flight := c.flight ++ [⟨s.t + lat, s.t, s.cur.pos, d, mask, val, flags⟩] }

/-- A scalar, coordinate, predicate or special-register result. -/
def State.emitS (lat : Nat) (r : BitVec 5) (v : Word) (s : State) : State :=
  s.emit lat (.s r.toNat) mask32 (v.setWidth 1024) 0
def State.emitC (lat : Nat) (r : BitVec 5) (v : Word) (s : State) : State :=
  s.emit lat (.c r.toNat) mask32 (v.setWidth 1024) 0
def State.emitP (lat : Nat) (r : Nat) (v : Bool) (s : State) : State :=
  s.emit lat (.p r) 1 ((BitVec.ofBool v).setWidth 1024) 0
def State.emitSr (lat : Nat) (r : BitVec 5) (mask v : Word) (s : State) : State :=
  s.emit lat (.sr r.toNat) (mask.setWidth 1024) (v.setWidth 1024) 0

/-- A compatible or A1 core: scratchpad loads have the A1 latency (03 R85, 04 R102). -/
def Core.a1 (c : Core) : Bool := c.stg.getLsbD 8 || c.stg.extractLsb' 0 8 == 0xA1#8

/-- The scratchpad load latency (04 R102). -/
def Core.loadLat (c : Core) : Nat := if c.a1 then 4 else 6

/-- A per-core update that lands `lat` cycles from now (07 R156). -/
def State.update (lat : Nat) (u : CoreUpdate) (s : State) : State :=
  s.modHereCore fun c => { c with pending := c.pending ++ [⟨s.t + lat, s.t, s.cur.x, u⟩] }

/-! ### Scratchpad lines (08 R173 to R179) -/

/-- Bytes in the scratchpad of a core. -/
abbrev spadBytes : Nat := 0x100000

/-- Bytes of instruction memory (08 R188). -/
abbrev imemBytes : Nat := 0x20000

def lineOf (a : Nat) : Nat := a / 64
def wordOf (a : Nat) : Nat := a / 8
def bankOf (a : Nat) : Nat := a / 64 % 32
def bankOfLine (l : Nat) : Nat := l % 32

/-- The lines, and the 64-bit words, that `n` bytes at `a` touch. -/
def linesOf (a n : Nat) : List Nat := (List.range ((a + n - 1) / 64 + 1 - a / 64)).map (fun i => a / 64 + i)
def wordsOf (a n : Nat) : List Nat := (List.range ((a + n - 1) / 8 + 1 - a / 8)).map (fun i => a / 8 + i)

def Core.tag (c : Core) (l : Nat) : BitVec 12 := tget 0 c.tags l
def Core.form (c : Core) (l : Nat) : Bool := tget false c.forms l
def Core.isLent (c : Core) (l : Nat) : Bool := tget 0 c.lent (bankOfLine l) != 0
def Core.err (c : Core) (w : Nat) : WordErr := tget .sound c.errs w
/-- A word that reads as poisoned: it holds the poison code or is uncorrectable (08 R177). -/
def Core.wordPoisoned (c : Core) (w : Nat) : Bool := c.err w == .poison || c.err w == .uncorrectable
/-- POI of a line: the OR of its eight words (08 R175). -/
def Core.poi (c : Core) (l : Nat) : Bool := (List.range 8).any (fun i => c.err (8 * l + i) == .poison)
def Core.setErr (w : Nat) (e : WordErr) (c : Core) : Core := { c with errs := tset .sound c.errs w e }
/-- A read that meets a word: a correctable one is corrected and written back, an uncorrectable one is written with the
poison code; both are counted (08 R176, R177, 13 R299). -/
def Core.meet (w : Nat) (c : Core) : Core :=
  match c.err w with
  | .correctable => { c.setErr w .sound with ceCount := satAdd c.ceCount 1 }
  | .uncorrectable => { c.setErr w .poison with poisonCount := satAdd c.poisonCount 1 }
  | _ => c
def Core.meetAll (ws : List Nat) (c : Core) : Core := ws.foldl (fun c w => c.meet w) c

/-- Asks for a correction to be written back on the next cycle on which the bank's side port is free; one that waits
already is not counted again (08 R176). -/
def Core.askFix (field : Bool) (num : Nat) (c : Core) : Core :=
  if c.fixes.any (fun x => x.field == field && x.num == num) then c
  else { c with fixes := c.fixes ++ [{ field := field, num := num }], ceCount := satAdd c.ceCount 1 }

/-- A word that an engine or the pipeline reads: a correctable error is written back later. -/
def Core.pass (w : Nat) (c : Core) : Core := if c.err w == .correctable then c.askFix false w else c.meet w
def Core.passAll (ws : List Nat) (c : Core) : Core := ws.foldl (fun c w => c.pass w) c
def Core.passLine (l : Nat) (c : Core) : Core := c.passAll ((List.range 8).map (fun i => 8 * l + i))

/-- A metadata field that TAGR or FORMR reads (08 R176). -/
def Core.passField (l : Nat) (c : Core) : Core := if tget false c.fieldErrs l then c.askFix true l else c

/-- Whether a correction still has something to correct, and its line. -/
def Core.needs (c : Core) (x : Fix) : Bool := if x.field then tget false c.fieldErrs x.num else c.err x.num == .correctable
def Fix.line (x : Fix) : Nat := if x.field then x.num else x.num / 8

/-- Writes a correction back. -/
def Core.writeBack (x : Fix) (c : Core) : Core :=
  let c1 := { c with fixes := c.fixes.filter (fun y => y != x) }
  if x.field then { c1 with fieldErrs := tset false c1.fieldErrs x.num false }
  else if c.err x.num == .correctable then c1.setErr x.num .sound else c1

/-- A line of the bank as it stands, without the withholding buffer. -/
def Core.bankLine (c : Core) (l : Nat) : Line :=
  { data := BitVec.ofNat 512 (leNat (Memory.readN c.spad (64 * l) 64))
    tag := c.tag l
    sealed := c.form l
    poison := BitVec.ofNat 8 ((List.range 8).foldl (fun n i => n + if c.wordPoisoned (8 * l + i) then 2 ^ i else 0) 0) }

/-- The bytes of a line. -/
def Line.bytes (l : Line) : List Byte := leBytes 64 l.data.toNat

/-- A line with its data replaced by bytes. -/
def Line.ofBytes (b : List Byte) (tag : BitVec 12) (sealed : Bool) : Line :=
  { data := BitVec.ofNat 512 (leNat b), tag := tag, sealed := sealed }

/-- A line of poison words (08 R177). -/
def Line.poisoned (tag : BitVec 12) : Line := { tag := tag, poison := 0xFF }

/-- Removes the buffered bytes of a range from the withholding buffer: a later bank write stands (08 R185). -/
def dropBuffered (buf : List WEntry) (l lo hi : Nat) : List WEntry :=
  (buf.map fun e => if e.line = l then { e with bytes := e.bytes.filter (fun b => b.off < lo || hi ≤ b.off) } else e).filter
    (fun e => !e.bytes.isEmpty)

/-- Sets or clears the poison of one word with fresh check bits. -/
def Core.setPoison (w : Nat) (b : Bool) (c : Core) : Core := c.setErr w (if b then .poison else .sound)

/-- Notes that HEAD of a ring, bytes 4 to 7 of its word w, has been written in its bank (10 R242). -/
def Core.noteHeads (p : Nat → Bool) (c : Core) : Core := { c with heads := c.heads.map fun h => if p h.1 then (h.1, true) else h }

/-- Watches HEAD of the ring at a base for a write, or watches it no longer. -/
def Core.watchHead (base : Nat) (on : Bool) (c : Core) : Core :=
  { c with heads := c.heads.filter (fun h => h.1 != base / 8) ++ if on then [(base / 8, false)] else [] }

/-- Whether HEAD of the ring at a base has been written since its cairn found no room. -/
def Core.headWritten (c : Core) (base : Nat) : Bool :=
  match c.heads.find? (fun h => h.1 == base / 8) with
  | some h => h.2
  | none => true

/-- Writes a whole line to the bank with its tag, form and poison; buffered bytes that performed before it are
removed (08 R178, R179, R185). -/
def Core.putLine (l : Nat) (x : Line) (c : Core) : Core :=
  let c1 := ((List.range 8).foldl (fun c i => Core.setPoison (8 * l + i) (x.poison.getLsbD i) c) c).noteHeads (fun w => w / 8 == l)
  { c1 with
    spad := Memory.writeN c1.spad (64 * l) x.bytes
    tags := tset 0 c1.tags l x.tag
    forms := tset false c1.forms l x.sealed
    fieldErrs := tset false c1.fieldErrs l false
    wbuf := dropBuffered c1.wbuf l 0 64 }

/-- Writes a whole line's data, form and poison and leaves its tag (08 R178: HGET, plain stores, absorbs). -/
def Core.putLineKeepTag (l : Nat) (x : Line) (c : Core) : Core := c.putLine l { x with tag := c.tag l }

/-- Marks a line with the poisoned tag and writes nothing else (08 R182). -/
def Core.badTag (l : Nat) (c : Core) : Core :=
  { c with tags := tset 0 c.tags l 0xFFF, fieldErrs := tset false c.fieldErrs l false }

/-- Writes bytes of one 64-bit word to the bank: a whole word stores fresh check bits, part of a poisoned word stores
nothing (08 R175). Answers the core and whether the bytes were stored. -/
def Core.writeWord (w : Nat) (bs : List (Nat × Byte)) (c0 : Core) : Core × Bool :=
  let c := if bs.any (fun p => decide (4 ≤ p.1)) then c0.noteHeads (fun v => v == w) else c0
  if 8 ≤ bs.length then
    (Core.setPoison w false { c with spad := bs.foldl (fun m p => Memory.write m (8 * w + p.1) p.2) c.spad }, true)
  else if c.wordPoisoned w then (c.meet w, false)
  else
    ((Core.setErr w .sound { c with spad := bs.foldl (fun m p => Memory.write m (8 * w + p.1) p.2) c.spad }), true)

/-! ### The withholding buffer (08 R185, R196) -/

/-- The youngest buffered byte of line `l` at offset `o` among those that meet a test. -/
def youngest (p : WEntry → WByte → Bool) (buf : List WEntry) (l o : Nat) : Option WByte :=
  buf.foldl (fun best e =>
    if e.line = l then
      e.bytes.foldl (fun (best : Option WByte) b =>
        if b.off = o && p e b then
          match best with
          | some m => if m.age ≤ b.age then some b else best
          | none => some b
        else best) best
    else best) none

/-- A load of class `cls` merges the entries of its class, every released entry and every visible byte
(08 R185, 09 R212). -/
def mergedFor (cls : Nat) (e : WEntry) (b : WByte) : Bool := e.cls == cls || e.released || b.vis

/-- Whether a byte was last written by a held store of another class, so that R196 leaves it open. -/
def Core.openByte (c : Core) (cls a : Nat) : Bool :=
  match youngest (fun _ _ => true) c.wbuf (lineOf a) (a % 64) with
  | none => false
  | some b => !(youngest (mergedFor cls) c.wbuf (lineOf a) (a % 64)).any (fun m => m.age == b.age)

/-- One byte as a load of class `cls` reads it; where R196 leaves it open, the free bit decides. -/
def Core.loadByte (c : Core) (cls : Nat) (free : Bool) (a : Nat) : Byte :=
  if c.openByte cls a && free then
    match youngest (fun _ _ => true) c.wbuf (lineOf a) (a % 64) with
    | some b => b.val
    | none => Memory.read c.spad a
  else
    match youngest (mergedFor cls) c.wbuf (lineOf a) (a % 64) with
    | some b => b.val
    | none => Memory.read c.spad a

/-- A byte as a timed engine's core-side read reads it: the bank merged with every entry (08 R185). -/
def Core.engineByte (c : Core) (a : Nat) : Byte :=
  match youngest (fun _ _ => true) c.wbuf (lineOf a) (a % 64) with
  | some b => b.val
  | none => Memory.read c.spad a

/-- A line as a timed engine's core-side read reads it. -/
def Core.engineLine (c : Core) (l : Nat) : Line :=
  { c.bankLine l with data := BitVec.ofNat 512 (leNat ((List.range 64).map (fun i => c.engineByte (64 * l + i)))) }

/-- A write to the bank of bytes at any addresses, word by word; buffered bytes that performed before it are removed
(08 R175, R185). Answers the core and whether every byte was stored. -/
def Core.bankWrite (ws : List (Nat × Byte)) (c : Core) : Core × Bool :=
  ((ws.map (fun p => p.1 / 8)).eraseDups).foldl (fun (acc : Core × Bool) w =>
    let part := (ws.filter (fun p => p.1 / 8 == w)).map (fun p => (p.1 % 8, p.2))
    let q := acc.1.writeWord w part
    if q.2 then
      ({ q.1 with wbuf := part.foldl (fun b p => dropBuffered b (w / 8) (w % 8 * 8 + p.1) (w % 8 * 8 + p.1 + 1)) q.1.wbuf },
        acc.2)
    else (q.1, false)) (c, true)

/-- Keeps a line as it stands, before a side-port write of this cycle or an access of the LS slot issued on it, for an
engine that starts on its issue cycle (08 R183, R194). -/
def Core.keepOld (l : Nat) (c : Core) : Core :=
  if c.sideOld.any (fun p => p.1 == l) then c else { c with sideOld := (l, c.engineLine l) :: c.sideOld }

/-- The line as an engine read of this cycle meets it. -/
def Core.engineLineOld (c : Core) (l : Nat) : Line :=
  match c.sideOld.find? (fun p => p.1 == l) with
  | some p => p.2
  | none => c.engineLine l

/-- `n` bytes as an engine reads them. -/
def Core.engineBytes (c : Core) (a n : Nat) : List Byte := (List.range n).map (fun i => c.engineByte (a + i))

/-- A side-port write of bytes at `a`: tag and form stand (12 R295, 08 R175). Answers whether every byte was stored. -/
def Core.sideWrite (a : Nat) (bs : List Byte) (c : Core) : Core × Bool :=
  let ws := (List.range bs.length).zip bs |>.map (fun p => (a + p.1, p.2))
  ((linesOf a bs.length).foldl (fun c l => c.keepOld l) c).bankWrite ws

/-- An entry that a store of a context and class may join. DESIGN CHOICE (log entry 51): 08 R185 does not say which stores
share one of the 128 line entries; here those of one line, class, context and release mark do. -/
def joinable (l cls x : Nat) (rel : Bool) (e : WEntry) : Bool :=
  e.line == l && e.cls == cls && e.ctx == x && e.released == rel

/-- Puts one byte into a withholding buffer (08 R185). A byte that an SFNC has made visible stays beside the held one that follows it,
for the loads of the other classes (09 R212). -/
def bufferByte (buf : List WEntry) (cls x : Nat) (rel : Bool) (age a : Nat) (v : Byte) : List WEntry :=
  let l := lineOf a
  let w : WByte := ⟨a % 64, v, age, false⟩
  match takeFirst (joinable l cls x rel) buf with
  | some _ =>
    buf.map fun e =>
      if joinable l cls x rel e then { e with bytes := w :: e.bytes.filter (fun b => b.off != a % 64 || (b.vis && !rel)) } else e
  | none => buf ++ [{ line := l, cls := cls, ctx := x, released := rel, bytes := [w] }]

/-- The age of the youngest byte of a withholding buffer. -/
def topAge (buf : List WEntry) : Nat := buf.foldl (fun n e => e.bytes.foldl (fun n b => max n b.age) n) 0

/-- A store into the withholding buffer; `rel` marks it released at once (08 R186, serial issue mode). -/
def Core.bufferStore (cls x : Nat) (rel : Bool) (ws : List (Nat × Byte)) (c : Core) : Core :=
  { c with
    wbuf := ws.foldl (fun buf p => bufferByte buf cls x rel (topAge c.wbuf + 1) p.1 p.2) c.wbuf }

/-- Whether a store fits in the 128 entries (08 R185). -/
def Core.bufferFits (c : Core) (cls x : Nat) (rel : Bool) (ws : List (Nat × Byte)) : Bool :=
  decide ((c.bufferStore cls x rel ws).wbuf.length ≤ 128) || ws.all (fun p => c.wbuf.any (joinable (lineOf p.1) cls x rel))

/-- Releases the held entries of a context (08 R185, R186). -/
def Core.release (x : Nat) (c : Core) : Core :=
  { c with wbuf := c.wbuf.map fun e => if e.ctx = x then { e with released := true } else e }

/-- Releases every held entry of the core (08 R186: PITCH). -/
def Core.releaseAll (c : Core) : Core := { c with wbuf := c.wbuf.map fun e => { e with released := true } }

/-- The youngest byte of each place of an entry. -/
def WEntry.top (e : WEntry) : List WByte :=
  e.bytes.filter (fun b => !e.bytes.any (fun d => d.off == b.off && decide (b.age < d.age)))

/-- Makes every byte of an entry visible to every class (09 R212). -/
def WEntry.show (e : WEntry) : WEntry := { e with bytes := e.top.map (fun b => { b with vis := true }) }

/-- Writes one entry to its bank; older buffered bytes of the same places are dropped with it (08 R185). -/
def Core.drainEntry (e : WEntry) (c : Core) : Core :=
  let c1 := (List.range 8).foldl (fun c i =>
    let part := e.top.filterMap (fun b => if b.off / 8 = i then some (b.off % 8, b.val) else none)
    if part.isEmpty then c else (c.writeWord (8 * e.line + i) part).1) c
  { c1 with
    wbuf := (c1.wbuf.map fun f =>
        if f.line = e.line then
          { f with bytes := f.bytes.filter (fun b => !e.bytes.any (fun d => d.off == b.off && decide (b.age ≤ d.age))) }
        else f).filter (fun f => !f.bytes.isEmpty) }

/-! ### The access schedule (08 R180, R181) -/

/-- An access schedule: (cycle, line). Two lines of one bank on one cycle conflict. -/
def selfConflict : List (Nat × Nat) → Bool
  | [] => false
  | (t, l) :: r => r.any (fun p => p.1 == t && bankOfLine p.2 == bankOfLine l && p.2 != l) || selfConflict r

/-- Whether a schedule meets one of an earlier-issued operation of the core. -/
def Core.busy (c : Core) (a : List (Nat × Nat)) : Bool :=
  a.any (fun p => c.sched.any (fun b => b.due == p.1 && b.bank == bankOfLine p.2))

/-- Takes a schedule for the slot being issued. -/
def State.bookHere (a : List (Nat × Nat)) (s : State) : State :=
  s.modHereCore fun c => { c with sched := c.sched ++ a.map (fun p => ⟨p.1, bankOfLine p.2, s.cur.x, s.t⟩) }

/-! ### Cairns to a management ring (11 R260, 13 R310, 17 R383, R386) -/

/-- Queues a cairn of kind 9 or 10 about world w for the management ring of world r; base 0 discards it, and so does a
detached ring. -/
def State.mgmtCairnOn (r w kind status stamp count order : Nat) (s : State) : State :=
  let wd := s.world r
  if wd.mgmtBase = 0 then s else
    { s with cairns := s.cairns ++ [{
        core := wd.mgmtCore, base := wd.mgmtBase, status := status, kind := kind,
        flags := 0, world := w, source := 0xFFFF, order := order, stamp := stamp, count := count,
        irq := some (wd.function, if status = codeDone then 0 else 6) }] }

/-- The same for a world's own management ring. -/
def State.mgmtCairn (w kind status stamp count order : Nat) (s : State) : State :=
  s.mgmtCairnOn w w kind status stamp count order

/-! ### Segments and their busy counts (11 R250, R255) -/

/-- A segment entry. -/
structure Segment where
  state : Nat
  rd : Bool
  wr : Bool
  exp : Bool
  tt : Bool
  busy : Nat
  vbase : Nat
  limit : Nat
  deriving DecidableEq, Repr

/-- The physical address of entry `sg` of a world's segment table. -/
def State.segAddr (s : State) (w sg : Nat) : Nat := (s.world w).segments * 65536 + 16 * sg

def State.phys (s : State) (a n : Nat) : Nat := leNat (Memory.readN s.hbm.cells a n)

def State.segment (s : State) (w sg : Nat) : Segment :=
  let v := s.phys (s.segAddr w sg) 16
  { state := bits v 1 0, rd := bits v 2 2 == 1, wr := bits v 3 3 == 1, exp := bits v 4 4 == 1, tt := bits v 5 5 == 1
    busy := bits v 31 16, vbase := bits v 67 32, limit := bits v 119 96 }

/-- Writes bytes of HBM that hold a table of world 0. -/
def State.pokeHbm (a : Nat) (bs : List Byte) (s : State) : State :=
  { s with hbm := { s.hbm with cells := Memory.writeN s.hbm.cells a bs } }

/-- The busy count of a segment rises or falls by 1 (11 R255). -/
def State.addBusy (w sg : Nat) (up : Bool) (s : State) : State :=
  let b := (s.segment w sg).busy
  s.pokeHbm (s.segAddr w sg + 2) (leBytes 2 (if up then b + 1 else b - 1))

/-- The kinds that the copy engines serve. -/
def hbmKinds : List CmdKind := [.hget, .hput, .cpyHbm, .gth, .sct]

/-- Copies that end before they complete lower the busy counts of their segments (11 R255). -/
def State.dropBusy (cs : List Cmd) (s : State) : State :=
  cs.foldl (fun s c => if hbmKinds.contains c.kind && !c.failed then s.addBusy c.world c.seg false else s) s

/-- The timed engine commands of a cluster. -/
def Cluster.allCmds (cl : Cluster) : List Cmd := cl.cores.flatMap (fun p => p.2.cmds)

/-! ### Domains, fences and traps -/

/-- Changes the domains that hold a cluster. -/
def State.modDomainOf (g : Nat) (f : Domain → Domain) (s : State) : State :=
  { s with domains := s.domains.map fun d => if d.clusters.contains g && d.phase != .ended then f d else d }

/-- Changes the domain of a number. -/
def State.modDomain (m : Nat) (f : Domain → Domain) (s : State) : State :=
  { s with domains := s.domains.map fun d => if d.id = m then f d else d }

/-- Records the first failure of the current exchange pitch (14 R334). -/
def State.failPitch (g code : Nat) (s : State) : State :=
  s.modDomainOf g fun d => { d with failure := d.failure.orElse (fun _ => some code) }

/-- Sets the release of a cluster's trap, eight running cycles from now, and its deferred rollback (13 R316). -/
def Cluster.endTrap (back : Bool) (cl : Cluster) : Cluster :=
  { cl with trap := cl.trap.map fun tr =>
      { tr with handlers := [], rollbackAt := if back then some (cl.run + 1) else tr.rollbackAt, release := some (cl.run + 8) } }

/-- Whether a cluster still runs a handler. -/
def Cluster.handling (cl : Cluster) : Bool :=
  match cl.trap with
  | some tr => !tr.handlers.isEmpty
  | none => false

/-- A domain's error phase ends with the last of its handlers: the clusters that ran one roll back, and the boundary is awaited
afresh (13 R311). -/
def State.endPhase (d : Domain) (s : State) : State :=
  if d.phase != .errorPhase || d.clusters.any (fun h => (s.cluster h).handling) then s
  else
    (d.clusters.foldl (fun s h => s.modCluster h fun cl => if cl.trap.isSome then cl.endTrap true else cl) s).modDomain d.id
      fun d => { d with phase := .pitch }

/-- Fences a cluster (14 R332): dispatch stops, commands not yet completed are cancelled, its state is frozen, and
its domain's next col fails with the code; a kind-10 cairn reports it. An error phase goes on without its handlers (13 R311). -/
def State.fence (g code : Nat) (s : State) : State :=
  let s1 := (s.dropBusy (s.cluster g).allCmds).modCluster g fun cl =>
    { cl with
      fenced := true, fenceCode := code, trap := none, holding := none, holds := []
      cores := cl.cores.map fun p => (p.1, { p.2 with cmds := [], anvil := [], fold := [], sched := [] }) }
  let s2 := match s1.domainOf g with
    | some d => (s1.modDomainOf g fun d => { d with fatal := d.fatal.orElse (fun _ => some code) }).endPhase d
    | none => s1
  s2.mgmtCairn (s.cluster g).world 10 code s.tick.toNat 0 0

/-- TSR at trap entry: OPC, PH and POS of the fault, HND and SER set (04 R92). -/
def tsrAtTrap (opc ph pos : Nat) : Word := BitVec.ofNat 32 (opc * 256 + ph * 64 + 16 + 8 + pos)

/-- The setting at a trap (04 R92 PH): compute pitch, exchange pitch or trigger mode. -/
def State.ph (s : State) (g : Nat) : Nat := if (s.cluster g).trigger then 2 else if s.inExchange g then 1 else 0

/-- The handler's bundle address (04 R94). -/
def handlerAddr (hvb : Word) (cause : Nat) : Nat := (hvb.toNat + 64 * cause) % 2 ^ 17

/-- Trap entry of one context (04 R92, 14 R322): TSR, TCR and TVA are written, and its next bundle is the handler's,
from cycle `from` on. -/
def Ctx.enterHandler (cause : Nat) (tva tsr : Word) (hvb : Word) (start : Nat) (c : Ctx) : Ctx :=
  { c with
    tsr := tsr, tcr := BitVec.ofNat 32 cause, tva := tva, status := .ready, pc := handlerAddr hvb cause
    shadow := none, held := false, guarded := false, fresh := false, regionE := none, lastOfs := none, notBefore := start
    lastIssue := none }

/-- The delivery of an anvil fault record in trigger mode (07 R164), at a WAIT, UFNC or HALT: the record is cleared, and the
cluster's rollback waits for the end of the handler. -/
def State.deliverRecord (tva : Word) (s : State) : State :=
  let g := s.cur.g
  let c := s.here
  let s0 := s.modHereCore fun k => { k with afault := none }
  if c.hnd then s0.fence g codeHandlerFault
  else
    let tsr := tsrAtTrap s.cur.opc (s.ph g) s.cur.pos
    let s1 := if c.ser then s0 else s0.modHereCluster fun cl =>
      { cl with trap := some { cycle := s.t, handlers := [(s.cur.k, s.cur.x)], deferred := true } }
    s1.modHere fun c => { c.enterHandler codeAnvilOperand tva tsr c.hvb (s.t + 2) with resume := s.cur.addr }

/-- The entry of a trap at the slot being issued (14 R322, R327, R328, R334): a trap in a handler fences the cluster; a
trap in an exchange pitch fails the pitch, or the domain for PHASE_ILLEGAL and MODE_ILLEGAL (01 R22); a trap in
serial issue mode enters the handler of its context alone; any other stops the cluster, which rolls back on the next
cycle, and enters the handler two cycles from now. -/
def State.enterTrap (cause : Nat) (tva : Word) (s : State) : State :=
  let g := s.cur.g
  let c := s.here
  if c.hnd then s.fence g codeHandlerFault
  else if s.inExchange g then
    if cause = codePhaseIllegal ∨ cause = codeModeIllegal then
      (s.modHere fun c => { c with status := .faulted }).modDomainOf g
        fun d => { d with fatal := d.fatal.orElse (fun _ => some cause) }
    else s.failPitch g cause
  else
    let tsr := tsrAtTrap s.cur.opc (s.ph g) s.cur.pos
    if c.ser then
      s.modHere fun c => { c.enterHandler cause tva tsr c.hvb (s.t + 2) with resume := s.cur.addr }
    else
      let s1 := s.modHereCluster fun cl =>
        { cl with
          trap := some { cycle := s.t, handlers := [(s.cur.k, s.cur.x)], rollbackAt := some (s.t + 1) } }
      s1.modHere fun c => c.enterHandler cause tva tsr c.dup.hvb (s.t + 2)

/-- A mismatch of a duplicated pair (05 R126, 14 R330): it pairs with the context's previous mismatch at this bundle
when the one belay issued since is the re-issue of the belay that its rollback resumed from, and then fences the cluster;
otherwise it is counted and traps. -/
def State.dupMismatch (tva : Word) (s : State) : State :=
  let c := s.here
  if c.dupAddr = some s.cur.addr ∧ c.dupBelays = 1 then s.fence s.cur.g codeDupHard
  else
    let s1 := s.modHereCluster fun cl => { cl with dupCount := satAdd cl.dupCount 1 }
    (s1.modHere fun c => { c with dupAddr := some s.cur.addr, dupBelays := 0 }).enterTrap codeDupMismatch tva

/-- Raises a trap with the given trap value at the slot being issued, TAKING it, and notes that the bundle faulted
(14 R321). -/
def State.takeTrapWith (cause : Nat) (tva : Word) (s : State) : State :=
  let s := { s with cur := { s.cur with trapped := some (cause, tva) } }
  if cause = codeDupMismatch then s.dupMismatch tva
  else if cause = codeAnvilOperand then s.deliverRecord tva
  else s.enterTrap cause tva

/-- Raises a trap: the trap value of a decoder fault is the bundle's address (03 R73); for the other causes the spec
names none, and the value is free (04 R90). -/
def State.takeTrap (cause : Nat) (s : State) : State :=
  if cause ≤ codeModeIllegal then s.takeTrapWith cause (BitVec.ofNat 32 s.cur.addr)
  else { s with fresh := s.fresh + 1 }.takeTrapWith cause (Config.freeTrapValue s.fresh)

/-- The bundle of the slot being issued blocks (01 R37): none of its slots takes effect. -/
def State.block (s : State) : State :=
  { (s.modHere fun c => { c with status := .blocked, held := true }) with cur := { s.cur with blocked := true } }

/-- The bundle is held whole for one cycle and tried again (08 R181). -/
def State.holdBundle (s : State) : State :=
  { (s.modHere fun c => { c with held := true, notBefore := s.t + 1 }) with cur := { s.cur with held := true } }

/-- A full engine queue: ENGINE_BUSY in timetable mode, a blocked bundle in trigger mode (10 R233). -/
def State.engineFull (s : State) : State :=
  if s.hereCluster.trigger then s.block else s.takeTrap codeEngineBusy

/-- A schedule conflict: BANK_CONFLICT in timetable mode, a held bundle in trigger mode (08 R181). -/
def State.bankConflict (s : State) : State :=
  if s.hereCluster.trigger then s.holdBundle else s.takeTrap codeBankConflict

/-! ### Legality by mode and pitch (01 R21) -/

/-- The rows of R21 that are not "Yes" everywhere. -/
inductive Row where
  | anywhere | notExchange | send | hbm | untimed | barrier | wait
  deriving DecidableEq, Repr

/-- The trap that R21 gives an instruction of a row at the issuing slot; the column of the pitch or mode is judged
before the serial-issue column. -/
def State.illegal (s : State) (r : Row) : Option Nat :=
  let trig := s.hereCluster.trigger
  let ex := s.inExchange s.cur.g
  let ser := s.here.ser
  let w0 := s.hereCluster.world == 0
  match r with
  | .anywhere => none
  | .notExchange => if ex then some codePhaseIllegal else none
  | .send => if ser then some codeModeIllegal else none
  | .hbm => if !trig && !ex then some codePhaseIllegal else none
  | .untimed => if !trig then some codeModeIllegal else if ser && !w0 then some codeModeIllegal else none
  | .barrier => if trig || ser then some codeModeIllegal else none
  | .wait => if !trig then some codeModeIllegal else if ser && !w0 then some codeModeIllegal else none

/-- Runs a meaning where R21 lets its instruction issue, and takes the trap R21 gives elsewhere. -/
def State.legal (r : Row) (s : State) (f : State → Out) : Out :=
  match s.illegal r with
  | some c => .next (s.takeTrap c)
  | none => f s

/-- Raises a trap when a condition fails; a check made precisely at dispatch (03 R73). -/
def State.require (ok : Bool) (cause : Nat) (s : State) (f : State → Out) : Out :=
  if ok then f s else .next (s.takeTrap cause)

/-- An operand limit on register values (03 R73, check 11): judged with `limits` before R21. -/
def State.limit (ok : Bool) (s : State) (f : State → Out) : Out := s.require ok codeOperandIllegal f

end Sys2Proof.Machine
end

