-- ==== Sys2Proof/Machine/Operands.lean ====
section
/-! DEFINITION. Operand forms: immediates (03 R67), transfer targets (05 R118), parts and lanes of vector registers
(03 R68, 06 R127), rounding codes (02 R52), scratchpad operands (09 R201, R202), alias classes (08 R195) and tensor
addresses (04 R97). -/

namespace Sys2Proof.Machine

/-! ### Immediates and targets -/

/-- wrap32(sext(I, n)) of an immediate. -/
def imm (n : Nat) (i : BitVec n) : Word := i.signExtend 32

/-- target(v) of R118. -/
def target (v : Nat) : Nat := v / 4 % 2 ^ 15 * 4

/-- The target of a transfer relative to the bundle's address. -/
def State.relTarget (s : State) (i : Word) : Nat := target (BitVec.ofNat 32 s.cur.addr + 4 * i).toNat

/-! ### Parts and lanes -/

/-- Bit at which the part begins (06 R127). -/
def partBase (w h : BitVec 2) : Nat := widthBits w * h.toNat

/-- The part of a register as a number. -/
def partOf (v : Vec) (w h : BitVec 2) : Nat := v.toNat / 2 ^ partBase w h % 2 ^ widthBits w

/-- The lanes of `e` bits of the part, lane 0 first. -/
def lanesOf (v : Vec) (w h : BitVec 2) (e : Nat) : List Nat :=
  let p := partOf v w h
  (List.range (widthBits w / e)).map (fun i => p / 2 ^ (e * i) % 2 ^ e)

/-- Lanes of `e` bits packed from bit 0 up. -/
def packLanes (e : Nat) : List Nat → Nat
  | [] => 0
  | x :: t => x % 2 ^ e + 2 ^ e * packLanes e t

/-- The register bits of the part. -/
def partMask (w h : BitVec 2) : Vec := BitVec.ofNat 1024 ((2 ^ widthBits w - 1) * 2 ^ partBase w h)

/-- Issues a vector result that fills the part with packed lanes of `e` bits; lanes beyond the list are zero. -/
def State.emitPart (lat : Nat) (d : BitVec 5) (w h : BitVec 2) (e : Nat) (xs : List Nat) (flags : Nat) (s : State) :
    State :=
  s.emit lat (.v d.toNat) (partMask w h)
    (BitVec.ofNat 1024 (packLanes e xs % 2 ^ widthBits w * 2 ^ partBase w h)) (BitVec.ofNat 32 flags)

/-- The OR of the flags of lanes. -/
def orFlags (xs : List Lane) : Nat := xs.foldl (fun f p => Nat.lor f p.2) 0

/-- Issues lanes with their flags. -/
def State.emitLanes (lat : Nat) (d : BitVec 5) (w h : BitVec 2) (e : Nat) (xs : List Lane) (s : State) : State :=
  s.emitPart lat d w h e (xs.map (·.1)) (orFlags xs)

/-- FMD as a read on this cycle returns it (02 R48). -/
def State.rm (s : State) : Nat := s.here.fmd.toNat % 4
def State.dz (s : State) : Bool := s.here.fmd.getLsbD 2
def State.satf (s : State) : Bool := s.here.fmd.getLsbD 3

/-- The rounding of a conversion's code (02 R52). -/
def State.roundCode (s : State) (r : BitVec 3) : Nat := if r = 0 then s.rm else r.toNat % 4

/-- Lane maps over the part. -/
def State.lanes1 (s : State) (a : BitVec 5) (w h : BitVec 2) (e : Nat) (f : Nat → Lane) : List Lane :=
  (lanesOf (s.rv a) w h e).map f
def State.lanes2 (s : State) (a b : BitVec 5) (w h : BitVec 2) (e : Nat) (f : Nat → Nat → Lane) : List Lane :=
  List.zipWith f (lanesOf (s.rv a) w h e) (lanesOf (s.rv b) w h e)
def State.lanes3 (s : State) (d a b : BitVec 5) (w h : BitVec 2) (e : Nat) (f : Nat → Nat → Nat → Lane) : List Lane :=
  List.zipWith (fun x p => f x p.1 p.2) (lanesOf (s.rv d) w h e)
    (List.zip (lanesOf (s.rv a) w h e) (lanesOf (s.rv b) w h e))

/-! ### Scratchpad operands (09 R201, R202) -/

/-- `[cA, d]`: cA is read as signed. `[sA]`: sA is read as unsigned. -/
def State.addrC (s : State) (a : BitVec 5) (d : Int) : Int := (s.rc a).toInt + d
def State.addrS (s : State) (a : BitVec 5) : Int := (s.rs a).toNat

/-- The alias class of an access: its base register, or shape record, modulo 4. -/
def aliasClass {n : Nat} (a : BitVec n) : Nat := a.toNat % 4

/-- What an access does, for the checks of R202: the lines and words it touches. -/
structure Touch where
  lines : List Nat
  /-- FORM_SEALED is checked (08 R179). -/
  form : Bool := true
  /-- Words read, and words written in part. -/
  reads : List Nat := []
  parts : List Nat := []
  /-- The expected tag of a tag-checked read. -/
  tag : Option Nat := none
  deriving DecidableEq, Repr

/-- Checks 3 to 6 of R202 in their order. -/
def Core.touchFault (c : Core) (x : Touch) : Option Nat :=
  if x.lines.any c.isLent then some codeLentBank
  else if x.form && x.lines.any c.form then some codeFormSealed
  else if x.reads.any c.wordPoisoned || x.parts.any c.wordPoisoned then some codePoison
  else
    match x.tag with
    | none => none
    | some t =>
      if x.lines.any (fun l => c.tag l == 0xFFF) then some codeScheduleFault
      else if x.lines.any (fun l => (c.tag l).toNat != t) then some codeTagMismatch
      else none

/-- Checks 1 and 2 of R202. -/
def rangeFault (a : Int) (n al : Nat) : Option Nat :=
  if a < 0 ∨ (spadBytes : Int) < a + n then some codeAddressRange
  else if a % (al : Int) ≠ 0 then some codeMisaligned
  else none

/-- The lines and words of `n` bytes at `a`, read or written. -/
def readTouch (a n : Nat) : Touch := { lines := linesOf a n, reads := wordsOf a n }
def writeTouch (a n : Nat) : Touch :=
  { lines := linesOf a n, parts := (wordsOf a n).filter (fun w => decide (8 * w < a) || decide (a + n < 8 * w + 8)) }

/-- Raises the first failing check, or goes on. A POISON marks the words it found (08 R177). -/
def State.check (f : Option Nat) (ws : List Nat) (s : State) (k : State → Out) : Out :=
  match f with
  | none => k s
  | some c =>
    if c = codePoison then
      let t := s.modHereCore (Core.meetAll (ws.filter (fun w => s.hereCore.err w == .uncorrectable)))
      .next ({ t with cur := { t.cur with found := t.cur.found ++ ws } }.takeTrap c)
    else .next (s.takeTrap c)

/-- Check 7: the access uses the banks of its lines on cycle issue + 1 (08 R180, R181). -/
def State.usePort (ls : List Nat) (s : State) (k : State → Out) : Out :=
  let sch := ls.map (fun l => (s.t + 1, l))
  if selfConflict sch || s.hereCore.busy sch then .next s.bankConflict
  else k (s.bookHere sch)

/-- A hold of the cluster that begins when running cycle `t` ends (08 R176, 03 R85); one compatibility hold serves every
load of a cycle. -/
def State.addHold (g t len : Nat) (kind : HoldKind) (s : State) : State :=
  s.modCluster g fun cl =>
    if kind = .compat && cl.holds.any (fun h => h.after == t && h.kind == .compat) then cl
    else { cl with holds := cl.holds ++ [⟨t, len, kind⟩] }

/-- The words a core load or atomic read: errors are met, and a correctable one holds the cluster (08 R176). -/
def State.readWords (ws : List Nat) (s : State) : State :=
  let bad := ws.any (fun w => s.hereCore.err w == .correctable)
  let s1 := s.modHereCore (Core.meetAll ws)
  if bad then s1.addHold s.cur.g (s.t + 1) 6 .correctable else s1

/-- The compatibility hold of a scratchpad load (03 R85), which a TAGR of an exchange pitch does not take. -/
def State.loadHold (s : State) : State :=
  if s.hereCore.stg.getLsbD 8 && !s.inExchange s.cur.g then s.addHold s.cur.g (s.t + 3) 2 .compat else s

/-- The bytes at addresses as a load of a class reads them; open bytes spend free choices (08 R196). -/
def State.loadBytes (cls : Nat) (as : List Nat) (s : State) : List Byte :=
  (List.zip (List.range as.length) as).map (fun p => s.hereCore.loadByte cls (Config.freeBit (s.fresh + p.1)) p.2)
def State.spendOpen (cls : Nat) (as : List Nat) (s : State) : State :=
  if as.any (s.hereCore.openByte cls) then { s with fresh := s.fresh + as.length } else s

/-- The addresses of `n` bytes at `a`. -/
def span (a n : Nat) : List Nat := (List.range n).map (fun i => a + i)

/-- A load of `n` bytes at `a` (09 R202, R204): its checks, its port, its errors and its hold; `k` gets the bytes. -/
def State.load (cls : Nat) (a : Int) (n al : Nat) (tag : Option Nat) (s : State) (k : List Byte → State → Out) : Out :=
  s.check (rangeFault a n al) [] fun s =>
    let b := a.toNat
    let x := { readTouch b n with tag := tag }
    s.check (s.hereCore.touchFault x) x.reads fun s =>
      s.usePort x.lines fun s =>
        let v := s.loadBytes cls (span b n)
        k v ((s.spendOpen cls (span b n)).readWords x.reads).loadHold

/-- Stores of this context are released as they perform (08 R186). -/
def State.freeStore (s : State) : Bool := s.here.ser && !s.here.hnd

/-- Check 8 and the store itself (08 R185): the bytes perform into the withholding buffer. -/
def State.withhold (cls : Nat) (ws : List (Nat × Byte)) (s : State) (k : State → Out) : Out :=
  let c := s.hereCore
  if c.bufferFits cls s.cur.x s.freeStore ws then
    k (s.modHereCore fun c =>
      (ws.foldl (fun c p => c.keepOld (lineOf p.1)) c).bufferStore cls s.cur.x s.freeStore ws)
  else if s.hereCluster.trigger && c.wbuf.any (fun e => e.released) then .next s.holdBundle
  else .next (s.takeTrap codeWithholdFull)

/-- A store of bytes at `a` (09 R202, R204). -/
def State.store (cls : Nat) (a : Int) (al : Nat) (bs : List Byte) (s : State) : Out :=
  s.check (rangeFault a bs.length al) [] fun s =>
    let b := a.toNat
    let x := writeTouch b bs.length
    s.check (s.hereCore.touchFault x) x.parts fun s =>
      s.withhold cls (List.zip (span b bs.length) bs) .next

/-! ### Tensor addresses (04 R97, 09 R207) -/

/-- The fields of a shape record. -/
def shapeBase (r : BitVec 384) : Nat := bits r.toNat 19 0
def shapeType (r : BitVec 384) : Nat := bits r.toNat 23 20
def shapeRank (r : BitVec 384) : Nat := bits r.toNat 26 24
def shapePerm (r : BitVec 384) : Nat := bits r.toNat 28 27
def shapeExt (r : BitVec 384) (d : Nat) : Nat := bits r.toNat (32 + 16 * d + 15) (32 + 16 * d)
def shapeStr (r : BitVec 384) (d : Nat) : Int := sext (bits r.toNat (160 + 32 * d + 23) (160 + 32 * d)) 24

/-- Bytes of an element type that a tensor access moves; none for block and reserved types (09 R207). -/
def elemBytes (ty : Nat) : Option Nat :=
  match ty with
  | 0 => some 1
  | 1 => some 2
  | 2 => some 4
  | 3 => some 4
  | 4 => some 2
  | 5 => some 2
  | 6 => some 1
  | 7 => some 1
  | 11 => some 1
  | _ => none

/-- The byte address of element x; none when it is out of bounds. The bank permutation is applied to an address in the
scratchpad. -/
def elemAddr (r : BitVec 384) (e : Nat) (x : List Int) : Option Int :=
  let ds := List.zip (List.range x.length) x
  if ds.any (fun p => decide (p.2 < 0) || decide ((shapeExt r p.1 : Int) ≤ p.2)) then none
  else
    let a : Int := (shapeBase r : Int) + (e : Int) * ds.foldl (fun n p => n + p.2 * shapeStr r p.1) 0
    if a < 0 ∨ (spadBytes : Int) ≤ a then some a
    else
      let n := a.toNat
      let x1 : Nat := match x with
        | _ :: y :: _ => (y % 32).toNat
        | _ => 0
      let b := n / 64 % 32
      let b' := match shapePerm r with
        | 1 => Nat.xor b x1
        | 2 => (b + x1) % 32
        | _ => b
      some ((n - 64 * b + 64 * b' : Nat) : Int)

/-- The lanes of a tensor access: element bytes, and the address of each lane. -/
structure Tensor where
  e : Nat
  lanes : List (Option Int)
  deriving DecidableEq, Repr

/-- The tensor access through shape k with coordinates from cB; none breaks an operand limit of R207. `extra` is 1 for
TLDT, which reads the tag from the register after the coordinates. -/
def State.tensor (k : BitVec 4) (b : BitVec 5) (w : BitVec 2) (extra : Nat) (s : State) : Option Tensor :=
  let r := tget 0 s.hereCore.shapes k.toNat
  let rank := shapeRank r
  if rank = 0 ∨ shapePerm r = 3 ∨ 16 < b.toNat + rank + extra then none
  else
    match elemBytes (shapeType r) with
    | none => none
    | some e =>
      let xs : List Int := (List.range rank).map (fun d => (s.here.rc (b.toNat + d)).toInt)
      some { e := e
             lanes := (List.range (widthBits w / (8 * e))).map (fun j =>
               elemAddr r e (match xs with
                 | x :: t => (x + (j : Int)) :: t
                 | [] => [])) }

/-- Without repeats, in order. -/
def distinct (xs : List Nat) : List Nat := xs.foldr (fun x acc => if acc.contains x then acc else x :: acc) []

/-- The first failing check of R202 over the in-bounds elements, range and alignment. -/
def Tensor.rangeFault (t : Tensor) : Option Nat :=
  let as := t.lanes.filterMap (fun a => a)
  if as.any (fun a => decide (a < 0) || decide ((spadBytes : Int) < a + t.e)) then some codeAddressRange
  else if as.any (fun a => a % (t.e : Int) != 0) then some codeMisaligned
  else none

/-- The in-bounds addresses of a tensor access. -/
def Tensor.addrs (t : Tensor) : List Nat := t.lanes.filterMap (fun a => a.map Int.toNat)

end Sys2Proof.Machine
end

