-- ==== Sys2Proof/Machine/Anvil.lean ====
section
/-! DEFINITION. The anvil and the fold unit (07 R152 to R172): the instructions 0x60 to 0x69, the units' work on each
running cycle, and the events MMA_START, MMA_RETIRE, MMA_LAND, FOLD_START and FOLD_COMPLETE. -/

namespace Sys2Proof.Machine

/-! ### Updates of per-core state (04 R98 to R100, 07 R156, R160, R169, R170) -/

/-- Notes the context whose write last landed in an item (04 R100). -/
def Core.setWriter (i : Item) (x : Nat) (c : Core) : Core :=
  { c with writers := c.writers.filter (fun p => p.1 != i) ++ [(i, x)] }

/-- Sets a tile status entry. -/
def Core.setTs (e : Nat) (v : Word) (c : Core) : Core := { c with ts := tset 0 c.ts e v }

/-- A tile status entry with further conditions (04 R99). -/
def tsMerge (v : Word) (bits : BitVec 4) (sat : Nat) : Word :=
  let n := Nat.min 65535 (v.toNat / 65536 + sat)
  BitVec.ofNat 32 (n * 65536 + Nat.lor (v.toNat % 65536) bits.toNat)

/-- Whether a context keeps apart what it issued before its belay (14 R322, R324): it has rolled back, and the belay has not
issued again. -/
def Ctx.keepsApart (c : Ctx) (issued : Nat) : Bool := c.replaying && decide (issued < c.belayCycle)

/-- Whether a landing on a cycle is noted for replay (14 R324): issued before the belay, landing after it. -/
def Ctx.notes (c : Ctx) (issued due : Nat) : Bool := decide (issued < c.belayCycle) && decide (c.belayCycle < due)

/-- Puts rows and poison bits into a bank. -/
def Core.putBank (b : Nat) (rows : List (BitVec 2048)) (poison : BitVec 32) (c : Core) : Core :=
  { c with
    acc := ((List.range rows.length).zip rows).foldl (fun a p => tset 0 a (32 * b + p.1) p.2) c.acc
    accPoison := tset 0 c.accPoison b poison }

/-- The items that an update writes. -/
def CoreUpdate.items : CoreUpdate → List Item
  | .ringSet q _ => [.ring q]
  | .ringFill q _ => [.ring q]
  | .ringPop q _ => [.ring q]
  | .mmaPop q _ => [.ring q]
  | .bankLand b _ _ clear => if clear then [.bank b, .ts b] else [.bank b]
  | .bankClear b => [.bank b, .ts b]
  | .tsCond e _ _ => [.ts e]
  | .tsClear e => [.ts e]
  | .shape k _ => [.shape k]
  | .pattern b _ _ => [.patterns b]
  | .patternSwitch => [.patterns 0, .patterns 1]

/-- The bits of a shape record that are not reserved (04 R97); the others read as zero (00 R9). -/
def shapeMask : BitVec 384 :=
  BitVec.ofNat 384 ((List.range 12).foldl (fun n w =>
    n + (if w = 0 then 0x1FFFFFFF else if w < 4 then 0xFFFFFFFF else if w = 4 then 0xFFFF else 0xFFFFFF) * 2 ^ (32 * w)) 0)

/-- Makes an update. -/
def Core.apply (u : CoreUpdate) (c : Core) : Core :=
  let ring := fun (q : Nat) (f : Ring → Ring) => { c with rings := tset {} c.rings q (f (tget {} c.rings q)) }
  match u with
  | .ringSet q r => ring q (fun _ => r)
  | .ringFill q n => ring q (fun r => { r with count := r.count + n })
  | .ringPop q n => ring q (fun r => { r with head := (r.head + n) % r.size, count := r.count - n })
  | .mmaPop q n => ring q (fun r => { r with head := (r.head + n) % r.size, count := r.count - n })
  | .bankLand b rows poison clear =>
    let c1 := c.putBank b rows poison
    if clear then c1.setTs b 0 else c1
  | .bankClear b => (c.putBank b (List.replicate 32 0) 0).setTs b 0
  | .tsCond e bits sat => c.setTs e (tsMerge (tget 0 c.ts e) bits sat)
  | .tsClear e => c.setTs e 0
  | .shape k v => { c with shapes := tset 0 c.shapes k (v &&& shapeMask) }
  | .pattern b e v => { c with patterns := tset 0 c.patterns (64 * b + e) v }
  | .patternSwitch => { c with patSel := (c.patSel + 1) % 2 }

/-- Makes one update in flight, notes it for replay, or keeps it apart (04 R100). -/
def Core.landOne (c : Core) (p : Pending) : Core :=
  let x := c.ctx p.ctx
  let c1 := if x.notes p.issued p.due then
      { c with dup := { c.dup with pend := c.dup.pend ++ [(p.due - x.belayCycle, p)] } } else c
  if x.keepsApart p.issued then c1
  else p.upd.items.foldl (fun c i => c.setWriter i p.ctx) (c1.apply p.upd)

def CoreUpdate.isCond : CoreUpdate → Bool
  | .tsCond _ _ _ => true
  | _ => false
def CoreUpdate.isBank : CoreUpdate → Bool
  | .bankLand _ _ _ _ => true
  | _ => false

/-! ### Tiles, rings and passes -/

/-- Element bits and block bytes of a width code (07 R154, R158). -/
def wBits (w : Nat) : Nat := if w = 0 then 8 else if w = 1 then 6 else 4
def wBlock (w : Nat) : Nat := if w = 0 then 32 else if w = 1 then 24 else 16

/-- K blocks per pass, and cycles of a pass (07 R153). -/
def passBlocks (wa wb : Nat) : Nat :=
  if wa = 2 ∧ wb = 2 then 4 else if wa = 1 ∧ wb = 1 then 3 else if wa = 2 ∨ wb = 2 then 2 else 1
def passCycles (wa wb : Nat) : Nat := if wa = 1 ∧ wb = 1 then 64 else 32

def Mma.passes (m : Mma) : Nat := (m.n + passBlocks m.wa m.wb - 1) / passBlocks m.wa m.wb
/-- Retirement and landing of an MMA that starts on a cycle (07 R160). -/
def Mma.retireAt (m : Mma) (start : Nat) : Nat := start + passCycles m.wa m.wb * m.passes

/-- A ring descriptor (07 R155). -/
def Core.ring (c : Core) (q : Nat) : Ring := tget {} c.rings q

/-- Tiles that an update pops from a ring for a retired MMA. -/
def Pending.mmaPops (q : Nat) (p : Pending) : Nat :=
  match p.upd with
  | .mmaPop k n => if k = q then n else 0
  | _ => 0

/-- The updates of per-core state that a rollback keeps for the belay bundle that is to issue again (04 R100). -/
def Core.toReplay (c : Core) : List Pending := (c.dup.pend.filter (fun p => (c.ctx p.2.ctx).replaying)).map (·.2)

/-- The updates of per-core state that are still to be made, oldest first: those kept after a rollback, then those in flight. -/
def Core.toMake (c : Core) : List Pending := c.toReplay ++ c.pending

/-- The claim count of a ring (07 R156): of MMAs not yet retired, and of retired ones whose pop is still to be made or, after
a rollback, still to be made again (04 R100). -/
def Core.claim (c : Core) (q : Nat) : Nat :=
  c.anvil.foldl (fun n m => n + (if m.qa = q then m.n else 0) + (if m.qb = q then m.n else 0)) 0
    + (c.toMake.map (Pending.mmaPops q)).sum

/-- The address of tile i of a ring. -/
def Ring.tileAddr (r : Ring) (i : Nat) : Nat := r.base + 256 * r.tile * (i % r.size)

/-- The tiles that an MMA of n blocks takes (07 R159). -/
def Core.takeTiles (c : Core) (qa qb n : Nat) : List (Nat × Nat) :=
  let a := c.ring qa
  let b := c.ring qb
  (List.range n).map fun j =>
    if qa = qb then
      (a.tileAddr (a.head + c.claim qa + 2 * j), a.tileAddr (a.head + c.claim qa + 2 * j + 1))
    else (a.tileAddr (a.head + c.claim qa + j), b.tileAddr (b.head + c.claim qb + j))

/-- The 256-byte chunks of an operand tile. -/
def chunks (a bytes : Nat) : List Nat := (List.range (bytes / 256)).map (fun i => a + 256 * i)

/-- The chunks that pass q reads, one per cycle (07 R157). -/
def Mma.stream4 (m : Mma) (q : Nat) : List Nat :=
  ((m.tiles.drop (q * passBlocks m.wa m.wb)).take (passBlocks m.wa m.wb)).flatMap
    (fun p => chunks p.1 (32 * wBlock m.wa) ++ chunks p.2 (64 * wBlock m.wb))

/-- The access schedule of an MMA that starts on a cycle. -/
def Mma.schedule (m : Mma) (start : Nat) : List (Nat × Nat) :=
  (List.range m.passes).flatMap fun q =>
    ((List.range (m.stream4 q).length).zip (m.stream4 q)).flatMap fun p =>
      (linesOf p.2 256).map (fun l => (start + passCycles m.wa m.wb * q + p.1, l))

/-! ### Reading operands and faults (R162, R163, R167) -/

/-- A line read by the anvil or the fold unit on this cycle, with the operand fault that it gives as the read meets it (07 R162,
08 R183). -/
def Core.opLine (c : Core) (l : Nat) : OpLine :=
  let x := c.engineLineOld l
  { data := x.data
    why := if c.isLent l then some 0 else if x.sealed then some 1 else if x.poison != 0 then some 2 else none
    poison := x.poison }

/-- The operand fault of a line, if it gives one. -/
def Core.opFault (c : Core) (l : Nat) : Option Nat := (c.opLine l).why

/-- Writes the anvil fault record if none is pending (07 R163). -/
def Core.recordFault (unit bank why side ring blk ctx : Nat) (c : Core) : Core :=
  match c.afault with
  | some _ => c
  | none =>
    let w := unit * 2 ^ 23 + bank * 2 ^ 22 + why * 2 ^ 20 + side * 2 ^ 19 + ring * 2 ^ 16 + blk
    { c with afault := some ⟨BitVec.ofNat 32 w, ctx⟩ }

/-- Rows of an operand tile, of `bb` bytes each, that a faulting line kills: every row of a lent or sealed line, and the
rows that hold a poisoned word (07 R162). -/
def badRows (bb n : Nat) (ls : List OpLine) : List Nat :=
  (List.range n).filter fun r =>
    (wordsOf (r * bb) bb).any fun w =>
      match ls[w / 8]? with
      | some l => l.why == some 0 || l.why == some 1 || l.poison.getLsbD (w % 8)
      | none => false

/-- A tile as one little-endian number. -/
def tileNat : List OpLine → Nat
  | [] => 0
  | l :: t => l.data.toNat + 2 ^ 512 * tileNat t

/-- Element k of block i of a tile (07 R159). -/
def tileElem (t i k w : Nat) : Int := sext (t / 2 ^ (8 * wBlock w * i + wBits w * k)) (wBits w)

/-- The sum of 32 products of one row and column. -/
def blockDot (a b row col wa wb : Nat) : Int :=
  (List.range 32).foldl (fun n k => n + tileElem a row k wa * tileElem b col k wb) 0

/-- Adds one K block to the rows that are not dead (07 R159). -/
def addBlock (a b wa wb : Nat) (dead : BitVec 32) (rows : List (BitVec 2048)) : List (BitVec 2048) :=
  ((List.range rows.length).zip rows).map fun p =>
    if dead.getLsbD p.1 then p.2
    else BitVec.ofNat 2048 ((List.range 64).foldl (fun n col =>
      n + (wrap32 ((p.2.toNat / 2 ^ (32 * col) % 2 ^ 32 : Nat) + blockDot a b p.1 col wa wb)).toNat * 2 ^ (32 * col)) 0)

/-- Works off the blocks of a pass whose stream is read whole: each block's faults first, then its sums. -/
def Mma.finishPass : Nat → Mma → Mma
  | 0, m => { m with stream := [] }
  | k + 1, m =>
    let la := m.stream.take (wBlock m.wa / 2)
    let lb := (m.stream.drop (wBlock m.wa / 2)).take (wBlock m.wb)
    if lb.isEmpty then { m with stream := [] }
    else
      let da := badRows (wBlock m.wa) 32 la
      let db := badRows (wBlock m.wb) 64 lb
      let dead := if db.isEmpty then da.foldl (fun d r => d ||| BitVec.twoPow 32 r) m.dead else BitVec.allOnes 32
      Mma.finishPass k { m with
        dead := dead
        rows := addBlock (tileNat la) (tileNat lb) m.wa m.wb dead m.rows
        stream := m.stream.drop (wBlock m.wa / 2 + wBlock m.wb) }

/-- What the running MMA does on cycle t: it reads its chunk, records faults, and works off a pass read whole. -/
def Core.mmaCycle (t : Nat) (c : Core) : Core :=
  match c.anvil with
  | [] => c
  | m :: rest =>
    match m.start with
    | none => c
    | some st =>
      let p := passCycles m.wa m.wb
      let q := (t - st) / p
      let i := (t - st) % p
      match (m.stream4 q)[i]? with
      | none => c
      | some a =>
        let ls := linesOf a 256
        let ops := ls.map c.opLine
        let perBlock := (32 * wBlock m.wa + 64 * wBlock m.wb) / 256
        let blk := q * passBlocks m.wa m.wb + i / perBlock
        let side := if i % perBlock < 32 * wBlock m.wa / 256 then 0 else 1
        let c1 := ls.foldl (fun c l => c.passLine l) c
        let c2 := ops.foldl (fun c o =>
          match o.why with
          | some w => c.recordFault 0 m.bank w side (if side = 0 then m.qa else m.qb) blk m.ctx
          | none => c) c1
        let m1 := { m with stream := m.stream ++ ops }
        let m2 := if i + 1 = (m.stream4 q).length then Mma.finishPass (passBlocks m.wa m.wb) m1 else m1
        { c2 with anvil := m2 :: rest }

/-- The value of a bank after every earlier MMA to it, and its poison bits (07 R159, R160). -/
def Core.bankAfter (c : Core) (b : Nat) : List (BitVec 2048) × BitVec 32 :=
  let own := ((List.range 32).map (fun r => tget 0 c.acc (32 * b + r)), tget 0 c.accPoison b)
  c.toMake.foldl (fun v p => match p.upd with
    | .bankLand k rows pois _ => if k = b then (rows, pois) else v
    | _ => v) own

/-- Starts the first MMA of the anvil on cycle t and makes its first read. -/
def Core.mmaBegin (t : Nat) (c : Core) : Core :=
  match c.anvil with
  | [] => c
  | m :: rest =>
    let v := if m.zero then (List.replicate 32 0, 0) else c.bankAfter m.bank
    Core.mmaCycle t { c with anvil := { m with start := some t, rows := v.1, poison := v.2 } :: rest }

/-! ### MMA and MMAZ (R159, R160, R171) -/

/-- Check 1 of R159, an operand limit. -/
def State.okMma (s : State) (qa qb wa wb : Nat) : Bool :=
  let a := s.hereCore.ring qa
  let b := s.hereCore.ring qb
  a.size != 0 && b.size != 0 && a.tile * 256 == 32 * wBlock wa && b.tile * 256 == 64 * wBlock wb

/-- A schedule of an engine command, judged against the core's and against itself (08 R181). -/
def State.engineSchedule (self : Bool) (sch : List (Nat × Nat)) (s : State) (k : State → Out) : Out :=
  if (self && selfConflict sch) || s.hereCore.busy sch then .next s.bankConflict
  else k (s.bookHere sch)

def State.execMmaWith (zero : Bool) (e : BitVec 1) (n : BitVec 4) (a b : BitVec 3) (y x : BitVec 2) (s : State) : Out :=
  s.limit (s.okMma a.toNat b.toNat x.toNat y.toNat) fun s =>
    s.legal .notExchange fun s =>
      let c := s.hereCore
      let k := n.toNat + 1
      let room := fun (q need : Nat) => decide (c.claim q + need ≤ (c.ring q).count)
      s.require (if a = b then room a.toNat (2 * k) else room a.toNat k && room b.toNat k) codeRingUnderrun fun s =>
        if 2 ≤ c.anvil.length then .next s.engineFull
        else
          let m : Mma := {
            ctx := s.cur.x, issued := s.t, zero := zero, bank := e.toNat, qa := a.toNat, qb := b.toNat, n := k
            wa := x.toNat, wb := y.toNat, tiles := c.takeTiles a.toNat b.toNat k }
          let start := match c.anvil with
            | r :: _ => r.retireAt (r.start.getD r.planned)
            | [] => s.t
          let m := { m with planned := start }
          s.engineSchedule false (m.schedule start) fun s =>
            .next (s.modHereCore fun c =>
              let c1 := { c with anvil := c.anvil ++ [m] }
              if c.anvil.isEmpty then c1.mmaBegin s.t else c1)

/-- MMA (R159). -/
def execMma (e : BitVec 1) (n : BitVec 4) (a b : BitVec 3) (y x : BitVec 2) (s : State) : Out :=
  s.execMmaWith false e n a b y x
/-- MMAZ (R159). -/
def execMmaz (e : BitVec 1) (n : BitVec 4) (a b : BitVec 3) (y x : BitVec 2) (s : State) : Out :=
  s.execMmaWith true e n a b y x

/-! ### Folds (R165 to R167) -/

/-- The value limits of SCAC and SCACZ (R165). -/
def okFold (d a b : Word) : Bool :=
  let dst := bits d.toNat 19 0
  let rows := bits d.toNat 25 20
  dst % 256 == 0 && decide (1 ≤ rows) && decide (rows ≤ 32) && d.toNat / 2 ^ 27 == 0
    && a.toNat / 2 ^ 22 == 0 && b.toNat / 2 ^ 22 == 0 && bits a.toNat 21 20 != 3 && bits b.toNat 21 20 != 3
    && decide (dst + 256 * rows ≤ spadBytes) && decide (bits a.toNat 19 0 + rows ≤ spadBytes)
    && decide (bits b.toNat 19 0 + 64 ≤ spadBytes)

/-- The access schedule of a fold that starts on cycle c: scales, rows read (SCAC) and rows written. -/
def Fold.schedule (f : Fold) (c : Nat) : List (Nat × Nat) :=
  (linesOf f.sa f.rows ++ linesOf f.sb 64).map (fun l => (c, l)) ++
  (List.range f.rows).flatMap (fun i =>
    (if f.zero then [] else (linesOf (f.dst + 256 * i) 256).map (fun l => (c + i, l))) ++
    (linesOf (f.dst + 256 * i) 256).map (fun l => (c + 8 + i, l)))

/-- The scale bytes of an array; a byte of a faulting line reads as 0xFF (R167). -/
def Core.scaleBytes (c : Core) (a n : Nat) : List Nat :=
  (span a n).map fun p =>
    let o := c.opLine (lineOf p)
    if o.why.isSome then 0xFF else o.data.toNat / 2 ^ (8 * (p % 64)) % 256

/-- The first fault of the lines of an array. -/
def Core.firstFault (c : Core) (ls : List Nat) : Option Nat := (ls.filterMap c.opFault).head?

/-- Computes row i of a fold on the cycle that reads it: elements, those to write, lines left unchanged, conditions. DESIGN
CHOICE (log entry 52): 07 R167 does not say whether the elements of a faulting destination line record conditions; those of a line
that faults at its read record none, and those of a line that faults at its write alone keep theirs. -/
def Core.foldRow (c : Core) (f : Fold) (i : Nat) : FoldRow × BitVec 4 :=
  let ls := linesOf (f.dst + 256 * i) 256
  let ops := ls.map c.opLine
  let bad := fun (k : Nat) => !f.zero && ((ops[k]?).map (fun o => o.why.isSome)).getD false
  let row := (f.snap.getD i 0).toNat
  let dst := tileNat ops
  (List.range 64).foldl (fun (acc : FoldRow × BitVec 4) col =>
      if bad (col / 16) then acc
      else
        let d := if f.zero then 0 else dst / 2 ^ (32 * col) % 2 ^ 32
        let r := foldStep d (sext (row / 2 ^ (32 * col)) 32) (f.ea.getD i 0xFF) (f.eb.getD col 0xFF) (mxK f.fa) (mxK f.fb)
        let nonfinite := r.1 / 2 ^ 23 % 256 == 255
        ({ acc.1 with
             els := acc.1.els ||| BitVec.ofNat 2048 (r.1 * 2 ^ (32 * col))
             write := if f.sup && nonfinite then acc.1.write else acc.1.write ||| BitVec.twoPow 64 col },
          acc.2 ||| BitVec.ofNat 4 r.2))
    ({ row := i, els := 0, write := 0
       bad := (List.range 4).foldl (fun b k => if bad k then b ||| BitVec.twoPow 4 k else b) 0 }, 0)

/-- The core-side work of one fold on cycle t: its row's read, its row's write. -/
def Core.foldWork (t : Nat) (c : Core) (f : Fold) : Core × Fold :=
  match f.start with
  | none => (c, f)
  | some st =>
    let i := t - st
    -- read and compute row i
    let (c1, f1) :=
      if i < f.rows ∧ f.snapPoison.getLsbD i = false then
        let ls := linesOf (f.dst + 256 * i) 256
        let r := c.foldRow f i
        let c0 := if f.zero then c else
          match c.firstFault ls with
          | some w => (ls.foldl (fun c l => c.passLine l) c).recordFault 1 f.bank w 0 0 i f.ctx
          | none => ls.foldl (fun c l => c.passLine l) c
        (c0, { f with out := f.out ++ [r.1], bits := f.bits ||| r.2 })
      else (c, f)
    -- write row i - 8
    match takeFirst (fun (r : FoldRow) => r.row + 8 == i) f1.out with
    | none => (c1, f1)
    | some (r, rest) =>
      let ls := linesOf (f.dst + 256 * r.row) 256
      let bad := fun (k : Nat) => r.bad.getLsbD k || ((ls[k]?).bind c1.opFault).isSome
      let cells := (List.range 64).flatMap fun col =>
        if r.write.getLsbD col && !bad (col / 16) then
          (List.range 4).map (fun b => (f.dst + 256 * r.row + 4 * col + b, BitVec.ofNat 8 (r.els.toNat / 2 ^ (32 * col + 8 * b))))
        else []
      let c2 := match c1.firstFault ls with
        | some w => c1.recordFault 1 f.bank w 0 0 r.row f.ctx
        | none => c1
      ((c2.bankWrite cells).1, { f1 with out := rest })

/-- The fold unit's work on cycle t. -/
def Core.foldCycle (t : Nat) (c : Core) : Core :=
  c.fold.foldl (fun c f =>
    let r := c.foldWork t f
    { r.1 with fold := r.1.fold ++ [r.2] }) { c with fold := [] }

/-- Starts a fold on cycle t: the snapshot, the clear of its status entry, and its first row (R166, R167). -/
def Core.foldBegin (t : Nat) (f : Fold) (c : Core) : Core × Fold :=
  let ls := linesOf f.sa f.rows ++ linesOf f.sb 64
  let f1 := { f with
    start := some t
    snap := (List.range 32).map (fun r => tget 0 c.acc (32 * f.bank + r))
    snapPoison := tget 0 c.accPoison f.bank
    ea := c.scaleBytes f.sa f.rows
    eb := c.scaleBytes f.sb 64 }
  let c1 := ls.foldl (fun c l => c.passLine l) c
  let c2 := match c.firstFault ls with
    | some w => c1.recordFault 1 f.bank w 1 0 0 f.ctx
    | none => c1
  let clear : Pending := ⟨t + f.shift, f.issued, f.ctx, .tsClear (2 + f.j)⟩
  let c3 := if !f.zero then c2 else if f.shift = 0 then c2.landOne clear else { c2 with pending := c2.pending ++ [clear] }
  c3.foldWork t f1

/-- Whether a fold still holds the unit on cycle t: waiting, or not yet past start + rows (R166). -/
def Fold.holds (t : Nat) (f : Fold) : Bool :=
  match f.start with
  | none => true
  | some c => decide (t < c + f.rows)

def State.execScacWith (zero : Bool) (d a b : BitVec 5) (k : BitVec 1) (j : BitVec 3) (s : State) : Out :=
  s.limit (okFold (s.rs d) (s.rs a) (s.rs b)) fun s =>
    s.legal .notExchange fun s =>
      let held := s.hereCore.fold.filter (Fold.holds s.t)
      if 2 ≤ held.length then .next s.engineFull
      else
        let f : Fold := {
          ctx := s.cur.x, issued := s.t, zero := zero, bank := k.toNat, dst := bits (s.rs d).toNat 19 0
          rows := bits (s.rs d).toNat 25 20, sup := (s.rs d).getLsbD 26, sa := bits (s.rs a).toNat 19 0
          fa := bits (s.rs a).toNat 21 20, sb := bits (s.rs b).toNat 19 0, fb := bits (s.rs b).toNat 21 20, j := j.toNat }
        let start := match held with
          | g :: _ => g.start.getD g.planned + g.rows
          | [] => s.t
        let f := { f with planned := start }
        s.engineSchedule false (f.schedule start) fun s =>
          .next (s.modHereCore fun c =>
            if held.isEmpty then
              let r := c.foldBegin s.t f
              { r.1 with fold := r.1.fold ++ [r.2] }
            else { c with fold := c.fold ++ [f] })

/-- SCAC (R165). -/
def execScac (d a b : BitVec 5) (k : BitVec 1) (j : BitVec 3) (s : State) : Out := s.execScacWith false d a b k j
/-- SCACZ (R165). -/
def execScacz (d a b : BitVec 5) (k : BitVec 1) (j : BitVec 3) (s : State) : Out := s.execScacWith true d a b k j

/-! ### Reading and clearing state (R168 to R170) -/

/-- ACCRD (R168): 32 elements of one row; a poisoned row is read as it stands. -/
def execAccrd (d a : BitVec 5) (k h : BitVec 1) (s : State) : Out :=
  s.legal .notExchange fun s =>
    let row : BitVec 2048 := tget 0 s.hereCore.acc (32 * k.toNat + a.toNat)
    .next (s.emit 4 (.v d.toNat) (BitVec.allOnes 1024) (row.extractLsb' (1024 * h.toNat) 1024) 0)

/-- Whether an MMA that has not landed, or a waiting fold, names the bank (R169). -/
def State.bankBusy (s : State) (b : Nat) : Bool :=
  let c := s.hereCore
  let lands := fun (p : Pending) => match p.upd with
    | .bankLand k _ _ _ => k == b
    | _ => false
  c.anvil.any (fun m => m.bank == b) || c.fold.any (fun f => f.start.isNone && f.bank == b)
    || c.pending.any (fun p => lands p && decide (s.t < p.due)) || c.toReplay.any lands

/-- ACCZ (R169). -/
def execAccz (k : BitVec 1) (s : State) : Out :=
  s.legal .notExchange fun s =>
    s.require (!s.bankBusy k.toNat) codeAccBusy fun s => .next (s.update 1 (.bankClear k.toNat))

/-- A tile status entry as a read on cycle t returns it (04 R99): conditions count from their readable cycle. -/
def Core.tsRead (c : Core) (t e : Nat) : Word :=
  c.pending.foldl (fun v p => match p.upd with
    | .tsCond k bits sat => if k = e ∧ p.due ≤ t ∧ !(c.ctx p.ctx).keepsApart p.issued then tsMerge v bits sat else v
    | _ => v) (tget 0 c.ts e)

/-- The value limit of MTS (R158): a multiple of 4. -/
def State.okMts (s : State) (a : BitVec 5) (im : BitVec 9) : Bool := s.addrC a im.toInt % 4 == 0

/-- MTS (R170). -/
def execMts (c : BitVec 1) (e : BitVec 4) (a : BitVec 5) (im : BitVec 9) (s : State) : Out :=
  s.limit (s.okMts a im) fun s =>
    s.legal .notExchange fun s =>
      let w := s.hereCore.tsRead s.t e.toNat
      let s1 := if c = 1 then s.update 1 (.tsClear e.toNat) else s
      s1.store (aliasClass a) (s.addrC a im.toInt) 4 (leBytes 4 w.toNat)

/-! ### Rings (R156) -/

/-- The value limits of RSET, the first check of its row (R156). -/
def okRset (a b : Word) : Bool :=
  bits a.toNat 7 0 == 0 && a.toNat / 2 ^ 20 == 0 && b.toNat / 2 ^ 20 == 0
    && decide (bits a.toNat 19 0 + 256 * bits b.toNat 19 16 * bits b.toNat 15 0 ≤ spadBytes)

/-- RSET. -/
def execRset (q : BitVec 3) (a b : BitVec 5) (s : State) : Out :=
  s.legal .notExchange fun s =>
    s.require (okRset (s.rs a) (s.rs b)) codeOperandIllegal fun s =>
      s.require (s.hereCore.claim q.toNat == 0) codeRingBusy fun s =>
        .next (s.update 1 (.ringSet q.toNat
          { base := bits (s.rs a).toNat 19 0, size := bits (s.rs b).toNat 15 0, tile := bits (s.rs b).toNat 19 16 }))

/-- The first check of RADV's row: the ring is enabled. -/
def State.okRadv (s : State) (q : BitVec 3) : Bool := (s.hereCore.ring q.toNat).size != 0

/-- RADV. -/
def execRadv (q : BitVec 3) (im : BitVec 9) (s : State) : Out :=
  s.limit (im != 0) fun s => s.legal .notExchange fun s =>
    s.require (s.okRadv q) codeOperandIllegal fun s =>
      let r := s.hereCore.ring q.toNat
      s.require (r.count + im.toNat ≤ r.size) codeRingOverrun fun s => .next (s.update 1 (.ringFill q.toNat im.toNat))

/-- RPOP. -/
def execRpop (q : BitVec 3) (im : BitVec 9) (s : State) : Out :=
  s.limit (im != 0) fun s =>
    s.legal .notExchange fun s =>
      s.require (s.hereCore.claim q.toNat == 0) codeRingBusy fun s =>
        s.require (im.toNat ≤ (s.hereCore.ring q.toNat).count) codeRingUnderrun fun s =>
          .next (s.update 1 (.ringPop q.toNat im.toNat))

end Sys2Proof.Machine
end

