-- ==== Sys2Proof/Machine/Crypto.lean ====
section
/-! DEFINITION. The published algorithms that the spec names (00 R404, 08 R191, 15 R347, 16 R367): CRC-64/ECMA,
CRC-32C, SM3, SM4 in counter mode and in GCM, and SM2. -/

namespace Sys2Proof.Machine

/-! ### CRCs -/

/-- One bit of a CRC-64 register, most significant bit first. -/
def crc64Bit (r : Nat) : Nat :=
  if r / 2 ^ 63 % 2 = 1 then Nat.xor (r * 2 % 2 ^ 64) 0x42F0E1EBA9EA3693 else r * 2 % 2 ^ 64

/-- CRC-64/ECMA with the parameters of R404. -/
def crc64 (bs : List Byte) : Nat :=
  bs.foldl (fun r b => (List.range 8).foldl (fun r _ => crc64Bit r) (Nat.xor r (b.toNat * 2 ^ 56))) 0

/-- CRC-32C, reflected, with initial value and final XOR of ones (15 R347). -/
def crc32c (bs : List Byte) : Nat :=
  Nat.xor 0xFFFFFFFF (bs.foldl (fun r b =>
    (List.range 8).foldl (fun r _ => if r % 2 = 1 then Nat.xor (r / 2) 0x82F63B78 else r / 2) (Nat.xor r b.toNat))
    0xFFFFFFFF)

/-! ### Big-endian numbers of the SM algorithms -/

/-- The number whose most significant byte stands first. -/
def beNat (bs : List Byte) : Nat := bs.foldl (fun n b => 256 * n + b.toNat) 0

/-- The n low bytes of a number, most significant first. -/
def beBytes (n v : Nat) : List Byte := (leBytes n v).reverse

/-- Rotation of a 32-bit number to the left. -/
def rol32 (x n : Nat) : Nat := x * 2 ^ (n % 32) % 2 ^ 32 + x / 2 ^ (32 - n % 32)

/-! ### SM3 -/

def sm3P0 (x : Nat) : Nat := Nat.xor (Nat.xor x (rol32 x 9)) (rol32 x 17)
def sm3P1 (x : Nat) : Nat := Nat.xor (Nat.xor x (rol32 x 15)) (rol32 x 23)

/-- The message expanded to 68 words. -/
def sm3Expand (w : Array Nat) : Array Nat :=
  (List.range 52).foldl (fun w i =>
    let j := i + 16
    let a := Nat.xor (Nat.xor (w.getD (j - 16) 0) (w.getD (j - 9) 0)) (rol32 (w.getD (j - 3) 0) 15)
    w.push (Nat.xor (Nat.xor (sm3P1 a) (rol32 (w.getD (j - 13) 0) 7)) (w.getD (j - 6) 0))) w

/-- One round on the eight registers. -/
def sm3Round (w : Array Nat) (v : List Nat) (j : Nat) : List Nat :=
  match v with
  | [a, b, c, d, e, f, g, h] =>
    let tj := if j < 16 then 0x79CC4519 else 0x7A879D8A
    let ss1 := rol32 ((rol32 a 12 + e + rol32 tj j) % 2 ^ 32) 7
    let ss2 := Nat.xor ss1 (rol32 a 12)
    let ff := if j < 16 then Nat.xor (Nat.xor a b) c else Nat.lor (Nat.lor (Nat.land a b) (Nat.land a c)) (Nat.land b c)
    let gg := if j < 16 then Nat.xor (Nat.xor e f) g else Nat.lor (Nat.land e f) (Nat.land (Nat.xor e 0xFFFFFFFF) g)
    let tt1 := (ff + d + ss2 + Nat.xor (w.getD j 0) (w.getD (j + 4) 0)) % 2 ^ 32
    let tt2 := (gg + h + ss1 + w.getD j 0) % 2 ^ 32
    [tt1, a, rol32 b 9, c, sm3P0 tt2, e, rol32 f 19, g]
  | _ => v

/-- Compresses one 64-byte block. -/
def sm3Block (v : List Nat) (b : List Byte) : List Nat :=
  let w := sm3Expand ((List.range 16).foldl (fun a i => a.push (beNat ((b.drop (4 * i)).take 4))) #[])
  List.zipWith Nat.xor v ((List.range 64).foldl (sm3Round w) v)

def sm3Blocks : Nat → List Nat → List Byte → List Nat
  | 0, v, _ => v
  | k + 1, v, b => sm3Blocks k (sm3Block v (b.take 64)) (b.drop 64)

/-- SM3 of a byte string. -/
def sm3 (m : List Byte) : List Byte :=
  let z := (119 - m.length % 64) % 64
  let p := m ++ 0x80#8 :: List.replicate z 0 ++ beBytes 8 (8 * m.length)
  (sm3Blocks (p.length / 64)
    [0x7380166F, 0x4914B2B9, 0x172442D7, 0xDA8A0600, 0xA96F30BC, 0x163138AA, 0xE38DEE4D, 0xB0FB0E4E] p).flatMap (beBytes 4)

/-- A digest as a 256-bit number whose byte 0 is the first (least significant) byte of the string. -/
def digestOf (m : List Byte) : BitVec 256 := BitVec.ofNat 256 (leNat (sm3 m))

/-! ### SM4 -/

/-- The S-box, its byte 0 most significant. -/
def sm4Sbox : Nat :=
  0xd690e9fecce13db716b614c228fb2c052b679a762abe04c3aa441326498606999c4250f491ef987a33540b43edcfac62e4b31ca9c908e89580df94fa758f3fa64707a7fcf37317ba83593c19e6854fa8686b81b27164da8bf8eb0f4b70569d351e240e5e6358d1a225227c3b01217887d40046579fd327524c3602e7a0c4c89eeabf8ad240c738b5a3f7f2cef96115a1e0ae5da49b341a55ad933230f58cb1e31df6e22e8266ca60c02923ab0d534e6fd5db3745defd8e2f03ff6a726d6c5b518d1baf92bbddbc7f11d95c411f105ad80ac13188a5cd7bbd2d74d012b8e5b4b08969974a0c96777e65b9f109c56ec68418f07dec3adc4d2079ee5f3ed7cb3948

def sm4S (x : Nat) : Nat := sm4Sbox / 2 ^ (8 * (255 - x)) % 256

/-- The S-box on the four bytes of a word. -/
def sm4Tau (x : Nat) : Nat :=
  (List.range 4).foldl (fun n i => n + sm4S (x / 2 ^ (8 * i) % 256) * 2 ^ (8 * i)) 0

def sm4L (b : Nat) : Nat := Nat.xor (Nat.xor (Nat.xor b (rol32 b 2)) (Nat.xor (rol32 b 10) (rol32 b 18))) (rol32 b 24)
def sm4L' (b : Nat) : Nat := Nat.xor (Nat.xor b (rol32 b 13)) (rol32 b 23)

/-- The constant CK of a round: bytes (4i + j)·7 mod 256, the first most significant. -/
def sm4Ck (i : Nat) : Nat := (List.range 4).foldl (fun n j => 256 * n + (4 * i + j) * 7 % 256) 0

/-- One step of four words under a round function. -/
def sm4Step (f : Nat → Nat) (k : Nat) : List Nat → List Nat
  | [a, b, c, d] => [b, c, d, Nat.xor a (f (Nat.xor (Nat.xor b c) (Nat.xor d k)))]
  | v => v

/-- The 32 round keys of a 16-byte key. -/
def sm4Keys (key : List Byte) : List Nat :=
  let v0 := List.zipWith Nat.xor ((List.range 4).map (fun i => beNat ((key.drop (4 * i)).take 4)))
    [0xA3B1BAC6, 0x56AA3350, 0x677D9197, 0xB27022DC]
  ((List.range 32).foldl (fun (p : List Nat × List Nat) i =>
    let v := sm4Step (fun x => sm4L' (sm4Tau x)) (sm4Ck i) p.1
    (v, p.2 ++ [v.getD 3 0])) (v0, [])).2

/-- SM4 of one 16-byte block under round keys. -/
def sm4Block (rk : List Nat) (b : List Byte) : List Byte :=
  let v0 := (List.range 4).map (fun i => beNat ((b.drop (4 * i)).take 4))
  ((rk.foldl (fun v k => sm4Step (fun x => sm4L (sm4Tau x)) k v) v0).reverse).flatMap (beBytes 4)

def xorBytes (a b : List Byte) : List Byte := List.zipWith (fun x y => x ^^^ y) a b

/-- n blocks of 16 bytes of a list. -/
def blocks16 (n : Nat) (b : List Byte) : List (List Byte) := (List.range n).map (fun i => (b.drop (16 * i)).take 16)

/-! ### GCM with a 96-bit IV -/

/-- Multiplication in the field of GCM, bit 0 of the standard being bit 127 here. -/
def gmul (x y : Nat) : Nat :=
  ((List.range 128).foldl (fun (p : Nat × Nat) i =>
    let z := if x / 2 ^ (127 - i) % 2 = 1 then Nat.xor p.1 p.2 else p.1
    (z, if p.2 % 2 = 1 then Nat.xor (p.2 / 2) (0xE1 * 2 ^ 120) else p.2 / 2)) (0, y)).1

/-- GHASH of the padded additional data, the padded ciphertext and their lengths. -/
def ghash (h : Nat) (aad c : List Byte) : Nat :=
  let pad := fun (b : List Byte) => b ++ List.replicate ((16 - b.length % 16) % 16) 0
  let all := pad aad ++ pad c ++ beBytes 8 (8 * aad.length) ++ beBytes 8 (8 * c.length)
  (blocks16 (all.length / 16) all).foldl (fun y b => gmul (Nat.xor y (beNat b)) h) 0

/-- A counter block: the 12-byte IV and a 32-bit count. -/
def gcmCtr (iv : List Byte) (n : Nat) : List Byte := iv.take 12 ++ beBytes 4 n

/-- GCM's keystream applied to data from its block `i` on. -/
def gcmCrypt (key iv : List Byte) (i : Nat) (d : List Byte) : List Byte :=
  let rk := sm4Keys key
  xorBytes d ((List.range ((d.length + 15) / 16)).flatMap (fun j => sm4Block rk (gcmCtr iv (2 + i + j))))

/-- GCM's 16-byte tag over additional data and ciphertext. -/
def gcmTag (key iv aad c : List Byte) : List Byte :=
  let rk := sm4Keys key
  let h := beNat (sm4Block rk (List.replicate 16 0))
  xorBytes (beBytes 16 (ghash h aad c)) (sm4Block rk (gcmCtr iv 1))

/-! ### SM2 -/

abbrev sm2P : Nat := 0xFFFFFFFEFFFFFFFFFFFFFFFFFFFFFFFFFFFFFFFF00000000FFFFFFFFFFFFFFFF
abbrev sm2A : Nat := 0xFFFFFFFEFFFFFFFFFFFFFFFFFFFFFFFFFFFFFFFF00000000FFFFFFFFFFFFFFFC
abbrev sm2B : Nat := 0x28E9FA9E9D9F5E344D5A9E4BCF6509A7F39789F515AB8F92DDBCBD414D940E93
abbrev sm2N : Nat := 0xFFFFFFFEFFFFFFFFFFFFFFFFFFFFFFFF7203DF6B21C6052B53BBF40939D54123
abbrev sm2Gx : Nat := 0x32C4AE2C1F1981195F9904466A39C9948FE30BBFF2660BE1715A4589334C74C7
abbrev sm2Gy : Nat := 0xBC3736A2F4F6779C59BDCEE36B692153D0A9877CC62A474002DF32E52139F0A0

/-- A power modulo m by squaring. -/
def powMod (m : Nat) : Nat → Nat → Nat → Nat
  | 0, _, _ => 1
  | k + 1, b, e => if e = 0 then 1 else
      let r := powMod m k (b * b % m) (e / 2)
      if e % 2 = 1 then r * b % m else r

/-- The inverse modulo a prime. -/
def invMod (m x : Nat) : Nat := powMod m 256 (x % m) (m - 2)

/-- A point of the curve; none is the point at infinity. -/
abbrev Point := Option (Nat × Nat)

def sm2Add : Point → Point → Point
  | none, q => q
  | p, none => p
  | some (x1, y1), some (x2, y2) =>
    if x1 = x2 ∧ (y1 + y2) % sm2P = 0 then none
    else
      let l := if x1 = x2 then (3 * x1 * x1 + sm2A) * invMod sm2P (2 * y1) % sm2P
        else (y2 + sm2P - y1) * invMod sm2P (x2 + sm2P - x1) % sm2P
      let x3 := (l * l + 2 * sm2P - x1 - x2) % sm2P
      some (x3, (l * (x1 + sm2P - x3) + sm2P - y1) % sm2P)

/-- A multiple of a point. -/
def sm2Mul (k : Nat) (p : Point) : Point :=
  (List.range 256).foldl (fun r i =>
    let d := sm2Add r r
    if k / 2 ^ (255 - i) % 2 = 1 then sm2Add d p else d) none

def sm2G : Point := some (sm2Gx, sm2Gy)

/-- Whether a point lies on the curve. -/
def sm2OnCurve (x y : Nat) : Bool :=
  x < sm2P && y < sm2P && (y * y) % sm2P == (x * x * x + sm2A * x + sm2B) % sm2P

/-- The hash Z of an identifier and a public key. -/
def sm2Z (id : List Byte) (x y : Nat) : List Byte :=
  sm3 (beBytes 2 (8 * id.length) ++ id ++ [sm2A, sm2B, sm2Gx, sm2Gy, x, y].flatMap (beBytes 32))

/-- The number e that a signature over a message signs. -/
def sm2E (id : List Byte) (x y : Nat) (m : List Byte) : Nat := beNat (sm3 (sm2Z id x y ++ m))

/-- The signature (r, s), 64 bytes, under a private key with the nonce k. -/
def sm2Sign (id : List Byte) (d k : Nat) (m : List Byte) : List Byte :=
  match sm2Mul d sm2G with
  | none => List.replicate 64 0
  | some (px, py) =>
    match sm2Mul k sm2G with
    | none => List.replicate 64 0
    | some (x1, _) =>
      let r := (sm2E id px py m + x1) % sm2N
      let s := invMod sm2N (1 + d) * (k + sm2N * sm2N - r * d % sm2N) % sm2N
      beBytes 32 r ++ beBytes 32 s

/-- Whether a signature verifies under a public key. -/
def sm2Verify (id : List Byte) (x y : Nat) (m sig : List Byte) : Bool :=
  let r := beNat (sig.take 32)
  let s := beNat ((sig.drop 32).take 32)
  let t := (r + s) % sm2N
  if r = 0 ∨ sm2N ≤ r ∨ s = 0 ∨ sm2N ≤ s ∨ t = 0 ∨ sm2OnCurve x y = false then false
  else
    match sm2Add (sm2Mul s sm2G) (sm2Mul t (some (x, y))) with
    | none => false
    | some (x1, _) => (sm2E id x y m + x1) % sm2N == r

/-- The key stream of SM2 encryption. -/
def sm2Kdf (z : List Byte) (n : Nat) : List Byte :=
  ((List.range ((n + 31) / 32)).flatMap (fun i => sm3 (z ++ beBytes 4 (i + 1)))).take n

/-- Decrypts C1 (65 bytes), C3 (32 bytes), C2; none where it does not verify. -/
def sm2Decrypt (d : Nat) (c : List Byte) : Option (List Byte) :=
  let x := beNat ((c.drop 1).take 32)
  let y := beNat ((c.drop 33).take 32)
  let c3 := (c.drop 65).take 32
  let c2 := c.drop 97
  if c.headD 0 ≠ 4 ∨ sm2OnCurve x y = false then none
  else
    match sm2Mul d (some (x, y)) with
    | none => none
    | some (x2, y2) =>
      let m := xorBytes c2 (sm2Kdf (beBytes 32 x2 ++ beBytes 32 y2) c2.length)
      if sm3 (beBytes 32 x2 ++ m ++ beBytes 32 y2) = c3 then some m else none

end Sys2Proof.Machine
end

