-- ==== Sys2Proof/Machine/Hbm.lean ====
section
/-! DEFINITION. HBM (08 R189 to R192), its protection and its integrity-tree counters (11 R268, R269), and the
translation of segments and pages (11 R250 to R252, R255). -/

namespace Sys2Proof.Machine

/-! ### Protected lines (08 R191, 11 R268, 16 R370) -/

/-- The memory encryption key of a world: the first 16 bytes of its memory keys (16 R369). -/
def State.memKey (s : State) (w : Nat) : Option (List Byte) :=
  (tget {} s.assay.keys w).memory.map (fun k => leBytes 16 k.toNat)

/-- The MAC key of a world: the other 16 bytes of its memory keys. -/
def State.macKey (s : State) (w : Nat) : Option (BitVec 128) :=
  (tget {} s.assay.keys w).memory.map (fun k => k.extractLsb' 128 128)

/-- The counter block of chunk c of line l under counter n = M·2^7 + j (11 R268). -/
def ctrBlock (l n c : Nat) : List Byte :=
  beBytes 16 (l % 2 ^ 35 * 2 ^ 93 + n / 128 % 2 ^ 64 * 2 ^ 29 + n % 128 * 2 ^ 22 + c * 2 ^ 20)

/-- The keystream of a line. -/
def lineStream (key : List Byte) (l n : Nat) : List Byte :=
  let rk := sm4Keys key
  (List.range 4).flatMap (fun c => sm4Block rk (ctrBlock l n c))

def Hbm.line (h : Hbm) (l : Nat) : HbmLine := tget {} h.lines l
def Hbm.bytes (h : Hbm) (l : Nat) : List Byte := Memory.readN h.cells (64 * l) 64

/-- Replaces what a line's cells and its line state hold. -/
def Hbm.put (l : Nat) (bs : List Byte) (m : HbmLine) (h : Hbm) : Hbm :=
  { cells := Memory.writeN h.cells (64 * l) bs, lines := tset {} h.lines l m }

/-- The same for a timed write: a later place of R190's order that has already written stands. -/
def Hbm.putOrdered (l : Nat) (bs : List Byte) (m : HbmLine) (h : Hbm) : Hbm :=
  if (h.line l).key ≤ m.key then h.put l bs m else h

/-- The number of the node that covers child `i` of level `k`. -/
def nodeNo (k i : Nat) : Nat := k * 2 ^ 40 + i

/-- A node's 64-byte line (11 R268). -/
def Node.bytes (x : Node) : List Byte :=
  leBytes 8 x.major.toNat ++ leBytes 56 ((List.range 64).foldl (fun v j => v + tget 0 x.minors j % 128 * 2 ^ (7 * j)) 0)

/-- The counter that covers child j of a node (11 R268). -/
def Node.counter (x : Node) (j : Nat) : Nat := x.major.toNat * 128 + tget 0 x.minors j

def State.node (s : State) (n : Nat) : Node := tget {} s.nodes n

/-- The MAC of a node under its counter in its parent (11 R268). -/
def State.nodeMac (s : State) (n : Nat) : BitVec 56 :=
  Config.nodeMac n ((s.node (nodeNo (n / 2 ^ 40 + 1) (n % 2 ^ 40 / 64))).counter (n % 64)) (s.node n).bytes

/-- Whether every node on the path of a data line verifies; the level-6 root is held on chip (08 R191, R192). -/
def State.pathOk (s : State) (l : Nat) : Bool :=
  (List.range 5).all fun k =>
    match (s.node (nodeNo (k + 1) (l / 64 ^ (k + 1)))).mac with
    | none => true
    | some m => m == s.nodeMac (nodeNo (k + 1) (l / 64 ^ (k + 1)))

/-- Whether a protected line verifies for a world (08 R192, 16 R370): the world wrote it last, its MAC under the world's keys stands
and its path verifies. -/
def State.verifies (s : State) (h : Hbm) (w l : Nat) : Bool :=
  (h.line l).owner == some w &&
    (match s.macKey w with
    | some k => (h.line l).mac == Config.lineMac k l (h.line l).ctr (h.bytes l)
    | none => false) && s.pathOk l

/-- A line as an access on behalf of world w reads it: a protected line that does not verify reads as poison. -/
def State.readHbm (s : State) (h : Hbm) (w l : Nat) (prot : Bool) : Line :=
  let m := h.line l
  if prot then
    if s.verifies h w l then
      match s.memKey w with
      | some k => { Line.ofBytes (xorBytes (h.bytes l) (lineStream k l m.ctr)) 0 m.sealed with poison := m.poison }
      | none => Line.poisoned 0
    else Line.poisoned 0
  else { Line.ofBytes (h.bytes l) 0 false with poison := m.poison }

/-- Encrypts and authenticates a data line again under another counter (11 R269). -/
def State.recrypt (l ctr : Nat) (s : State) : State :=
  let m := s.hbm.line l
  match m.owner with
  | none => s
  | some w =>
    match s.memKey w, s.macKey w with
    | some k, some a =>
      let bs := xorBytes (xorBytes (s.hbm.bytes l) (lineStream k l m.ctr)) (lineStream k l ctr)
      { s with hbm := s.hbm.put l bs { m with ctr := ctr, mac := Config.lineMac a l ctr bs } }
    | _, _ => s

/-- Authenticates a node again, if its MAC is held. -/
def State.remac (force : Bool) (n : Nat) (s : State) : State :=
  let x := s.node n
  if force || x.mac.isSome then { s with nodes := tput s.nodes n { x with mac := some (s.nodeMac n) } } else s

/-- What a rekey does to a node (11 R269): the major counter advances, the minor counters return to 0, and the children are
encrypted, where they are data, and authenticated again. A child that does not verify before stays as it is. -/
def State.rekeyOnly (n : Nat) (s : State) : State :=
  let x := s.node n
  let s1 := { s with
    nodes := tput s.nodes n { x with major := x.major + 1, minors := [] }, rekeys := s.rekeys.filter (fun m => m != n) }
  let k := n / 2 ^ 40
  (List.range 64).foldl (fun t j =>
    let i := 64 * (n % 2 ^ 40) + j
    if k = 1 then
      match (s.hbm.line i).owner with
      | some w => if s.verifies s.hbm w i then t.recrypt i ((x.major + 1).toNat * 128) else t
      | none => t
    else
      let c := nodeNo (k - 1) i
      if (s.node c).mac == some (s.nodeMac c) then t.remac true c else t) s1

/-- Counts a write below node level k up to the root; a counter that reaches 112 schedules its node's rekey, and one that
would pass 127 waits for it, whose own write counts too (11 R269). -/
def State.bumpNodes : Nat → Nat → Nat → State → State
  | 0, _, _, s => s
  | d + 1, k, child, s =>
    let n := nodeNo k (child / 64)
    let s1 := if 127 ≤ tget 0 (s.node n).minors (child % 64) then
        State.bumpNodes d (k + 1) (child / 64) (s.rekeyOnly n) else s
    let nd := s1.node n
    let c := tget 0 nd.minors (child % 64) + 1
    let s2 := { s1 with
      nodes := tput s1.nodes n { nd with minors := tset 0 nd.minors (child % 64) c }
      rekeys := if c = 112 ∧ s1.rekeys.contains n = false then s1.rekeys ++ [n] else s1.rekeys }
    State.bumpNodes d (k + 1) (child / 64) s2

/-- Authenticates the nodes above a child again, from level k up to the one below the root. -/
def State.macPath : Nat → Nat → Nat → State → State
  | 0, _, _, s => s
  | d + 1, k, child, s => if 6 ≤ k then s else State.macPath d (k + 1) (child / 64) (s.remac true (nodeNo k (child / 64)))

/-- A write of a protected line (11 R269): its counter and those of the nodes written, and the MACs up the path. -/
def State.countWrite (l : Nat) (s : State) : State := (s.bumpNodes 6 1 l).macPath 6 1 l

/-- A rekey (11 R269), which writes its node and so counts in its parent. -/
def State.rekeyNode (n : Nat) (s : State) : State :=
  let k := n / 2 ^ 40
  let s1 := State.bumpNodes (6 - k) (k + 1) (n % 2 ^ 40) (s.rekeyOnly n)
  if 6 ≤ k then s1 else (s1.remac true n).macPath 6 (k + 1) (n % 2 ^ 40)

/-- What a write leaves in byte `o` of a 16-byte segment entry (00 R9, 11 R250): BUSY and TT stand, which no write of memory
changes, and reserved bits read as zero. -/
def segByte (o : Nat) (old new : Byte) : Byte :=
  match o with
  | 0 => (new &&& 0x1F) ||| (old &&& 0x20)
  | 2 | 3 => old
  | 8 => new &&& 0x0F
  | 1 | 9 | 10 | 11 | 15 => 0
  | _ => new

/-- Whether a line belongs to the segment table of a world that is ACTIVE or RESETTING. -/
def State.isSegLine (s : State) (l : Nat) : Bool :=
  s.worlds.any fun p => (p.2.state == 1 || p.2.state == 2) && p.2.segments == l / 1024

/-- The bytes that a plain write of a line leaves there. -/
def State.tableBytes (s : State) (l : Nat) (bs : List Byte) : List Byte :=
  if s.isSegLine l then ((List.range 64).zip ((s.hbm.bytes l).zip bs)).map fun p => segByte (p.1 % 16) p.2.1 p.2.2 else bs

/-- What a write on behalf of world w puts into a line: its cells, and its line state. -/
def State.sealLine (s : State) (w l : Nat) (prot : Bool) (x : Line) : List Byte × HbmLine :=
  if prot then
    let ctr := (s.node (nodeNo 1 (l / 64))).counter (l % 64)
    match s.memKey w, s.macKey w with
    | some k, some a =>
      let bs := xorBytes x.bytes (lineStream k l ctr)
      (bs, { sealed := x.sealed, owner := some w, ctr := ctr, mac := Config.lineMac a l ctr bs, poison := x.poison })
    | _, _ => (x.bytes, { poison := 0xFF })
  else (s.tableBytes l x.bytes, { poison := x.poison })

/-- Changes every timed engine command of the module. -/
def State.mapCmds (f : Cmd → Cmd) (s : State) : State :=
  { s with clusters := s.clusters.map fun p => (p.1, { p.2 with
      cores := p.2.cores.map fun q => (q.1, { q.2 with cmds := q.2.cmds.map f }) }) }

/-- Every timed engine command of the module, with its cluster. -/
def State.allCmds (s : State) : List (Nat × Cmd) :=
  s.clusters.flatMap fun p => p.2.cores.flatMap fun q => q.2.cmds.map (fun c => (p.1, c))

/-- Lines of a 64 KiB page. -/
abbrev pageLines : Nat := 1024

/-- The HBM line at a segment offset through a command's pages, and whether it is protected. -/
def Cmd.lineAt (c : Cmd) (wr : Bool) (off : Nat) : Option (Nat × Bool) :=
  match c.maps.find? (fun m => m.page == off / 65536) with
  | some m => if (if wr then m.wr else m.rd) then some (m.frame * pageLines + off % 65536 / 64, m.prot) else none
  | none => none

/-- Indices of the lines of a run of n lines from offset `off` that lie on HBM line `l`. -/
def Cmd.indicesOf (c : Cmd) (wr : Bool) (off n l : Nat) : List Nat :=
  c.maps.filterMap fun m =>
    if (if wr then m.wr else m.rd) && m.frame == l / pageLines then
      let o := m.page * 65536 + l % pageLines * 64
      if off ≤ o ∧ o < off + 64 * n then some ((o - off) / 64) else none
    else none

/-- A timed write of one HBM line at place `ord` of R190's order: HBM takes it unless a later place has written, and so
does what each later command reads; a later CPY.hbm that read the line writes its destination again. -/
def State.writeHbmTimed : Nat → Nat → Nat → Nat → Bool → Line → State → State
  | 0, _, _, _, _, _, s => s
  | fuel + 1, ord, w, l, prot, x, s =>
    let s0 := if prot then s.countWrite l else s
    let r := s0.sealLine w l prot x
    let m := { r.2 with key := ord + 1 }
    let later := s0.allCmds.filter (fun p => p.2.kind == .cpyHbm && decide (ord < p.2.order)
      && decide ((p.2.view.line l).key ≤ ord + 1))
    let s1 := State.mapCmds (fun c => if ord < c.order then { c with view := c.view.putOrdered l r.1 m } else c)
      { s0 with hbm := s0.hbm.putOrdered l r.1 m }
    later.foldl (fun s p =>
      (p.2.indicesOf false p.2.src p.2.n l).foldl (fun s i =>
        match p.2.lineAt true (p.2.dst + 64 * i), p.2.lineAt false (p.2.src + 64 * i) with
        | some (d, dp), some (_, sp) =>
          let y := s.readHbm (({ p.2 with view := p.2.view.putOrdered l r.1 m } : Cmd).view) p.2.world l sp
          s.writeHbmTimed fuel p.2.order p.2.world d dp y
        | _, _ => s) s) s1

/-- An untimed write of a whole line (08 R197). DESIGN CHOICE (log entry 55): 08 R197 allows a timed read whose span the write
changes to return the old or the new value of each aligned unit; here it returns the old one, which its command took at
issue. -/
def State.writeHbm (w l : Nat) (prot : Bool) (x : Line) (s : State) : State :=
  let s0 := if prot then s.countWrite l else s
  let r := s0.sealLine w l prot x
  { s0 with hbm := s0.hbm.put l r.1 { r.2 with key := (s0.hbm.line l).key } }

/-- Whether an earlier place of the order is still to write the line, directly or through a CPY.hbm (08 R190). -/
def State.awaited : Nat → Nat → Nat → State → Bool
  | 0, _, _, _ => false
  | fuel + 1, ord, l, s =>
    s.allCmds.any fun p =>
      let c := p.2
      let run := (s.cluster p.1).run
      decide (c.order < ord) &&
        match c.kind with
        | .hput => (c.indicesOf true c.dst c.n l).any (fun i => decide (run < c.issued + 1 + i / 2))
        | .sct =>
          ((List.range c.idx.length).zip c.idx).any fun q =>
            match q.2 with
            | none => false
            | some r =>
              (c.indicesOf true (r * (64 * 2 ^ c.z)) (2 ^ c.z) l).any (fun j =>
                decide (run < c.issued + 1 + (q.1 * 2 ^ c.z + j) / 2))
        | .cpyHbm =>
          (c.indicesOf true c.dst c.n l).any fun i =>
            match c.lineAt false (c.src + 64 * i) with
            | some (m, _) => State.awaited fuel c.order m s
            | none => false
        | _ => false

/-! ### Segments (11 R256) -/

/-- STATE of a segment; VBASE of a segment (11 R256). -/
def State.setSegState (w sg st : Nat) (s : State) : State :=
  let v := s.phys (s.segAddr w sg) 1
  s.pokeHbm (s.segAddr w sg) (leBytes 1 (v / 4 * 4 + st))
def State.setVbase (w sg v : Nat) (s : State) : State := s.pokeHbm (s.segAddr w sg + 4) (leBytes 4 v ++ leBytes 4 (v / 2 ^ 32))

/-! ### Pages (11 R251) -/

/-- Bytes of HBM, 1,152 GiB (00 R1, 08 R189), bytes of a large page (11 R251), and the top of the pool that worlds may map: the carve-out of a pool within HBM stands above it (08
R191). -/
abbrev hbmBytes : Nat := 1236950581248
abbrev largePage : Nat := 33554432
def poolTop : Nat :=
  hbmBytes - largePage * ((largePage - 1 + 10 * (Config.protectedPool % hbmBytes) / 64) / largePage)

/-- A leaf: physical address, large page, W and P. -/
structure Leaf where
  phys : Nat
  large : Bool
  write : Bool
  prot : Bool
  /-- Address of the entry itself. -/
  entry : Nat
  deriving DecidableEq, Repr

/-- The walk from the table at `tbl`, at level 4 - d. -/
def State.walkFrom : Nat → Nat → Nat → State → Option Leaf
  | 0, _, _, _ => none
  | d + 1, tbl, va, s =>
    let level := 3 - d
    let ea := tbl + 8 * (va / 2 ^ (16 + 9 * d) % 512)
    let e := s.phys ea 8
    let addr := bits e 40 12 * 4096
    if bits e 0 0 = 0 ∨ bits e 63 41 ≠ 0 ∨ bits e 11 4 ≠ 0 ∨ (bits e 1 1 = 1 ∧ level ≠ 2) ∨ poolTop ≤ addr then none
    else if bits e 1 1 = 1 then
      if addr % largePage ≠ 0 then none
      else some { phys := addr, large := true, write := bits e 2 2 == 1, prot := bits e 3 3 == 1, entry := ea }
    else if level = 3 then
      if addr % 65536 ≠ 0 then none
      else some { phys := addr, large := false, write := bits e 2 2 == 1, prot := bits e 3 3 == 1, entry := ea }
    else State.walkFrom d addr va s

/-- The address of the level-3 entry of a virtual address, or of the level-2 entry that maps a large page there (11 R257). -/
def State.leafEntry : Nat → Nat → Nat → State → Option Nat
  | 0, _, _, _ => none
  | d + 1, tbl, va, s =>
    let ea := tbl + 8 * (va / 2 ^ (16 + 9 * d) % 512)
    let e := s.phys ea 8
    let addr := bits e 40 12 * 4096
    if d = 0 then some ea
    else if bits e 0 0 = 0 ∨ bits e 63 41 ≠ 0 ∨ bits e 11 4 ≠ 0 ∨ poolTop ≤ addr then none
    else if bits e 1 1 = 1 then if d = 1 ∧ addr % largePage = 0 then some ea else none
    else State.leafEntry d addr va s

/-- The walk of a virtual address of a world; its permissions are judged by the caller. DESIGN CHOICE (log entry 73): an address of
2^52 or more, which a segment's VBASE and LIMIT can name, has no translation, so that its walk fails. -/
def State.walk (s : State) (w va : Nat) : Option Leaf :=
  if 2 ^ 52 ≤ va then none else s.walkFrom 4 ((s.world w).pageRoot * 4096) va

/-- A translation-buffer entry made from a leaf. -/
def Leaf.translation (f : Leaf) (w va : Nat) : Translation :=
  { world := w, page := if f.large then va / largePage else va / 65536, phys := f.phys, large := f.large, write := f.write
    prot := f.prot }

/-- Whether an entry maps a virtual address of a world. -/
def Translation.covers (t : Translation) (w va : Nat) : Bool :=
  t.world == w && t.page == (if t.large then va / largePage else va / 65536)

/-- The frame of the 64 KiB page that holds a virtual address. -/
def Translation.frame (t : Translation) (va : Nat) : Nat :=
  t.phys / 65536 + if t.large then va % largePage / 65536 else 0

/-! ### Translation buffers (11 R252) -/

def Cluster.tlb (c : Cluster) (e : Nat) : List Translation := if e = 0 then c.tlb0 else c.tlb1
def Cluster.modTlb (e : Nat) (f : List Translation → List Translation) (c : Cluster) : Cluster :=
  if e = 0 then { c with tlb0 := f c.tlb0 } else { c with tlb1 := f c.tlb1 }

/-- Fills an entry on demand: the least recently used unpinned one of 512 leaves. -/
def tlbFill (x : Translation) (b : List Translation) : List Translation :=
  if b.any (fun t => t.world == x.world && t.page == x.page && t.large == x.large) then b
  else
    let b1 := if 512 ≤ b.length then
        match takeFirst (fun (t : Translation) => !t.pinned) b with
        | some (_, r) => r
        | none => b
      else b
    if 512 ≤ b1.length then b1 else b1 ++ [x]

/-- Marks the entry of an address as used last. -/
def tlbTouch (w va : Nat) (b : List Translation) : List Translation :=
  match takeFirst (fun (t : Translation) => t.covers w va) b with
  | some (t, r) => r ++ [t]
  | none => b

/-- The page of a segment as an engine of a cluster maps it: in an exchange pitch through its pitons alone (11 R253). -/
def State.pageMap (s : State) (g e w sg q : Nat) : Option PageMap :=
  let sgm := s.segment w sg
  let va := (sgm.vbase + q) * 65536
  let pinOnly := s.inExchange g
  let live := sgm.state == 1 || sgm.state == 2
  match ((s.cluster g).tlb e).find? (fun t => t.covers w va && (!pinOnly || t.pinned)) with
  | some t =>
    some { page := q, frame := t.frame va, prot := t.prot, rd := live && sgm.rd, wr := live && sgm.wr && t.write }
  | none => none

/-- The pages that n bytes at an offset touch. -/
def pagesOf (off n : Nat) : List Nat :=
  (List.range ((off + n - 1) / 65536 + 1 - off / 65536)).map (fun i => off / 65536 + i)

/-- Fills an engine's buffer with the page of a segment where its walk succeeds (11 R252). -/
def State.fillPage (g e w sg q : Nat) (s : State) : State :=
  let va := ((s.segment w sg).vbase + q) * 65536
  match s.walk w va with
  | some f => s.modCluster g (Cluster.modTlb e (fun b => tlbTouch w va (tlbFill (f.translation w va) b)))
  | none => s

/-- The pages that a command uses become the most recently used ones of its engine's buffer (11 R252). -/
def State.touchPages (g e w sg : Nat) (pages : List Nat) (s : State) : State :=
  let base := (s.segment w sg).vbase
  s.modCluster g (Cluster.modTlb e (fun b => pages.foldl (fun b q => tlbTouch w ((base + q) * 65536) b) b))

/-- The translation of one byte range for an untimed request (11 R250, R251): the HBM page of each page touched, or the
status of its failure. -/
def State.untimedPages (s : State) (w sg off n : Nat) (wr : Bool) : Except Nat (List PageMap) :=
  let sgm := s.segment w sg
  if sgm.limit * 65536 < off + n then .error codeAddressRange
  else if !(sgm.state == 1 || sgm.state == 2) || !(if wr then sgm.wr else sgm.rd) then .error codeTranslationFault
  else
    (pagesOf off n).foldr (fun q acc =>
      match acc, s.walk w ((sgm.vbase + q) * 65536) with
      | .ok l, some f =>
        let va := (sgm.vbase + q) * 65536
        if wr && !f.write then .error codeTranslationFault
        else .ok ({ page := q, frame := (f.translation w va).frame va, prot := f.prot, rd := sgm.rd, wr := sgm.wr && f.write } :: l)
      | .ok _, none => .error codeTranslationFault
      | .error c, _ => .error c) (.ok [])

/-- Bytes of a segment through pages; a poisoned word makes the read fail. -/
def State.readSeg (s : State) (w : Nat) (ms : List PageMap) (off n : Nat) : List Byte × Bool :=
  let c : Cmd := { kind := .hget, ctx := 0, issued := 0, done := 0, maps := ms.map (fun m => { m with rd := true }) }
  let lines := linesOf off n
  let got := lines.map fun l =>
    match c.lineAt false (64 * l) with
    | some (h, p) => s.readHbm s.hbm w h p
    | none => Line.poisoned 0
  let bad := (List.zip lines got).any fun q =>
    (List.range 8).any (fun i => q.2.poison.getLsbD i && (wordsOf off n).contains (8 * q.1 + i))
  ((got.flatMap Line.bytes).drop (off % 64) |>.take n, bad)

/-- Writes bytes of a segment through pages: whole words clear poison, part of a poisoned word stores nothing (08 R175,
R192). -/
def State.writeSeg (w : Nat) (ms : List PageMap) (off : Nat) (bs : List Byte) (s : State) : State :=
  let c : Cmd := { kind := .hput, ctx := 0, issued := 0, done := 0, maps := ms.map (fun m => { m with wr := true }) }
  (linesOf off bs.length).foldl (fun s l =>
    match c.lineAt true (64 * l) with
    | none => s
    | some (h, p) =>
      let old := s.readHbm s.hbm w h p
      let cell := fun i => if off ≤ 64 * l + i ∧ 64 * l + i < off + bs.length then bs[64 * l + i - off]? else none
      let word := (List.range 8).foldl (fun (acc : List Byte × BitVec 8) j =>
        let ob := (old.bytes.drop (8 * j)).take 8
        let nb := (List.range 8).map (fun i => cell (8 * j + i))
        let whole := nb.all Option.isSome
        if old.poison.getLsbD j && !whole then (acc.1 ++ ob, acc.2 ||| BitVec.twoPow 8 j)
        else (acc.1 ++ List.zipWith (fun o n => n.getD o) ob nb, acc.2)) ([], 0)
      let whole := (List.range 64).all (fun i => (cell i).isSome)
      if p && !s.verifies s.hbm w h && !whole then s
      else s.writeHbm w h p { Line.ofBytes word.1 0 (old.sealed && !whole) with poison := word.2 }) s

end Sys2Proof.Machine
end

