-- ==== Sys2Proof/Machine/Engines.lean ====
section
/-! DEFINITION. The timed engines of the EN position (09 R213 to R222, R230, 10 R231 to R233): their instructions, what
each command does on each running cycle, the timed side-port accesses (08 R182), and the engines' events. -/

namespace Sys2Proof.Machine

/-! ### Queues (10 R231 to R233) -/

/-- The first fault of a list of checks. -/
def firstOf : List (Option Nat) → Option Nat
  | [] => none
  | some c :: _ => some c
  | none :: t => firstOf t

/-- Checks 1 to 3 of R202 on ranges of cores of the issuing cluster: range first, then lent banks. -/
def State.checkRanges (rs : List (Nat × Nat × Nat)) (s : State) (k : State → Out) : Out :=
  s.check (firstOf (rs.map (fun r => rangeFault r.2.1 r.2.2 1))) [] fun s =>
    s.check (firstOf (rs.map (fun r =>
      (s.core s.cur.g r.1).touchFault { lines := linesOf r.2.1 r.2.2, form := false }))) [] k

/-- Whether an engine of the core holds `cap` commands of the kinds it serves. -/
def State.coreQueueFull (s : State) (ks : List CmdKind) (cap : Nat) : Bool :=
  decide (cap ≤ (s.hereCore.cmds.filter (fun c => ks.contains c.kind && decide (s.t < c.done))).length)

/-- A copy engine that holds 64 commands, or has taken one on this cycle, is full (10 R232). -/
def State.copyEngineFull (s : State) (e : Nat) : Bool :=
  s.hereCluster.accepted.contains (s.t, e) ||
  decide (64 ≤ (s.hereCluster.cores.map (fun p =>
    (p.2.cmds.filter (fun c => hbmKinds.contains c.kind && c.engine == e && decide (s.t < c.done))).length)).sum)

/-- Enters a command in its queue. -/
def State.enqueue (c : Cmd) (s : State) : State := s.modHereCore fun k => { k with cmds := k.cmds ++ [c] }

/-- Judges the queue, then the access schedule, then takes the command. -/
def State.command (full : Bool) (self : Bool) (sch : List (Nat × Nat)) (c : Cmd) (s : State) (k : State → Out) : Out :=
  if full then .next s.engineFull
  else if (self && selfConflict sch) || s.hereCore.busy sch then .next s.bankConflict
  else k ((s.bookHere sch).enqueue c)

/-- Blocks of `size` units of n: index and length. -/
def blocks (n size : Nat) : List (Nat × Nat) :=
  (List.range ((n + size - 1) / size)).map (fun k => (k, Nat.min size (n - size * k)))

/-- The schedule of n bytes at `a` moved `size` bytes a cycle from cycle `t` on. -/
def streamSchedule (a n size t : Nat) : List (Nat × Nat) :=
  (blocks n size).flatMap (fun p => (linesOf (a + size * p.1) p.2).map (fun l => (t + p.1, l)))

/-! ### The local copy (R214) -/

/-- The operand limits of CPY. -/
def okCpy (d a b : Word) : Bool :=
  d.toNat % 64 == 0 && a.toNat % 64 == 0 && b.toNat % 64 == 0 && decide (d.toNat < spadBytes)
    && decide (a.toNat < spadBytes) && decide (64 ≤ b.toNat) && decide (b.toNat ≤ 65536)
    && (decide (a.toNat + b.toNat ≤ d.toNat) || decide (d.toNat + b.toNat ≤ a.toNat))

/-- CPY (R214). -/
def execCpy (d a b : BitVec 5) (s : State) : Out :=
  s.limit (okCpy (s.rs d) (s.rs a) (s.rs b)) fun s =>
    let dst := (s.rs d).toNat
    let src := (s.rs a).toNat
    let n := (s.rs b).toNat
    s.checkRanges [(s.cur.k, src, n), (s.cur.k, dst, n)] fun s =>
      s.command (s.coreQueueFull [.cpy] 4) true
        (streamSchedule src n 256 (s.t + 1) ++ streamSchedule dst n 256 (s.t + 3))
        { kind := .cpy, ctx := s.cur.x, issued := s.t, done := s.t + 2 + (n + 255) / 256, src := src, dst := dst, n := n }
        .next

/-! ### Copy engines (R215 to R218) -/

/-- The place of the issuing slot in R190's order: module cycle, global core number, engine. -/
def State.hbmOrder (s : State) (e : Nat) : Nat := (s.now * 4608 + gcore s.cur.g s.cur.k) * 2 + e

/-- W of R215 from the pages touched. -/
def waitOf (ms : List PageMap) : Nat := if ms.any (fun m => m.prot) then 1536 else 640

/-- The reserved slots that serve the cluster's timed copies, in every 64 slots (09 R216, 17 R388): its domain's portion of the
world's share as it was at the domain's admission (17 R387), the remainder to the one admitted first, or the world's share. -/
def State.slots (s : State) (g : Nat) : Nat :=
  let w := (s.cluster g).world
  match s.domainOf g with
  | none => (s.world w).hbmShare
  | some d =>
    let ids := (s.tasks.filter (fun t => t.timetable && t.world == w)).map (·.id)
    let n := Nat.max 1 ids.length
    d.share / n + if ids.all (fun i => decide (d.id ≤ i)) then d.share % n else 0

/-- What the bound of R216 is counted over: the domain, or the world in trigger mode. -/
def State.slotGroup (s : State) (g : Nat) : Nat :=
  match s.domainOf g with
  | none => 2 * (s.cluster g).world
  | some d => 2 * d.id + 1

/-- Whether the bytes moved in the last W cycles exceed what the slots deliver: 600 bytes per slot and cycle, the 48 TB/s
of R189 over 64 slots at 1.25 GHz (00 R1). -/
def State.overBound (s : State) (bytes w : Nat) : Bool :=
  decide (s.slots s.cur.g * 600 * w <
    bytes + ((s.moved.filter (fun m => m.1 == s.slotGroup s.cur.g && decide (s.now < m.2.1 + w))).map (fun m => m.2.2)).sum)

/-- Whether a translation wait blocks the bundle in trigger mode (R217, 11 R255, R256): a page not held, a permission that
is missing, a HELD segment or a full busy count. -/
def State.waitsFor (s : State) (e sg : Nat) (rd wr : Bool) (pages : List Nat) : Bool :=
  let w := s.hereCluster.world
  let x := s.segment w sg
  s.hereCluster.trigger && (x.state != 1 || decide (65535 ≤ x.busy) ||
    pages.any (fun q => match s.pageMap s.cur.g e w sg q with
      | some m => (rd && !m.rd) || (wr && !m.wr)
      | none => true))

/-- The bundle blocks for a translation; the walker is asked for the pages that the engine does not hold (R217, R252). -/
def State.blockForPages (e sg : Nat) (pages : List Nat) (s : State) : State :=
  let t := s.block
  { t with cur := { t.cur with walks := t.cur.walks ++ pages.map (fun q => (e, sg, q)) } }

/-- The pages as the engine maps them now. -/
def State.mapsOf (s : State) (e sg : Nat) (pages : List Nat) : List PageMap :=
  pages.filterMap (s.pageMap s.cur.g e s.hereCluster.world sg)

/-- Takes a copy-engine command once its checks of R217 have passed. DESIGN CHOICE (log entry 56): 08 R180 and R181 do not say whether
the reads of an SCT's index list and of its rows that meet in one bank on one cycle conflict; here a command's own accesses do
not. -/
def State.copyCommand (e sg : Nat) (bytes : Nat) (sch : List (Nat × Nat)) (c : Cmd) (s : State) : Out :=
  let c1 := { c with
    engine := e, seg := sg, world := s.hereCluster.world, order := s.hbmOrder e, view := s.hbm
    late := s.overBound bytes c.w }
  s.command (s.copyEngineFull e) false sch c1 fun s =>
    let s1 := (s.modHereCluster fun cl => { cl with accepted := cl.accepted ++ [(s.t, e)] }).touchPages s.cur.g e
      s.hereCluster.world sg (c.maps.map (·.page))
    .next { s1.addBusy s.hereCluster.world sg true with
      moved := s.moved.filter (fun m => decide (s.now < m.2.1 + 1536)) ++ [(s.slotGroup s.cur.g, s.now, bytes)] }

/-- The operand limits of HGET and HPUT. -/
def okHget (d a b : Word) : Bool :=
  bits d.toNat 19 0 % 64 == 0 && bits d.toNat 31 20 != 0 && a.toNat / 4096 == 0 && b.toNat % 64 == 0

/-- Whether the issuing world is confidential (11 R260). -/
def State.confidential (s : State) : Bool := (s.world s.hereCluster.world).flags % 2 == 1

/-- HGET (R215, R217). -/
def execHget (d a b : BitVec 5) (e : BitVec 1) (s : State) : Out :=
  s.limit (okHget (s.rs d) (s.rs a) (s.rs b)) fun s => s.legal .hbm fun s =>
    let dst := bits (s.rs d).toNat 19 0
    let n := bits (s.rs d).toNat 31 20
    let sg := (s.rs a).toNat
    let off := (s.rs b).toNat
    let pages := pagesOf off (64 * n)
    s.checkRanges [(s.cur.k, dst, 64 * n)] fun s =>
      s.require (off + 64 * n ≤ (s.segment s.hereCluster.world sg).limit * 65536) codeAddressRange fun s =>
        if s.waitsFor e.toNat sg true false pages then .next (s.blockForPages e.toNat sg pages)
        else
          let ms := s.mapsOf e.toNat sg pages
          let w := waitOf ms
          s.copyCommand e.toNat sg (64 * n) (streamSchedule dst (64 * n) 128 (s.t + w + 1))
            { kind := .hget, ctx := s.cur.x, issued := s.t, done := s.t + w + (n + 1) / 2, src := off, dst := dst, n := n
              w := w, maps := ms }

/-- HPUT (R215, R217). -/
def execHput (d a b : BitVec 5) (e : BitVec 1) (s : State) : Out :=
  s.limit (okHget (s.rs d) (s.rs a) (s.rs b)) fun s => s.legal .hbm fun s =>
    let src := bits (s.rs d).toNat 19 0
    let n := bits (s.rs d).toNat 31 20
    let sg := (s.rs a).toNat
    let off := (s.rs b).toNat
    let pages := pagesOf off (64 * n)
    s.checkRanges [(s.cur.k, src, 64 * n)] fun s =>
      s.require (off + 64 * n ≤ (s.segment s.hereCluster.world sg).limit * 65536) codeAddressRange fun s =>
        if s.waitsFor e.toNat sg false true pages then .next (s.blockForPages e.toNat sg pages)
        else
          let ms := s.mapsOf e.toNat sg pages
          let w := waitOf ms
          let c : Cmd := {
            kind := .hput, ctx := s.cur.x, issued := s.t, done := s.t + w + (n + 1) / 2, src := src, dst := off, n := n
            w := w, maps := ms }
          let plain := (List.range n).any fun i =>
            !s.hereCore.form (src / 64 + i) && ((c.lineAt true (off + 64 * i)).map (fun p => !p.2)).getD false
          s.require (!(s.confidential && plain)) codeFormPlainExport fun s =>
            s.copyCommand e.toNat sg (64 * n) (streamSchedule src (64 * n) 128 (s.t + 1)) c

/-- The operand limits of CPY.hbm. -/
def okCpyHbm (d a b : Word) : Bool :=
  let n := 64 * bits b.toNat 31 12
  d.toNat % 64 == 0 && a.toNat % 64 == 0 && n != 0
    && (decide (a.toNat + n ≤ d.toNat) || decide (d.toNat + n ≤ a.toNat))

/-- What CPY.hbm does at its issue cycle (R190, R215, R217): each source line as it stands, written to its destination. -/
def State.copyHbmNow (c : Cmd) (s : State) : State :=
  (List.range c.n).foldl (fun s i =>
    match c.lineAt true (c.dst + 64 * i) with
    | none => s.modHereCluster fun cl => { cl with copyErrors := satAdd cl.copyErrors 1 }
    | some (d, dp) =>
      let x := match c.lineAt false (c.src + 64 * i) with
        | some (l, p) => s.readHbm c.view c.world l p
        | none => Line.poisoned 0
      s.writeHbmTimed (s.allCmds.length + 1) c.order c.world d dp x) s

/-- CPY.hbm (R215, R217). -/
def execCpyHbm (d a b : BitVec 5) (e : BitVec 1) (s : State) : Out :=
  s.limit (okCpyHbm (s.rs d) (s.rs a) (s.rs b)) fun s => s.legal .hbm fun s =>
    let dst := (s.rs d).toNat
    let src := (s.rs a).toNat
    let sg := bits (s.rs b).toNat 11 0
    let n := bits (s.rs b).toNat 31 12
    let limit := (s.segment s.hereCluster.world sg).limit * 65536
    s.require (src + 64 * n ≤ limit && dst + 64 * n ≤ limit) codeAddressRange fun s =>
      let ps := pagesOf src (64 * n)
      let pd := pagesOf dst (64 * n)
      if s.waitsFor e.toNat sg true false ps || s.waitsFor e.toNat sg false true pd then
        .next (s.blockForPages e.toNat sg (distinct (ps ++ pd)))
      else
        let ms := s.mapsOf e.toNat sg (distinct (ps ++ pd))
        let w := waitOf ms
        let c : Cmd := {
          kind := .cpyHbm, ctx := s.cur.x, issued := s.t, done := s.t + 2 * w + (n + 1) / 2, src := src, dst := dst
          n := n, w := w, maps := ms }
        let leak := (List.range n).any fun i =>
          ((c.lineAt false (src + 64 * i)).map (fun p => p.2)).getD false
            && ((c.lineAt true (dst + 64 * i)).map (fun p => !p.2)).getD false
        s.require (!(s.confidential && leak)) codeFormPlainExport fun s =>
          match s.copyCommand e.toNat sg (64 * n) [] c with
          | .next s1 =>
            if s1.cur.trapped.isSome || s1.cur.blocked then .next s1
            else
              .next (s1.copyHbmNow { c with world := s.hereCluster.world, order := s.hbmOrder e.toNat, view := s.hbm })
          | o => o

/-- The operand limits of GTH and SCT (R218). -/
def okGth (d a b : Word) : Bool :=
  bits d.toNat 19 0 % 64 == 0 && bits d.toNat 31 20 != 0 && bits a.toNat 19 0 % 4 == 0 && a.toNat / 2 ^ 23 == 0
    && b.toNat / 4096 == 0

/-- The index words of a list as the core-side port reads them; none for a poisoned word (R218). -/
def Core.indexWords (c : Core) (a n : Nat) : List (Option Nat) :=
  (List.range n).map fun i =>
    if c.wordPoisoned ((a + 4 * i) / 8) then none else some (leNat (c.engineBytes (a + 4 * i) 4))

/-- The pages of the rows that a list of indices names, as far as they lie in the segment. -/
def indexPages (ix : List (Option Nat)) (r limit : Nat) : List Nat :=
  distinct (ix.filterMap fun i => match i with
    | some v => if v * r / 65536 < limit then some (v * r / 65536) else none
    | none => none)

/-- GTH and SCT (R218): the pages and W are judged from the index list as it stands at issue. -/
def State.execRows (sct : Bool) (d a b : BitVec 5) (e : BitVec 1) (s : State) : Out :=
  s.limit (okGth (s.rs d) (s.rs a) (s.rs b)) fun s => s.legal .hbm fun s =>
    let rows := bits (s.rs d).toNat 19 0
    let m := bits (s.rs d).toNat 31 20
    let lst := bits (s.rs a).toNat 19 0
    let z := bits (s.rs a).toNat 22 20
    let r := 64 * 2 ^ z
    let sg := (s.rs b).toNat
    let n := m * r
    s.checkRanges [(s.cur.k, rows, n), (s.cur.k, lst, 4 * m)] fun s =>
      let pages := indexPages (s.hereCore.indexWords lst m) r (s.segment s.hereCluster.world sg).limit
      if s.waitsFor e.toNat sg (!sct) sct pages then .next (s.blockForPages e.toNat sg pages)
      else
        let ms := s.mapsOf e.toNat sg pages
        let w := waitOf ms
        let c : Cmd := {
          kind := if sct then .sct else .gth, ctx := s.cur.x, issued := s.t, done := s.t + w + (n + 127) / 128, dst := rows
          n := m, other := lst, w := w, z := z, maps := ms }
        let plain := sct && ((List.range m).zip (s.hereCore.indexWords lst m)).any fun p =>
          match p.2 with
          | none => false
          | some v => (List.range (2 ^ z)).any fun j =>
            !s.hereCore.form (rows / 64 + p.1 * 2 ^ z + j) && ((c.lineAt true (v * r + 64 * j)).map (fun q => !q.2)).getD false
        s.require (!(s.confidential && plain)) codeFormPlainExport fun s =>
          s.copyCommand e.toNat sg n
            (streamSchedule lst (4 * m) 256 (s.t + 1)
              ++ streamSchedule rows n 128 (if sct then s.t + 1 else s.t + w + 1)) c

/-- GTH (R218). -/
def execGth (d a b : BitVec 5) (e : BitVec 1) (s : State) : Out := s.execRows false d a b e
/-- SCT (R218). -/
def execSct (d a b : BitVec 5) (e : BitVec 1) (s : State) : Out := s.execRows true d a b e

/-! ### Cluster send and receive (R219, R220) -/

/-- The operand limits of XSND and XRCV. -/
def okSend (k : Nat) (d a b : Word) : Bool :=
  let other := bits a.toNat 25 20
  bits d.toNat 19 0 % 64 == 0 && bits d.toNat 31 20 != 0 && bits a.toNat 19 0 % 64 == 0 && a.toNat / 2 ^ 26 == 0
    && decide (b.toNat < 0xFFF) && decide (other < 48) && other != k

/-- XSND (R219). -/
def execXsnd (d a b : BitVec 5) (s : State) : Out :=
  s.limit (okSend s.cur.k (s.rs d) (s.rs a) (s.rs b)) fun s => s.legal .send fun s =>
    let src := bits (s.rs d).toNat 19 0
    let n := bits (s.rs d).toNat 31 20
    let other := bits (s.rs a).toNat 25 20
    let dst := bits (s.rs a).toNat 19 0
    s.checkRanges [(s.cur.k, src, 64 * n), (other, dst, 64 * n)] fun s =>
      s.command (s.coreQueueFull [.xsnd, .xrcv] 8) false (streamSchedule src (64 * n) 128 (s.t + 1))
        { kind := .xsnd, ctx := s.cur.x, issued := s.t, done := s.t + 12 + (n + 1) / 2, src := src, dst := dst, n := n
          other := other, tag := (s.rs b).setWidth 12 } .next

/-- XRCV (R220): its source reads are timed side-port accesses of the source core. -/
def execXrcv (d a b : BitVec 5) (s : State) : Out :=
  s.limit (okSend s.cur.k (s.rs d) (s.rs a) (s.rs b)) fun s => s.legal .send fun s =>
    let dst := bits (s.rs d).toNat 19 0
    let n := bits (s.rs d).toNat 31 20
    let other := bits (s.rs a).toNat 25 20
    let src := bits (s.rs a).toNat 19 0
    s.checkRanges [(other, src, 64 * n), (s.cur.k, dst, 64 * n)] fun s =>
      s.command (s.coreQueueFull [.xsnd, .xrcv] 8) false []
        { kind := .xrcv, ctx := s.cur.x, issued := s.t, done := s.t + 12 + (n + 1) / 2, src := src, dst := dst, n := n
          other := other, tag := (s.rs b).setWidth 12 } fun s =>
        .next (s.modHereCluster fun cl => { cl with side := cl.side ++ (List.range n).map fun i =>
          { due := s.t + 1 + i / 2, kind := .pullRead, issued := s.t, source := s.cur.k, ctx := s.cur.x, core := other
            line := src / 64 + i, dst := dst / 64 + i, tag := (s.rs b).setWidth 12 } })

/-! ### Seal and open (R221, R222) -/

/-- The operand limits of SEAL and OPEN. -/
def okSeal (a b : Word) : Bool :=
  let m := bits a.toNat 26 20
  bits a.toNat 19 0 % 64 == 0 && a.toNat / 2 ^ 27 == 0 && decide (1 ≤ m) && decide (m ≤ 64) && b.toNat % 32 == 0
    && decide (b.toNat < spadBytes)

/-- The world's seal key (16 R369). -/
def State.sealKey (s : State) (w : Nat) : List Byte :=
  leBytes 16 (((tget {} s.assay.keys w).sealKey).getD 0).toNat

/-- The additional authenticated data: the world in two bytes, then m. -/
def sealAad (w m : Nat) : List Byte := leBytes 2 w ++ [BitVec.ofNat 8 m]

/-- SEAL (R221): the seal counter advances at issue. -/
def execSeal (a b : BitVec 5) (s : State) : Out :=
  s.limit (okSeal (s.rs a) (s.rs b)) fun s =>
    let adr := bits (s.rs a).toNat 19 0
    let m := bits (s.rs a).toNat 26 20
    let rec_ := (s.rs b).toNat
    s.checkRanges [(s.cur.k, adr, 64 * m), (s.cur.k, rec_, 32)] fun s =>
      s.check (s.hereCore.touchFault { lines := linesOf adr (64 * m) }) [] fun s =>
        let w := s.hereCluster.world
        s.command (s.coreQueueFull [.sealOp, .openOp] 1) false
          ((List.range m).flatMap (fun i => [(s.t + 1 + i, adr / 64 + i), (s.t + 13 + i, adr / 64 + i)])
            ++ [(s.t + 14 + m, rec_ / 64)])
          { kind := .sealOp, ctx := s.cur.x, issued := s.t, done := s.t + 14 + m, src := adr, dst := adr, n := m, other := rec_
            world := w
            iv := [BitVec.ofNat 8 w] ++ leBytes 2 (gcore s.cur.g s.cur.k) ++ leBytes 9 s.hereCore.sealCtr.toNat } fun s =>
          .next (s.modHereCore fun c => { c with sealCtr := c.sealCtr + 1 })

/-- OPEN (R222). -/
def execUnseal (a b : BitVec 5) (s : State) : Out :=
  s.limit (okSeal (s.rs a) (s.rs b)) fun s =>
    let adr := bits (s.rs a).toNat 19 0
    let m := bits (s.rs a).toNat 26 20
    let rec_ := (s.rs b).toNat
    s.checkRanges [(s.cur.k, adr, 64 * m), (s.cur.k, rec_, 32)] fun s =>
      s.command (s.coreQueueFull [.sealOp, .openOp] 1) false
        ((List.range m).flatMap (fun i => [(s.t + 1 + i, adr / 64 + i), (s.t + 14 + m + i, adr / 64 + i)])
          ++ [(s.t + 13 + m, rec_ / 64), (s.t + 14 + m, rec_ / 64), (s.t + 14 + 2 * m, rec_ / 64)])
        { kind := .openOp, ctx := s.cur.x, issued := s.t, done := s.t + 14 + 2 * m, src := adr, dst := adr, n := m
          other := rec_, world := s.hereCluster.world } .next

/-! ### Pattern and shape loads (R230) -/

/-- The operand limits of SPLD. -/
def okSpld (a b : Word) : Bool :=
  a.toNat % 128 == 0 && decide (a.toNat < spadBytes) && b.toNat / 4096 == 0
    && decide (bits b.toNat 5 0 + bits b.toNat 11 6 + 1 ≤ 64)

/-- SPLD (R230). -/
def execSpld (a b : BitVec 5) (w : BitVec 1) (s : State) : Out :=
  s.limit (okSpld (s.rs a) (s.rs b)) fun s =>
    let adr := (s.rs a).toNat
    let n := bits (s.rs b).toNat 11 6 + 1
    let overlap := s.hereCore.cmds.any (fun c => c.kind == .spld && decide (s.t + 2 ≤ c.issued + 1 + c.n))
    s.checkRanges [(s.cur.k, adr, 128 * n)] fun s =>
      s.command (s.coreQueueFull [.spld] 2 || overlap) false (streamSchedule adr (128 * n) 128 (s.t + 1))
        { kind := .spld, ctx := s.cur.x, issued := s.t, done := s.t + 2 + n, src := adr, n := n
          other := bits (s.rs b).toNat 5 0, sw := w == 1 } fun s =>
        .next (if w = 1 then s.update (2 + n) .patternSwitch else s)

/-- SHAPE (R230): checks 1 to 5 of R202 with an alignment of 64. -/
def execShape (k : BitVec 4) (a : BitVec 5) (s : State) : Out :=
  s.check (rangeFault (s.addrS a) 48 64) [] fun s =>
    let adr := (s.rs a).toNat
    let x := readTouch adr 48
    s.check (s.hereCore.touchFault x) x.reads fun s =>
      s.command (s.coreQueueFull [.shape] 4) false [(s.t + 1, adr / 64)]
        { kind := .shape, ctx := s.cur.x, issued := s.t, done := s.t + 6, src := adr, other := k.toNat } .next

/-! ### The engines' work on each running cycle -/

/-- Fails the exchange pitch that the cluster runs. -/
def State.failExchange (g code : Nat) (s : State) : State := if s.inExchange g then s.failPitch g code else s

/-- A line as an engine's core-side read takes it; its errors are met (08 R176, R177, R185). -/
def State.takeLine (g k l : Nat) (s : State) : Line × State :=
  ((s.core g k).engineLine l, s.modCore g k (Core.passLine l))

/-- The lines that chunk j of a stream of n lines moves, two a cycle. -/
def pairOf (n j : Nat) : List Nat := [2 * j, 2 * j + 1].filter (fun i => decide (i < n))

/-- A line that a copy command fetches (R217, R218): none marks one that no page maps, and data that comes too late or is
still awaited is poison as well. -/
def State.fetchLine (g : Nat) (c : Cmd) (off : Nat) (s : State) : Option Line × State :=
  match c.lineAt false off with
  | none => (none, s)
  | some (l, p) =>
    let miss := c.late && Config.freeBit s.fresh
    let s1 := if c.late then { s with fresh := s.fresh + 1 } else s
    if miss || s.awaited (s.allCmds.length + 1) c.order l then (none, s1.failExchange g codeScheduleFault)
    else (some (s.readHbm c.view c.world l p), s1)

/-- Writes a fetched line to the scratchpad (R217, R218): its TAG stands, or is 0xFFF where it was not fetched. -/
def State.landFetched (g k l : Nat) (x : Option Line) (s : State) : State :=
  s.modCore g k fun c => match x with
    | some y => c.putLineKeepTag l y
    | none => c.putLine l (Line.poisoned 0xFFF)

/-- Writes a line that a copy command stores to HBM; a line that no page takes is counted (R217). -/
def State.storeLine (g : Nat) (c : Cmd) (off : Nat) (x : Line) (count : Bool) (s : State) : State :=
  match c.lineAt true off with
  | some (l, p) => s.writeHbmTimed (s.allCmds.length + 1) c.order c.world l p x
  | none => if count then s.modCluster g fun cl => { cl with copyErrors := satAdd cl.copyErrors 1 } else s

/-- Reads the indices of cycle j of a GTH or SCT (R218) and maps their rows; in trigger mode a page not held is walked. -/
def State.readIndices (g k : Nat) (c : Cmd) (j : Nat) (s : State) : State × Cmd :=
  let cnt := Nat.min 64 (c.n - 64 * j)
  let ws := distinct ((List.range cnt).map (fun i => (c.other + 256 * j + 4 * i) / 8))
  let ix := (s.core g k).indexWords (c.other + 256 * j) cnt
  let s1 := s.modCore g k (Core.passAll ws)
  let pages := indexPages ix (64 * 2 ^ c.z) (s1.segment c.world c.seg).limit
  let s2 := if (s1.cluster g).trigger then pages.foldl (fun s q =>
      match s.pageMap g c.engine c.world c.seg q with
      | some _ => s
      | none => s.fillPage g c.engine c.world c.seg q) s1 else s1
  let add := (pages.filter (fun q => !c.maps.any (fun m => m.page == q))).filterMap (s2.pageMap g c.engine c.world c.seg)
  (s2.touchPages g c.engine c.world c.seg pages, { c with idx := c.idx ++ ix, maps := c.maps ++ add })

/-- The segment offset of line i of the rows of a GTH or SCT; none for a row that cannot be named. -/
def Cmd.rowLine (c : Cmd) (i : Nat) : Option Nat :=
  match c.idx[i / 2 ^ c.z]? with
  | some (some v) => some (v * (64 * 2 ^ c.z) + 64 * (i % 2 ^ c.z))
  | _ => none

/-- A read that the spec gives no value for poisoned words: they read as free bits. -/
def State.freeRead (g k a n : Nat) (s : State) : Nat × State :=
  let c := s.core g k
  let v := (List.range n).foldl (fun v i =>
    v + (if c.wordPoisoned ((a + i) / 8) then elem (Config.freeVec s.fresh) (8 * i) 8
      else (c.engineByte (a + i)).toNat) * 2 ^ (8 * i)) 0
  let s1 := s.modCore g k (Core.passAll (wordsOf a n))
  (v, if (wordsOf a n).any c.wordPoisoned then { s1 with fresh := s1.fresh + 1 } else s1)

/-- The bank that an SPLD write on cycle t fills: the inactive one, a switch on that cycle counted. -/
def Core.inactiveBank (c : Core) (t : Nat) : Nat :=
  let flips := (c.pending.filter (fun p => p.upd == .patternSwitch && decide (p.due ≤ t))).length
  (c.patSel + flips + 1) % 2

/-- What a command does on running cycle t of its cluster, apart from its last event. Writes to scratchpad of HGET and
GTH are made in a second pass, after every read of the cycle. -/
def State.cmdStep (second : Bool) (g k t : Nat) (c : Cmd) (s : State) : State × Cmd :=
  let j := t - c.issued - 1
  if t ≤ c.issued then (s, c)
  else match c.kind, second with
    | .cpy, false =>
      let nb := (c.n + 255) / 256
      let lines := fun (i : Nat) => (List.range (Nat.min 4 ((c.n - 256 * i) / 64))).map (fun q => 4 * i + q)
      let r := if j < nb then
          (lines j).foldl (fun (p : State × Cmd) i =>
            let y := p.1.takeLine g k (c.src / 64 + i)
            (y.2, { p.2 with buf := p.2.buf ++ [(i, y.1)] })) (s, c)
        else (s, c)
      if 2 ≤ j ∧ j - 2 < nb then
        (lines (j - 2)).foldl (fun (p : State × Cmd) i =>
          match takeFirst (fun (q : Nat × Line) => q.1 == i) p.2.buf with
          | some (q, rest) => (p.1.modCore g k (Core.putLine (c.dst / 64 + i) q.2), { p.2 with buf := rest })
          | none => p) r
      else r
    | .hput, false =>
      ((pairOf c.n j).foldl (fun s i =>
        let y := s.takeLine g k (c.src / 64 + i)
        y.2.storeLine g c (c.dst + 64 * i) y.1 true) s, c)
    | .hget, true =>
      if j < c.w then (s, c)
      else ((pairOf c.n (j - c.w)).foldl (fun s i =>
        let y := s.fetchLine g c (c.src + 64 * i)
        y.2.landFetched g k (c.dst / 64 + i) y.1) s, c)
    | .gth, false => if 64 * j < c.n then s.readIndices g k c j else (s, c)
    | .gth, true =>
      if j < c.w then (s, c)
      else ((pairOf (c.n * 2 ^ c.z) (j - c.w)).foldl (fun s i =>
        let y := match c.rowLine i with
          | some off => s.fetchLine g c off
          | none => (none, s)
        y.2.landFetched g k (c.dst / 64 + i) y.1) s, c)
    | .sct, false =>
      let r := if 64 * j < c.n then s.readIndices g k c j else (s, c)
      ((pairOf (c.n * 2 ^ c.z) j).foldl (fun s i =>
        let y := s.takeLine g k (c.dst / 64 + i)
        let first := i % 2 ^ c.z == 0
        match r.2.rowLine i with
        | some off => y.2.storeLine g r.2 off y.1 first
        | none => if first then y.2.modCluster g fun cl => { cl with copyErrors := satAdd cl.copyErrors 1 } else y.2) r.1, r.2)
    | .xsnd, false =>
      ((pairOf c.n j).foldl (fun s i =>
        let y := s.takeLine g k (c.src / 64 + i)
        y.2.modCluster g fun cl => { cl with side := cl.side ++ [{
          due := c.issued + 13 + j, kind := .send, issued := c.issued, source := k, ctx := c.ctx, core := c.other
          line := c.dst / 64 + i, data := some { y.1 with tag := c.tag } }] }) s, c)
    | .sealOp, false =>
      let r := if j < c.n then
          let y := s.takeLine g k (c.src / 64 + j)
          let e := Line.ofBytes (gcmCrypt (s.sealKey c.world) c.iv (4 * j) y.1.bytes) 0 true
          (y.2, { c with buf := c.buf ++ [(j, { e with poison := y.1.poison })] })
        else (s, c)
      if 12 ≤ j ∧ j - 12 < c.n then
        match c.buf.find? (fun q => q.1 == j - 12) with
        | some q => (r.1.modCore g k (Core.putLineKeepTag (c.dst / 64 + (j - 12)) q.2), r.2)
        | none => r
      else r
    | .openOp, false =>
      if j < c.n then
        let y := s.takeLine g k (c.src / 64 + j)
        (y.2, { c with buf := c.buf ++ [(j, y.1)] })
      else (s, c)
    | .spld, false =>
      if j < c.n then
        let y := s.freeRead g k (c.src + 128 * j) 128
        (y.2.modCore g k fun q => { q with pending := q.pending ++
          [⟨t + 1 + c.shift, c.issued, c.ctx,
            .pattern (q.inactiveBank (t + 1 + c.shift)) (c.other + j) (BitVec.ofNat 1024 y.1)⟩] }, c)
      else (s, c)
    | .shape, false =>
      if j = 0 then
        let y := s.freeRead g k c.src 48
        (y.2.modCore g k fun q => { q with pending := q.pending ++
          [⟨c.issued + 6 + c.shift, c.issued, c.ctx, .shape c.other (BitVec.ofNat 384 y.1)⟩] }, c)
      else (s, c)
    | _, _ => (s, c)

/-- Whether two entries are the same command: a core issues at most one command on a cycle. -/
def Cmd.same (c d : Cmd) : Bool := d.kind == c.kind && d.issued == c.issued && d.engine == c.engine

/-- Replaces a command by its next stage. -/
def Core.setCmd (c : Cmd) (k : Core) : Core := { k with cmds := k.cmds.map fun d => if c.same d then c else d }

/-- Runs one pass of the core's commands that a test selects. -/
def State.runCmds (second : Bool) (sel : Cmd → Bool) (g k t : Nat) (s : State) : State :=
  ((s.core g k).cmds.filter sel).foldl (fun s c0 =>
    match (s.core g k).cmds.find? c0.same with
    | none => s
    | some c =>
      let r := s.cmdStep second g k t c
      r.1.modCore g k (Core.setCmd r.2)) s

/-- Commands whose last cycle is made by an event of their own (R214, R215). -/
def Cmd.lastByEvent (t : Nat) (c : Cmd) : Bool := (c.kind == .cpy || hbmKinds.contains c.kind) && c.done == t

/-- The engines' work of one running cycle on one core, but for the last cycle of copies. -/
def State.engineCycle (second : Bool) (g k t : Nat) (s : State) : State :=
  s.runCmds second (fun c => !c.lastByEvent t) g k t

/-- Frees the entries that a test selects. -/
def State.freeCmds (sel : Cmd → Bool) (g k : Nat) (s : State) : State :=
  s.modCore g k fun c => { c with cmds := c.cmds.filter (fun d => !sel d) }

/-! ### Completion events -/

/-- LOCAL_COPY_COMPLETE (R214): the last write, and the entry is freed. -/
def execLocalCopyComplete (g k : Nat) (s : State) : Out :=
  let t := (s.cluster g).run
  .next ((s.runCmds false (fun c => c.kind == .cpy && c.done == t) g k t).freeCmds
    (fun c => c.kind == .cpy && decide (c.done ≤ t)) g k)

/-- A CPY.hbm whose source an earlier write is still to reach stays, so that its destination follows (08 R190). -/
def State.stillForwards (s : State) (c : Cmd) : Bool :=
  c.kind == .cpyHbm && (List.range c.n).any (fun i =>
    match c.lineAt false (c.src + 64 * i) with
    | some (l, _) => s.awaited (s.allCmds.length + 1) c.order l
    | none => false)

/-- Whether a command awaits its engine's event on cycle t: it completes, or one kept for the forwarding of 08 R190 is done. -/
def State.copyDue (s : State) (e t : Nat) (c : Cmd) : Bool :=
  hbmKinds.contains c.kind && c.engine == e && decide (c.done ≤ t) && (!c.failed || !s.stillForwards c)

/-- COPY_ENGINE_COMPLETE (R215, R216): the last accesses of the engine's commands that complete on this cycle, the busy
counts, and the entries freed; one that an earlier write is still to reach is marked and stays. -/
def execCopyEngineComplete (g e : Nat) (s : State) : Out :=
  let t := (s.cluster g).run
  let mine := fun (c : Cmd) => hbmKinds.contains c.kind && c.engine == e && c.done == t && !c.failed
  let ks := (s.cluster g).cores.map (·.1)
  let s1 := ks.foldl (fun s k => s.runCmds false mine g k t) s
  let s2 := ks.foldl (fun s k => s.runCmds true mine g k t) s1
  .next (ks.foldl (fun s k =>
    let done := (s.core g k).cmds.filter mine
    let s3 := done.foldl (fun s c =>
      let u := s.addBusy c.world c.seg false
      if c.late && (c.kind == .hput || c.kind == .sct || c.kind == .cpyHbm) then
        let v := { u with fresh := u.fresh + 1 }
        if Config.freeBit u.fresh then v.failExchange g codeScheduleFault else v
      else u) s
    let ended := fun (c : Cmd) => hbmKinds.contains c.kind && c.engine == e && decide (c.done ≤ t)
    (s3.freeCmds (fun c => ended c && !s3.stillForwards c) g k).modCore g k fun q =>
      { q with cmds := q.cmds.map fun c => if ended c then { c with failed := true } else c }) s2)

/-! ### The side port (08 R182, R183) -/

/-- The order of the sources of timed side-port accesses issued on one cycle: exchange-engine accesses before a core's (08 R182).
DESIGN CHOICE (log entry 71): 08 R182 ranks no two exchange-engine accesses; here a kind-1 record's write comes before a landing, and
otherwise the lower record index or port number comes first. -/
def SideAcc.rank (x : SideAcc) : Nat :=
  match x.kind with
  | .exchange => 0
  | .landing => 1
  | _ => 2

/-- Whether a timed side-port access ranks before another (08 R182). -/
def SideAcc.before (a b : SideAcc) : Bool :=
  decide (a.issued < b.issued) || (a.issued == b.issued &&
    (decide (a.rank < b.rank) || (a.rank == b.rank && decide (a.source < b.source))))

/-- Whether an access wins its bank on its cycle. -/
def Cluster.sideWins (cl : Cluster) (a : SideAcc) : Bool :=
  !cl.side.any (fun b => b.due == a.due && b.core == a.core && bankOfLine b.line == bankOfLine a.line && b.before a)

/-- A side-port write of a whole line. -/
def Core.sidePut (a : SideAcc) (x : Line) (c : Core) : Core := (c.keepOld a.line).putLine a.line x

/-- One timed side-port access of the current cycle. -/
def State.sideAccess (g : Nat) (a : SideAcc) (s : State) : State :=
  let wins := (s.cluster g).sideWins a
  if a.kind = .pullRead then
    let src := s.core g a.core
    let x := src.bankLine a.line
    let w : SideAcc := {
      due := a.due + 12, kind := .pull, issued := a.issued, source := a.source, ctx := a.ctx, core := a.source
      line := a.dst }
    let s1 := if wins then s.modCore g a.core (Core.passLine a.line) else s.failExchange g codeScheduleFault
    s1.modCluster g fun cl => { cl with side := cl.side ++ [
      if !wins then w
      else if x.tag = 0xFFF then { w with data := some x, fail := some codeScheduleFault }
      else if x.tag ≠ a.tag then { w with data := some { x with tag := 0xFFF }, fail := some codeTagMismatch }
      else { w with data := some x }] }
  else if !wins then (s.modCore g a.core fun c => (c.keepOld a.line).badTag a.line).failExchange g codeScheduleFault
  else
    let s1 := s.modCore g a.core fun c => match a.data with
      | some x => c.sidePut a x
      | none => (c.keepOld a.line).badTag a.line
    match a.fail with
    | some f => s1.failExchange g f
    | none => s1

/-- Performs the accesses of this cycle that a test selects. -/
def State.sidePort (sel : SideAcc → Bool) (g : Nat) (s : State) : State :=
  let t := (s.cluster g).run
  let due := fun (a : SideAcc) => a.due == t && !a.done && sel a
  let s1 := ((s.cluster g).side.filter due).foldl (fun s a => s.sideAccess g a) s
  s1.modCluster g fun cl => { cl with side := cl.side.map fun a => if due a then { a with done := true } else a }

/-- XSND_DELIVERY (R219): the lines of sends to core k that fall on this cycle; a send whose last lines they are is
complete. -/
def execXsndDelivery (g k : Nat) (s : State) : Out :=
  let t := (s.cluster g).run
  let s1 := s.sidePort (fun a => a.kind == .send && a.core == k) g
  .next (s1.modCluster g fun cl => { cl with cores := cl.cores.map fun p => (p.1, { p.2 with
    cmds := p.2.cmds.filter (fun c => !(c.kind == .xsnd && c.other == k && decide (c.done ≤ t))) }) })

/-- XRCV_COMPLETE (R220): the source reads and the writes of core k's pulls that fall on this cycle. -/
def execXrcvComplete (g k : Nat) (s : State) : Out :=
  let t := (s.cluster g).run
  .next ((s.sidePort (fun a => (a.kind == .pullRead || a.kind == .pull) && a.source == k) g).freeCmds
    (fun c => c.kind == .xrcv && decide (c.done ≤ t)) g k)

/-- Writes bytes to a core's bank on the core-side port (R221). -/
def Core.bankBytes (a : Nat) (bs : List Byte) (c : Core) : Core :=
  (c.bankWrite (((List.range bs.length).zip bs).map (fun p => (a + p.1, p.2)))).1

/-- SEAL_COMPLETE (R221): the seal record is written. -/
def execSealComplete (g k : Nat) (s : State) : Out :=
  let t := (s.cluster g).run
  let sel := fun (c : Cmd) => c.kind == .sealOp && decide (c.done ≤ t)
  .next ((((s.core g k).cmds.filter sel).foldl (fun s c =>
    let ct := c.buf.flatMap (fun q => q.2.bytes)
    let tag := gcmTag (s.sealKey c.world) c.iv (sealAad c.world c.n) ct
    s.modCore g k (Core.bankBytes c.other (c.iv ++ [0, 0, 0, 0] ++ tag))) s).freeCmds sel g k)

/-- Whether an OPEN has work on cycle t that it has not done: from its tag check on. -/
def Cmd.openDue (t : Nat) (c : Cmd) : Bool := c.kind == .openOp && decide (c.issued + 13 + c.n ≤ t) && decide (c.w < t)

/-- OPEN_COMPLETE (R222): on issue + 13 + m the tag check decides; then the plaintext or the failure status is written. -/
def execOpenComplete (g k : Nat) (s : State) : Out :=
  let t := (s.cluster g).run
  .next ((((s.core g k).cmds.filter (fun c => c.kind == .openOp)).foldl (fun s c =>
    let check := c.issued + 13 + c.n
    let s := s.modCore g k (Core.setCmd { c with w := t })
    if t = check then
      let r := (s.core g k).engineBytes c.other 32
      let ct := c.buf.flatMap (fun q => q.2.bytes)
      let good := gcmTag (s.sealKey c.world) (r.take 12) (sealAad c.world c.n) ct == r.drop 16
        && c.buf.all (fun q => q.2.poison == 0) && !(wordsOf c.other 32).any (s.core g k).wordPoisoned
      let c1 := { c with
        w := t, failed := !good, iv := r.take 12
        buf := c.buf.map fun q => (q.1, Line.ofBytes (gcmCrypt (s.sealKey c.world) (r.take 12) (4 * q.1) q.2.bytes) 0 false) }
      s.modCore g k fun x => (x.passAll (wordsOf c.other 32)).setCmd c1
    else if check < t then
      let i := t - check - 1
      let s1 := if c.failed then
          if i = 0 then s.modCore g k (Core.bankBytes (c.other + 12) [1]) else s
        else
          match c.buf.find? (fun q => q.1 == i) with
          | some q => s.modCore g k (Core.putLineKeepTag (c.dst / 64 + i) q.2)
          | none => s
      if i = c.n ∧ c.failed = false then s1.modCore g k (Core.bankBytes (c.other + 12) [0]) else s1
    else s) s).freeCmds (fun c => c.kind == .openOp && decide (c.done ≤ t)) g k)

end Sys2Proof.Machine
end

