-- ==== Sys2Proof/Machine/Rings.lean ====
section
/-! DEFINITION. The untimed side port (08 R182, R184), interrupts (17 R386), the store of untimed operations and their
completion (10 R235, 09 R227, 14 R346), cairn rings (10 R240 to R242) and punt rings (10 R243). -/

namespace Sys2Proof.Machine

/-! ### The side port for untimed accesses (08 R182) -/

/-- Whether an untimed access may take a bank's side port on this cycle: no timed access and no other untimed one has it. -/
def State.sideOpen (s : State) (g k l : Nat) : Bool :=
  let cl := s.cluster g
  let timed := cl.holding.isNone && cl.side.any (fun a => a.due == cl.run && a.core == k && bankOfLine a.line == bankOfLine l)
  !timed && !(cl.core k).sideUsed.contains (s.now, bankOfLine l)

/-- Takes the side ports of lines on this cycle. -/
def State.takeSide (g k : Nat) (ls : List Nat) (s : State) : State :=
  s.modCore g k fun c =>
    { c with sideUsed := c.sideUsed.filter (fun p => p.1 == s.now) ++ ls.map (fun l => (s.now, bankOfLine l)) }

/-- A side-port read of bank bytes (10 R242): the buffer's entries are not merged, and a poisoned word reads as free bits. -/
def State.bankFree (g k a n : Nat) (s : State) : Nat × State :=
  let c := s.core g k
  let v := (List.range n).foldl (fun v i =>
    v + (if c.wordPoisoned ((a + i) / 8) then elem (Config.freeVec s.fresh) (8 * i) 8
      else (Memory.read c.spad (a + i)).toNat) * 2 ^ (8 * i)) 0
  let s1 := s.modCore g k (Core.passAll (wordsOf a n))
  (v, if (wordsOf a n).any c.wordPoisoned then { s1 with fresh := s1.fresh + 1 } else s1)

/-- An untimed side-port write of bytes. -/
def State.sideBytes (g k a : Nat) (bs : List Byte) (s : State) : State :=
  (s.modCore g k fun c => (c.sideWrite a bs).1).takeSide g k (linesOf a bs.length)

/-! ### Interrupts (17 R386) -/

/-- The function mask bit of the MSI-X Message Control word (17 R386, as PCIe defines). DESIGN CHOICE (log entry 64): MSI-X counts as
enabled throughout, as 17 R386 sends its events with no word of an enable. -/
def Func.allMasked (f : Func) : Bool := tget 0 f.config (Config.msixControl + 1) / 64 % 2 == 1

/-- Sends an event of a world on a vector of a function; a masked vector sets its pending bit. -/
def State.interrupt (w fn v : Nat) (s : State) : State :=
  if (s.world w).state ≠ 1 then s
  else if (s.func fn).masked.getLsbD v || (s.func fn).allMasked then
    s.modFunc fn fun f => { f with pendingBits := f.pendingBits ||| BitVec.twoPow 16 v }
  else { s with irqs := s.irqs ++ [(fn, v)] }

/-! ### The store of untimed operations -/

/-- Changes an operation by its number, whether its context is live or parked (14 R346). -/
def State.modOp (r : OpRef) (f : Untimed → Untimed) (s : State) : State :=
  let upd := fun (u : Untimed) => if u.id = r.id then f u else u
  let s1 := s.modCtx (r.core / 48) (r.core % 48) r.ctx fun c => { c with untimed := c.untimed.map upd }
  { s1 with parks := s1.parks.map fun p => { p with ops := p.ops.map fun q => (q.1, upd q.2) } }

/-- The operations of a core, live and parked, in order of issue. -/
def State.opsOf (s : State) (core : Nat) : List (OpRef × Untimed) :=
  let live := (List.range 4).flatMap fun x =>
    (s.ctx (core / 48) (core % 48) x).untimed.map (fun u => ((⟨core, x, u.id⟩ : OpRef), u))
  let parked := s.parks.flatMap (fun p => p.ops.filter (fun q => q.1.core == core))
  (parked ++ live).foldl (fun l q => l.filter (fun r => decide (r.2.id ≤ q.2.id)) ++ [q] ++ l.filter (fun r => decide (q.2.id < r.2.id))) []

/-- The operation of a number. -/
def State.findOp (s : State) (core id : Nat) : Option (OpRef × Untimed) := (s.opsOf core).find? (fun q => q.2.id == id)

/-- Whether an operation is parked. -/
def State.parked (s : State) (r : OpRef) : Bool := s.parks.any (fun p => p.ops.any (fun q => q.1.id == r.id))

/-- Frees an operation's entry. -/
def State.freeOp (r : OpRef) (s : State) : State :=
  let s1 := s.modCtx (r.core / 48) (r.core % 48) r.ctx fun c => { c with untimed := c.untimed.filter (fun u => u.id != r.id) }
  { s1 with parks := s1.parks.map fun p => { p with ops := p.ops.filter (fun q => q.1.id != r.id) } }

/-- An operation's effects are over (09 R227). -/
def State.completeOp (r : OpRef) (status moved : Nat) (s : State) : State :=
  s.modOp r fun u => { u with phase := .completed, status := status, moved := moved, doneTick := s.tick.toNat }

/-- An operation whose completion effects are due: its effects are over, or it is a software cairn and every earlier operation
of its context has completed (09 R227, R228). -/
def State.isDone (s : State) (q : OpRef × Untimed) : Bool :=
  q.2.phase == .completed || (q.2.kind == 7 && q.2.phase == .queued &&
    ((s.opsOf q.1.core).filter (fun p => p.1.ctx == q.1.ctx && decide (p.2.id < q.2.id))).all
      (fun p => p.2.phase == .cairnDue || p.2.phase == .bumpDue))

/-- The completed operation of a context whose completion effects are due first. -/
def State.nextDone (s : State) (core x : Nat) : Option (OpRef × Untimed) :=
  (((s.opsOf core).filter (fun q => q.1.ctx == x && s.isDone q)).map (fun q =>
    if q.2.phase == .completed then q else (q.1, { q.2 with doneTick := s.tick.toNat }))).foldl (fun best q =>
    match best with
    | some b => if q.2.doneTick < b.2.doneTick then some q else some b
    | none => some q) none

/-- The cairn of an operation. DESIGN CHOICE (log entry 72): where its context has been launched again with another ring since it
was issued, 10 R240 does not say which ring takes the cairn; here the context's ring at the completion does. -/
def State.opCairn (s : State) (r : OpRef) (u : Untimed) : CairnReq :=
  let g := r.core / 48
  { core := r.core, base := (s.ctx g (r.core % 48) r.ctx).ring, status := u.status, kind := u.kind
    flags := if u.kind = 2 ∧ u.moved < u.length ∧ 0 < u.moved then 4 else 0
    world := u.world, source := g, order := 0, stamp := u.doneTick, count := u.moved
    irq := if u.irq then some ((s.world u.world).function, 1 + r.ctx) else none, op := some r }

/-- UNTIMED_COMPLETE (R227): the counter bump is raised and the cairn is queued behind it; an operation with neither is free, and
one with a bump alone is free once the bump is made. Of a captured context both go to its park record (14 R346), where an
operation whose cairn is to be written keeps its entry (R242). A completion of a world that is leaving is discarded (16 R378). -/
def execUntimedComplete (g k x : Nat) (s : State) : Out :=
  match s.nextDone (gcore g k) x with
  | none => .next s
  | some (r, u) =>
    let cairn := u.cairn || u.refused
    if (s.world u.world).state ≠ 1 then .next (s.freeOp r)
    else if s.parked r then
      let note := fun (p : Park) =>
        if p.ops.any (fun q => q.1.id == r.id) then
          { p with
            ops := p.ops.filter (fun q => q.1.id != r.id)
            bumps := p.bumps ++ (if u.bump then [(g, u.counter, 1)] else [])
            cairns := p.cairns ++ (if cairn then [{ s.opCairn r u with base := u.ring }] else [])
            held := p.held ++ (if cairn then [(r, { u with phase := .cairnDue })] else []) }
        else p
      .next { s with parks := s.parks.map note }
    else
      let s1 := if u.bump then s.modCluster g (fun cl =>
          { cl with bumps := cl.bumps ++ [{ due := cl.run + 1, counter := u.counter, amount := 1, op := some r }] }) else s
      if cairn then
        .next ({ s1 with cairns := s1.cairns ++ [s1.opCairn r u] }.modOp r fun u => { u with phase := .cairnDue })
      else if u.bump then .next (s1.modOp r fun u => { u with phase := .bumpDue })
      else .next (s1.freeOp r)

/-! ### Cairn rings (10 R240 to R242) -/

/-- A ring's control line: TAIL, HEAD, SLOTS, STALL. -/
structure RingWords where
  tail : Nat
  head : Nat
  slots : Nat
  stall : Nat
  deriving DecidableEq, Repr

def State.ringWords (g k base : Nat) (s : State) : RingWords × State :=
  let r := s.bankFree g k base 16
  ({ tail := r.1 % 2 ^ 32, head := r.1 / 2 ^ 32 % 2 ^ 32, slots := r.1 / 2 ^ 64 % 2 ^ 32, stall := r.1 / 2 ^ 96 % 2 ^ 32 }, r.2)

/-- Whether a ring of slots of `size` bytes is valid (R240). -/
def Core.ringValid (c : Core) (base slots size : Nat) : Bool :=
  (List.range 11).any (fun i => slots == 2 ^ (i + 2)) && base % 64 == 0 && decide (base + 64 + size * slots ≤ spadBytes)
    && (linesOf base (64 + size * slots)).all (fun l => !c.isLent l && !c.form l)

/-- Whether a ring has room. -/
def RingWords.room (r : RingWords) : Bool := decide ((r.tail + 2 ^ 32 - r.head) % 2 ^ 32 < r.slots)

/-- A record's bytes; bit 0 of the flags says that an interrupt is raised. Function w is world w's (17 R381). -/
def State.record (s : State) (q : CairnReq) (seq : Nat) : List Byte :=
  let live := match q.irq with
    | some (fn, _) => (s.world fn).state == 1
    | none => false
  leBytes 2 q.status ++ leBytes 1 q.kind ++ leBytes 1 (q.flags + if live then 1 else 0) ++ leBytes 2 q.world
    ++ leBytes 2 q.source ++ leBytes 8 q.order ++ leBytes 8 q.stamp ++ leBytes 4 q.count ++ leBytes 4 seq

/-- The first cairn of a ring. -/
def State.firstCairn (s : State) (r b : Nat) : Option CairnReq := s.cairns.find? (fun q => q.core == r && q.base == b)

/-- Changes the first cairn of a ring, or removes it. -/
def modFirst (r b : Nat) (f : CairnReq → Option CairnReq) : List CairnReq → List CairnReq
  | [] => []
  | q :: t =>
    if q.core = r ∧ q.base = b then
      match f q with
      | some p => p :: t
      | none => t
    else q :: modFirst r b f t
def State.modCairn (r b : Nat) (f : CairnReq → Option CairnReq) (s : State) : State :=
  { s with cairns := modFirst r b f s.cairns }

/-- A cairn is written or discarded: its operation's entry is free (R235). -/
def State.dropCairn (q : CairnReq) (s : State) : State :=
  let s1 := (s.modCore (q.core / 48) (q.core % 48) (Core.watchHead q.base false)).modCairn q.core q.base (fun _ => none)
  match q.op with
  | some r => s1.freeOp r
  | none => s1

/-- Steps 1 to 3 of R242 for the first cairn of a ring that has not been written. -/
def State.tryCairn (q : CairnReq) (s : State) : State :=
  let g := q.core / 48
  let k := q.core % 48
  let r := s.ringWords g k q.base
  if r.1.room then
    (r.2.sideBytes g k (q.base + 64 + 32 * (r.1.tail % r.1.slots)) (s.record q r.1.tail)).modCairn q.core q.base
      fun q => some { q with wrote := some s.now }
  else
    let s1 := if q.stalled then r.2 else r.2.sideBytes g k (q.base + 12) (leBytes 4 (r.1.stall + 1))
    (s1.modCore g k (Core.watchHead q.base true)).modCairn q.core q.base fun q => some { q with stalled := true }

/-- CAIRN_WRITE (R242) on the ring of a global core number and base: the record of the ring's first cairn, or, on a later
cycle, its TAIL and its interrupt. -/
def execCairnWrite (r b : Nat) (s : State) : Out :=
  match s.firstCairn r b with
  | none => .next s
  | some q =>
    let g := r / 48
    let k := r % 48
    if b = 0 ∨ (s.cluster g).fenced then .next (s.dropCairn q)
    else
      let c := s.ringWords g k b
      if !(s.core g k).ringValid b c.1.slots 32 then
        .next ((c.2.modCluster g fun cl => { cl with cairnErrors := satAdd cl.cairnErrors 1 }).dropCairn q)
      else
        match q.wrote with
        | none => .next (s.tryCairn q)
        | some _ =>
          let s1 := (c.2.sideBytes g k b (leBytes 4 (c.1.tail + 1))).dropCairn q
          .next (match q.irq with
            | some (fn, v) => s1.interrupt fn fn v
            | none => s1)

/-- CAIRN_RETRY (R242): after a write to HEAD a cairn that waits for room is tried again. -/
def execCairnRetry (r b : Nat) (s : State) : Out :=
  match s.firstCairn r b with
  | some q => if q.stalled && q.wrote.isNone then .next (s.tryCairn q) else .next s
  | none => .next s

/-! ### Punt rings (10 R243) -/

/-- PUNT_DELIVERY (R243): the first packet of a pipeline's punt queue goes to its world's punt ring, then the TAIL is
written, the world's counter is bumped and the interrupt is sent. -/
def execPuntDelivery (p : Nat) (s : State) : Out :=
  match (s.pipe p).punts with
  | [] => .next s
  | q :: rest =>
    let w := s.world q.world
    let g := w.puntCore / 48
    let k := w.puntCore % 48
    let gone := fun (s : State) => s.modPipe p fun x => { x with punts := rest }
    let drop := fun (s : State) => (gone s).modPipe p fun x => { x with puntDrops := satAdd x.puntDrops 1 }
    if w.puntBase = 0 ∨ w.state ≠ 1 then .next (drop s)
    else if (s.cluster g).fenced then .next (gone s)
    else
      let c := s.ringWords g k w.puntBase
      if !(s.core g k).ringValid w.puntBase c.1.slots 512 then
        .next (gone (c.2.modCluster g fun cl => { cl with cairnErrors := satAdd cl.cairnErrors 1 }))
      else
        match q.wrote with
        | none =>
          if c.1.room then
            .next ((c.2.sideBytes g k (w.puntBase + 64 + 512 * (c.1.tail % c.1.slots)) (padTo 512 (q.header ++ q.bytes.take 480))).modPipe
              p fun x => { x with punts := { q with wrote := some s.now } :: rest })
          else .next c.2
        | some _ =>
          let s1 := (gone (c.2.sideBytes g k w.puntBase (leBytes 4 (c.1.tail + 1)))).modCluster g fun cl =>
            { cl with bumps := cl.bumps ++ [{ due := cl.run + 1, counter := w.puntCounter, amount := 1 }] }
          .next (s1.interrupt q.world w.function 5)

end Sys2Proof.Machine
end

