-- ==== Sys2Proof/Machine/Landing.lean ====
section
/-! DEFINITION. What lands: results (01 R26, 04 R101), per-core updates, the anvil's and fold unit's events (07 R160, R166),
drains (08 R185), arrival counters and triggers (13 R303, 11 R265), belays and rollback (04 R100, 14 R323 to R327). -/

namespace Sys2Proof.Machine

/-! ### Results (01 R26, 04 R101) -/

/-- Puts the bits under a mask into a register; s0 and p0 discard them (04 R88). -/
def Ctx.putBits (d : Dest) (mask val : Vec) (c : Ctx) : Ctx :=
  let mix := fun (old : Vec) => (old &&& ~~~mask) ||| (val &&& mask)
  let word := fun (old : Word) => (mix (old.setWidth 1024)).setWidth 32
  match d with
  | .s n => if n = 0 then c else { c with s := tset 0 c.s n (word (tget 0 c.s n)) }
  | .c n => { c with c := tset 0 c.c n (word (tget 0 c.c n)) }
  | .p n =>
    if n = 0 then c
    else if val.getLsbD 0 then { c with p := c.p ||| BitVec.twoPow 16 n }
    else { c with p := c.p &&& ~~~(BitVec.twoPow 16 n) }
  | .v n => { c with v := tset 0 c.v n (mix (tget 0 c.v n)) }
  | .sr 0 => { c with tsr := word c.tsr }
  | .sr 1 => { c with tcr := word c.tcr }
  | .sr 2 => { c with tva := word c.tva }
  | .sr 3 => { c with hvb := word c.hvb }
  | .sr 4 => { c with fst := word c.fst }
  | .sr 5 => { c with fmd := word c.fmd }
  | .sr _ => c

/-- Whether a result is discarded (04 R88), or its register counts no collisions (04 R101). -/
def Dest.uncounted (d : Dest) : Bool := d == .s 0 || d == .p 0 || d == .sr 4

/-- Puts a result into a list in order of issue cycle, then unit position. -/
def insertResult (r : Result) : List Result → List Result
  | [] => [r]
  | q :: t => if r.issued < q.issued ∨ (r.issued = q.issued ∧ r.pos < q.pos) then r :: q :: t else q :: insertResult r t

/-- Registers for which two results compete for at least one bit. -/
def collisions : List Result → List Dest
  | [] => []
  | r :: t =>
    let rest := collisions t
    if !r.dest.uncounted && !rest.contains r.dest && t.any (fun q => q.dest == r.dest && (q.mask &&& r.mask) != 0)
    then r.dest :: rest else rest

/-- Lands the results of a context that are due; answers the collisions too. -/
def Ctx.land (t : Nat) (c : Ctx) : Ctx × Nat :=
  let now := (c.flight.filter (fun r => decide (r.due ≤ t))).foldl (fun l r => insertResult r l) []
  let live := now.filter (fun r => !c.keepsApart r.issued)
  let noted := (now.filter (fun r => c.notes r.issued r.due)).map (fun r => (r.due - c.belayCycle, r))
  let c1 := { c with
    flight := c.flight.filter (fun r => decide (t < r.due))
    dup := { c.dup with pend := c.dup.pend ++ noted } }
  let c2 := live.foldl (fun c r => c.putBits r.dest r.mask r.val) c1
  ({ c2 with fst := live.foldl (fun f r => f ||| r.flags) c2.fst }, (collisions live).length)

/-! ### Per-core updates (07 R156, R160, R169, R170, 04 R98, R99) -/

/-- Makes the updates due by a cycle that a test selects. -/
def Core.landUpdates (sel : CoreUpdate → Bool) (t : Nat) (c : Core) : Core :=
  let due := fun (p : Pending) => decide (p.due ≤ t) && sel p.upd
  (c.pending.filter due).foldl Core.landOne { c with pending := c.pending.filter (fun p => !due p) }

/-- Conditions readable before cycle t stand in their entries, so that a clear on t removes them (04 R99). -/
def Core.foldConds (t : Nat) (c : Core) : Core := c.landUpdates CoreUpdate.isCond (t - 1)

/-- Entries of the shape loader whose life is over. -/
def Core.freeShapes (t : Nat) (c : Core) : Core :=
  { c with cmds := c.cmds.filter (fun d => !(d.kind == .shape && decide (d.done ≤ t))) }

/-- RESULT_LAND (01 R26): everything of a core that lands on this cycle, the landings with events of their own apart. -/
def execResultLand (g k : Nat) (s : State) : Out :=
  let t := (s.cluster g).run
  .next (s.modCore g k fun c =>
    let r := c.ctxs.foldl (fun (a : Tbl Ctx × Nat) p => let q := p.2.land t; (a.1 ++ [(p.1, q.1)], a.2 + q.2)) ([], 0)
    let c1 := { c with ctxs := r.1, collisions := satAdd c.collisions r.2 }
    (c1.landUpdates (fun u => !u.isCond && !u.isBank && u != .patternSwitch) t).freeShapes t)

/-- SPLD_SWITCH (09 R230): the active bank changes, and the loader's entry is free. -/
def execSpldSwitch (g k : Nat) (s : State) : Out :=
  let t := (s.cluster g).run
  .next (s.modCore g k fun c =>
    let c1 := c.landUpdates (fun u => u == .patternSwitch) t
    { c1 with cmds := c1.cmds.filter (fun d => !(d.kind == .spld && decide (d.done ≤ t))) })

/-! ### The anvil and the fold unit (07 R160, R166) -/

/-- MMA_RETIRE: the tiles are popped, the anvil is free, and the landing and the status update follow (07 R160). -/
def Core.mmaRetire (t : Nat) (c : Core) : Core :=
  match c.anvil with
  | [] => c
  | m :: rest =>
    match m.start with
    | none => c
    | some st =>
      let r := m.retireAt st
      if t < r then c
      else
        let poison := m.poison ||| m.dead
        let up := fun (due : Nat) (u : CoreUpdate) => (⟨due + m.shift, m.issued, m.ctx, u⟩ : Pending)
        { c with
          anvil := rest
          pending := c.pending ++ [up r (.mmaPop m.qa m.n), up r (.mmaPop m.qb m.n),
            up (r + 12) (.bankLand m.bank m.rows poison m.zero)]
            ++ (if poison = 0 then [] else [up (r + 18) (.tsCond m.bank 8 0)]) }

def execMmaRetire (g k : Nat) (s : State) : Out := .next (s.modCore g k (Core.mmaRetire (s.cluster g).run))

/-- MMA_START (07 R160): a waiting MMA starts, with its first read. -/
def execMmaStart (g k : Nat) (s : State) : Out :=
  .next (s.modCore g k fun c => match c.anvil with
    | m :: _ => if m.start.isNone then c.mmaBegin (s.cluster g).run else c
    | [] => c)

/-- MMA_LAND (07 R160). -/
def execMmaLand (g k : Nat) (s : State) : Out :=
  .next (s.modCore g k (Core.landUpdates CoreUpdate.isBank (s.cluster g).run))

/-- FOLD_START (07 R166): a waiting fold starts. -/
def execFoldStart (g k : Nat) (s : State) : Out :=
  let t := (s.cluster g).run
  .next (s.modCore g k fun c =>
    c.fold.foldl (fun c f =>
      let r := if f.start.isNone && decide (f.planned ≤ t) then c.foldBegin t f else (c, f)
      { r.1 with fold := r.1.fold ++ [r.2] }) { c with fold := [] })

/-- Whether a fold's tile is readable by a cycle (07 R166). -/
def Fold.doneBy (t : Nat) (f : Fold) : Bool :=
  match f.start with
  | some c => decide (c + 8 + f.rows ≤ t)
  | none => false

/-- FOLD_COMPLETE (07 R166): the fold leaves the unit, and its conditions become readable 6 cycles on. -/
def execFoldComplete (g k : Nat) (s : State) : Out :=
  let t := (s.cluster g).run
  .next (s.modCore g k fun c =>
    { c with
      fold := c.fold.filter (fun f => !f.doneBy t)
      pending := c.pending ++ (c.fold.filter (Fold.doneBy t)).map
        (fun f => ⟨t + f.shift + 6, f.issued, f.ctx, .tsCond (2 + f.j) f.bits 0⟩) })

/-! ### Drains (08 R185) -/

/-- Released entries whose bank's core-side port is free on a cycle, the oldest of each bank. -/
def Core.drainable (t : Nat) (c : Core) : List WEntry :=
  (c.wbuf.filter (fun e => e.released && !c.sched.any (fun b => b.due == t && b.bank == bankOfLine e.line))).foldl
    (fun l e => if l.any (fun d => bankOfLine d.line == bankOfLine e.line) then l else l ++ [e]) []

/-- WITHHOLD_DRAIN (08 R185). -/
def execWithholdDrain (g k : Nat) (s : State) : Out :=
  let t := (s.cluster g).run
  .next (s.modCore g k fun c => { (c.drainable t).foldl (fun c e => c.drainEntry e) c with drained := t })

/-! ### Arrival counters and triggers (13 R303, 11 R265) -/

def Cluster.counter (cl : Cluster) (n : Nat) : Nat := (tget 0 cl.counters n).toNat
def Cluster.setCounter (n v : Nat) (cl : Cluster) : Cluster :=
  { cl with counters := tset 0 cl.counters n (BitVec.ofNat 32 v) }

/-- Raises a counter by the bumps of a cycle; a sum past the largest value saturates and is counted. -/
def Cluster.bump (n amount : Nat) (cl : Cluster) : Cluster :=
  if cl.counter n + amount < 2 ^ 32 then cl.setCounter n (cl.counter n + amount)
  else { cl.setCounter n (2 ^ 32 - 1) with satCount := satAdd cl.satCount 1 }

/-- A bump to come on the next running cycle. -/
def State.addBump (g n amount : Nat) (s : State) : State :=
  s.modCluster g fun cl => { cl with bumps := cl.bumps ++ [{ due := cl.run + 1, counter := n, amount := amount }] }

/-- Frees the operations that waited for their bump alone (10 R235). -/
def Cluster.freeBumped (ids : List Nat) (cl : Cluster) : Cluster :=
  if ids.isEmpty then cl
  else { cl with cores := cl.cores.map fun p => (p.1, { p.2 with ctxs := p.2.ctxs.map fun q =>
      (q.1, { q.2 with untimed := q.2.untimed.filter (fun u => !(u.phase == .bumpDue && ids.contains u.id)) }) }) }

/-- Step 1 of R303. -/
def Cluster.applyBumps (t : Nat) (cl : Cluster) : Cluster :=
  let now := cl.bumps.filter (fun b => decide (b.due ≤ t))
  let cl1 := (now.map (·.counter)).eraseDups.foldl (fun c n =>
    c.bump n (((now.filter (fun b => b.counter == n)).map (·.amount)).sum)) cl
  { cl1.freeBumped (now.filterMap (fun b => b.op.map (·.id))) with
    bumps := cl.bumps.filter (fun b => decide (t < b.due))
    changes := cl1.changes ++ now.filterMap (fun b => b.who.map (fun w => ⟨w.1, w.2, b.counter, true, b.amount⟩)) }

/-- One entry of the trigger table (11 R265). -/
def Cluster.fire (cl : Cluster) (i : Nat) : Cluster :=
  let e := tget {} cl.triggers i
  if e.flags % 2 = 1 ∧ e.threshold ≤ cl.counter e.counter ∧ e.pending < 255 then
    { cl.setCounter e.counter (cl.counter e.counter - e.threshold) with
      triggers := tput cl.triggers i { e with
        pending := e.pending + 1
        flags := if e.flags / 2 % 2 = 1 then e.flags - 1 else e.flags } }
  else cl

/-- What a CNT selector names, as it stands now (13 R299, R302, R314). -/
def State.selected (s : State) (g k sel : Nat) : Nat :=
  let cl := s.cluster g
  let c := cl.core k
  let dcc := match s.domainOf g with
    | some d => if cl.trigger then 0 else d.dccBase + (s.now - d.startCycle)
    | none => 0
  let straggler := match s.domainOf g with
    | some d => if cl.trigger || d.pcn.toNat % 2 == 1 then 0 else Nat.min (s.now - d.timerBase) (2 ^ 32 - 1)
    | none => 0
  let n := sel % 256
  match sel / 256 with
  | 0 => cl.counter n
  | 1 => if n = 0 then s.tick.toNat % 2 ^ 32 else s.tick.toNat / 2 ^ 32
  | 2 => if n = 0 then dcc % 2 ^ 32 else if n = 1 then dcc / 2 ^ 32 % 2 ^ 32 else straggler
  | 3 => (match n with
    | 0 => c.collisions
    | 1 => c.ceCount
    | _ => c.poisonCount).toNat
  | 4 => (match n with
    | 0 => cl.holdCount
    | 1 => cl.compatCount
    | 2 => cl.dupCount
    | 3 => cl.copyErrors
    | 4 => cl.cairnErrors
    | _ => cl.satCount).toNat
  | 5 => (if n = 0 then s.stretchCount else s.stretchEvents).toNat
  | 16 => (s.port n).drops.toNat
  | 17 => (s.port n).importErrors.toNat
  | 18 => (s.pipe n).unclaimed.toNat
  | 19 => (s.pipe n).hopLimit.toNat
  | 20 => (s.pipe n).puntDrops.toNat
  | 21 => (s.port n).replays.toNat
  | 22 => (s.port n).crcFails.toNat
  | _ => 0

/-- CNT.clr (13 R314): the counter that a selector names returns to 0. -/
def State.clearSelected (g k sel : Nat) (s : State) : State :=
  let n := sel % 256
  match sel / 256 with
  | 0 => s.modCluster g (Cluster.setCounter n 0)
  | 3 => s.modCore g k fun c => match n with
    | 0 => { c with collisions := 0 }
    | 1 => { c with ceCount := 0 }
    | _ => { c with poisonCount := 0 }
  | 4 => s.modCluster g fun c => match n with
    | 0 => { c with holdCount := 0 }
    | 1 => { c with compatCount := 0 }
    | 2 => { c with dupCount := 0 }
    | 3 => { c with copyErrors := 0 }
    | 4 => { c with cairnErrors := 0 }
    | _ => { c with satCount := 0 }
  | 5 => if n = 0 then { s with stretchCount := 0 } else { s with stretchEvents := 0 }
  | 16 => s.modPort n fun p => { p with drops := 0 }
  | 17 => s.modPort n fun p => { p with importErrors := 0 }
  | 18 => s.modPipe n fun p => { p with unclaimed := 0 }
  | 19 => s.modPipe n fun p => { p with hopLimit := 0 }
  | 20 => s.modPipe n fun p => { p with puntDrops := 0 }
  | 21 => s.modPort n fun p => { p with replays := 0 }
  | 22 => s.modPort n fun p => { p with crcFails := 0 }
  | _ => s

/-- ARRIVAL_COUNTER_UPDATE (13 R303). Before the cycle's bundles it makes steps 1 and 2; step 3 stands in WAIT itself; after
the bundles it makes steps 4 and 5. -/
def execArrivalCounterUpdate (g : Nat) (s : State) : Out :=
  let cl := s.cluster g
  let t := cl.run
  if cl.counted < t then
    .next (s.modCluster g fun cl =>
      let c1 := (List.range 64).foldl Cluster.fire (cl.applyBumps t)
      { c1 with counted := t })
  else
    let now := cl.reads.filter (fun r => decide (r.due ≤ t))
    let s1 := s.modCluster g fun cl => { cl with reads := cl.reads.filter (fun r => decide (t < r.due)) }
    let s2 := now.foldl (fun s r => s.modCtx g r.core r.ctx fun c =>
      { c with flight := c.flight ++ [⟨t + 2, t - 1, r.pos, .s r.d, mask32, BitVec.ofNat 1024 (s.selected g r.core r.sel), 0⟩] }) s1
    .next ((now.filter (·.clear)).foldl (fun s r =>
      let v := (s.cluster g).counter r.sel
      let s3 := if r.sel < 256 then
          s.modCluster g fun cl => { cl with changes := cl.changes ++ [⟨r.core, r.ctx, r.sel, false, v⟩] } else s
      s3.clearSelected g r.core r.sel) s2)

/-! ### Belays (04 R100, 14 R324, R326) -/

/-- Copies the entries of a table whose numbers meet a test. -/
def copyKeys {α : Type} (p : Nat → Bool) (src dst : Tbl α) : Tbl α :=
  (src.filter (fun e => p e.1)).foldl (fun t e => tput t e.1 e.2) (dst.filter (fun e => !p e.1))

/-- Copies one item of per-core state into the duplicate (04 R100). -/
def Core.copyItem (t : Nat) (c : Core) (d : CoreDup) (i : Item) : CoreDup :=
  let d1 := { d with writers := d.writers.filter (fun (p : Item × Nat) => p.1 != i) ++ c.writers.filter (fun (p : Item × Nat) => p.1 == i) }
  match i with
  | .bank n => { d1 with
      acc := copyKeys (fun k => k / 32 == n) c.acc d.acc, accPoison := copyKeys (fun k => k == n) c.accPoison d.accPoison }
  | .ring n => { d1 with rings := copyKeys (fun k => k == n) c.rings d.rings }
  | .shape n => { d1 with shapes := copyKeys (fun k => k == n) c.shapes d.shapes }
  | .patterns n => { d1 with patterns := copyKeys (fun k => k / 64 == n) c.patterns d.patterns, patSel := c.patSel }
  | .ts n => { d1 with ts := tset 0 d.ts n (c.tsRead t n) }

/-- Every item of per-core state. -/
def allItems : List Item :=
  [.bank 0, .bank 1] ++ (List.range 8).map Item.ring ++ (List.range 16).map Item.shape ++ [.patterns 0, .patterns 1]
    ++ (List.range 11).map Item.ts

/-- The belay of context x copies the per-core state: in timetable mode all of it, in trigger mode the items that x wrote
last or none has written (04 R100). -/
def Core.copyItems (trig : Bool) (x t : Nat) (c : Core) : Core :=
  let mine := allItems.filter (fun i => !trig ||
    match c.writers.find? (fun p => p.1 == i) with
    | some p => p.2 == x
    | none => true)
  let d := mine.foldl (c.copyItem t) c.dup
  { c with dup := { d with pend := d.pend.filter (fun (p : Nat × Pending) => p.2.ctx != x) } }

/-- The belay bundle of a context issues again on cycle t (14 R324, 04 R100): what was issued before the belay and was kept apart,
was noted, or is still in flight lands as many cycles from now as it would have landed after the belay; what an anvil, a fold
unit or an engine still does to per-core state is put off by as much. -/
def Core.replay (x t : Nat) (c : Core) : Core :=
  let y := c.ctx x
  let b := y.belayCycle
  let mine := fun (ctx issued : Nat) => ctx == x && decide (issued < b)
  let c1 : Core := { c with
    pending := (c.dup.pend.filter (fun (p : Nat × Pending) => p.2.ctx == x)).map (fun (p : Nat × Pending) => { p.2 with due := t + p.1 })
      ++ c.pending.map (fun p => if mine p.ctx p.issued then { p with due := p.due + (t - b) } else p)
    anvil := c.anvil.map fun m => if mine m.ctx m.issued then { m with shift := m.shift + (t - b) } else m
    fold := c.fold.map fun f => if mine f.ctx f.issued then { f with shift := f.shift + (t - b) } else f
    cmds := c.cmds.map fun m => if mine m.ctx m.issued then { m with shift := m.shift + (t - b) } else m }
  c1.modCtx x fun y =>
    { y with
      flight := y.dup.pend.map (fun (p : Nat × Result) => { p.2 with due := t + p.1 })
        ++ y.flight.map (fun r => if decide (r.issued < b) then { r with due := r.due + (t - b) } else r) }

/-- The context's part of a belay at bundle `addr`. -/
def Ctx.belay (addr t : Nat) (implicit : Bool) (c : Ctx) : Ctx :=
  { c with
    dup := { s := c.s, c := c.c, p := c.p, v := c.v, hvb := c.hvb, fst := c.fst, fmd := c.fmd }
    blp := BitVec.ofNat 32 addr, belayCycle := t, belayImplicit := implicit, replaying := false, issuedSince := []
    dupBelays := if c.replaying then (if c.dupBelays = 0 then 1 else c.dupBelays) else 2 }

/-- A belay of a context on this cycle (04 R100, 14 R326): the duplicate copy is taken, after a rollback the pending landings
are replayed, and the context's held stores are released (08 R185). -/
def State.takeBelay (g k x addr : Nat) (implicit : Bool) (s : State) : State :=
  let t := (s.cluster g).run
  s.modCluster g fun cl =>
    let cl1 := cl.modCore k fun c =>
      let c1 := if (c.ctx x).replaying then c.replay x t else c
      ((c1.copyItems cl.trigger x t).modCtx x (Ctx.belay addr t implicit)).release x
    { cl1 with changes := cl1.changes.filter (fun h => !(h.core == k && h.ctx == x)) }

/-! ### Rollback (14 R323, R325) -/

/-- Whether a rollback applies to a context: not one that has halted, was never launched, or has stopped for its domain. -/
def Ctx.rollsBack (trig : Bool) (x : Nat) (c : Ctx) : Bool :=
  (trig || x == 0) && c.status != .never && c.status != .halted && c.status != .faulted

/-- The registers of a context from its duplicate set, with what it issued since the belay discarded. -/
def Ctx.restoreRegs (c : Ctx) : Ctx :=
  { c with
    s := c.dup.s, c := c.dup.c, p := c.dup.p, v := c.dup.v, hvb := c.dup.hvb, fst := c.dup.fst, fmd := c.dup.fmd
    flight := c.flight.filter (fun r => decide (r.issued < c.belayCycle))
    replaying := true, replay := c.issuedSince ++ c.replay, issuedSince := [] }

/-- A context stands at its belay bundle, to issue from cycle `r` on with `r` as its sync base (14 R327). -/
def Ctx.toBelay (r : Nat) (c : Ctx) : Ctx :=
  { c with
    status := .ready, pc := c.blp.toNat, base := (r : Int), refc := (r : Int), regionE := none, lastOfs := none
    shadow := none, held := false, guarded := false, fresh := true, notBefore := r }

/-- The per-core state from the duplicate copy, in a core of which some context rolls back (a core whose contexts have all halted
stays as found, 07 R164, 14 R323); what contexts issued since their belays is cancelled (04 R100, 07 R171). -/
def Core.restoreItems (c : Core) (back : Nat → Bool) : Core :=
  let d := c.dup
  let keep := fun (x issued : Nat) => !back x || decide (issued < (c.ctx x).belayCycle)
  if !(List.range 4).any back then c else
  { c with
    acc := d.acc, accPoison := d.accPoison, rings := d.rings, shapes := d.shapes, patterns := d.patterns
    patSel := d.patSel, ts := d.ts, writers := d.writers
    cmds := c.cmds.filter (fun m => keep m.ctx m.issued)
    anvil := c.anvil.filter (fun m => keep m.ctx m.issued)
    fold := c.fold.filter (fun f => keep f.ctx f.issued)
    pending := c.pending.filter (fun p => keep p.ctx p.issued)
    sched := c.sched.filter (fun b => keep b.ctx b.issued)
    wbuf := c.wbuf.filter (fun e => e.released || !back e.ctx) }

/-- Reverses one change to an arrival counter (14 R325). -/
def Cluster.reverse (cl : Cluster) (h : CounterChange) : Cluster :=
  let v := cl.counter h.counter
  cl.setCounter h.counter (if h.up then v - h.amount else Nat.min (v + h.amount) (2 ^ 32 - 1))

/-- The rollback of a cluster to its contexts' belays (14 R323): `still` names the contexts whose handler runs, which keep
their place; every other one stands at its belay until `r`. -/
def State.rollBack (g : Nat) (still : List (Nat × Nat)) (r : Nat) (s : State) : State :=
  let cl := s.cluster g
  let trig := cl.trigger
  let back := fun (c : Core) (x : Nat) => (c.ctx x).rollsBack trig x
  let gone := cl.cores.flatMap (fun (p : Nat × Core) =>
    p.2.cmds.filter (fun m => back p.2 m.ctx && decide ((p.2.ctx m.ctx).belayCycle ≤ m.issued)))
  let s1 := s.dropBusy gone
  s1.modCluster g fun cl =>
    let undone := cl.changes.filter (fun h => back (cl.core h.core) h.ctx)
    let cl1 := undone.reverse.foldl Cluster.reverse cl
    { cl1 with
      changes := cl.changes.filter (fun h => !back (cl.core h.core) h.ctx)
      reads := cl.reads.filter (fun h => !back (cl.core h.core) h.ctx)
      side := cl.side.filter (fun a => a.kind == .exchange || a.kind == .landing ||
        !back (cl.core a.source) a.ctx || decide (a.issued < ((cl.core a.source).ctx a.ctx).belayCycle))
      arrived := cl.arrived.filter (fun p => !back (cl.core p.1) 0)
      cores := cl.cores.map fun p =>
        let c := p.2.restoreItems (back p.2)
        (p.1, { c with ctxs := c.ctxs.map fun q =>
          if q.2.rollsBack trig q.1 then
            let y := q.2.restoreRegs
            (q.1, if still.contains (p.1, q.1) then y else y.toBelay r)
          else q }) }

/-- ROLLBACK (14 R322, R323), on the cycle after the trap, or after the TRET that a deferred one waits for. -/
def execRollback (g : Nat) (s : State) : Out :=
  match (s.cluster g).trap with
  | none => .next s
  | some tr =>
    match tr.rollbackAt with
    | none => .next s
    | some _ =>
      let r := tr.release.getD 0
      let s1 := s.rollBack g (if tr.release.isSome then [] else tr.handlers) r
      .next (s1.modCluster g fun cl => { cl with trap := some { tr with rollbackAt := none } })

/-- A context that was launched while its cluster stood for a trap: its entry bundle is released to it now (01 R25). -/
def Ctx.released (r : Nat) (c : Ctx) : Ctx :=
  if c.fresh && c.status == .ready && !c.replaying then { c with base := (r : Int), refc := (r : Int), notBefore := Nat.max c.notBefore r }
  else c

/-- The release of a cluster after TRET (14 R316, R327): every context that rolled back takes the release cycle as its base;
an implicit belay is issued again on it. -/
def State.releaseTrap (g : Nat) (s : State) : State :=
  let cl := s.cluster g
  match cl.trap with
  | none => s
  | some _ =>
    let s1 := s.modCluster g fun cl => { cl with
      trap := none
      cores := cl.cores.map fun p => (p.1, { p.2 with ctxs := p.2.ctxs.map fun q => (q.1, q.2.released cl.run) }) }
    let xs := cl.cores.flatMap (fun p => p.2.ctxs.map (fun q => (p.1, q.1, q.2)))
    (xs.filter (fun q => q.2.2.replaying)).foldl (fun s q =>
      let s2 := s.modCtx g q.1 q.2.1 (Ctx.toBelay cl.run)
      if q.2.2.belayImplicit then s2.takeBelay g q.1 q.2.1 q.2.2.blp.toNat true else s2) s1

/-! ### Launching and choosing contexts (01 R36, R38) -/

/-- Whether a timed operation or result that a context issued is still under way on cycle t; `first` bounds its issue. -/
def Core.outstanding (x first t : Nat) (c : Core) : Bool :=
  (c.ctx x).flight.any (fun r => decide (first ≤ r.issued) && decide (t < r.due))
    || c.cmds.any (fun m => m.ctx == x && decide (first ≤ m.issued) && decide (t < m.done))
    || c.anvil.any (fun m => m.ctx == x && decide (first ≤ m.issued))
    || c.fold.any (fun f => f.ctx == x && decide (first ≤ f.issued) && !f.doneBy t)
    || c.pending.any (fun p => p.ctx == x && decide (first ≤ p.issued) && decide (t < p.due) && !p.upd.isCond)

/-- The same in a cluster, which also holds the reads of CNT until their values are taken (13 R303, R314). -/
def Cluster.outstanding (k x first t : Nat) (cl : Cluster) : Bool :=
  (cl.core k).outstanding x first t || cl.reads.any (fun r => r.core == k && r.ctx == x && decide (first < r.due))

/-- A free context (01 R36). -/
def Cluster.isFree (k x t : Nat) (cl : Cluster) : Bool :=
  (((cl.core k).ctx x).status == .never || ((cl.core k).ctx x).status == .halted) && !cl.outstanding k x 0 t

/-- A launch of a context (04 R89, 14 R326): its entry bundle is released on cycle `t`. -/
def Ctx.launch (entry : Nat) (hvb : Word) (ring t : Nat) (serial : Bool) (c : Ctx) : Ctx :=
  { c with
    tsr := if serial then 8 else 0, tcr := 0, tva := 0, fst := 0, hvb := hvb, status := .ready, pc := entry
    base := (t : Int), refc := (t : Int), regionE := none, lastOfs := none, shadow := none, notBefore := t, held := false
    guarded := false, fresh := true
    serialTask := serial, lastIssue := none, ring := ring, dupAddr := none, replaying := false, replay := [], resume := entry }

/-- The pending trigger of a core with the lowest index. -/
def Cluster.nextTrigger (k : Nat) (cl : Cluster) : Option (Nat × Trigger) :=
  cl.triggers.find? (fun p => p.2.core == k && decide (0 < p.2.pending))

/-- Whether the task that holds a cluster requested serial issue (01 R33). -/
def State.serialTask (s : State) (g : Nat) : Bool := s.tasks.any (fun t => t.serial && t.clusters.contains g)

/-- CONTEXT_LAUNCH (01 R36, 11 R265): one pending fire launches its kernel into the lowest free context of its core. -/
def execContextLaunch (g k : Nat) (s : State) : Out :=
  let cl := s.cluster g
  let t := cl.run
  match cl.nextTrigger k, (List.range 4).find? (fun x => cl.isFree k x t) with
  | some (i, e), some x =>
    let s1 := s.modCluster g fun cl => { cl with triggers := tput cl.triggers i { e with pending := e.pending - 1 } }
    .next ((s1.modCtx g k x (Ctx.launch e.entry e.hvb e.ring t (s.serialTask g))).takeBelay g k x e.entry true)
  | _, _ => .next s

/-- Whether a core has no context that holds it (01 R38). -/
def Core.vacant (c : Core) : Bool :=
  c.choosing.isSome || ((c.ctx c.running).status != .ready && (c.ctx c.running).status != .blocked)

/-- CONTEXT_RESUME (01 R37, R38): context x takes its core, which no context holds, and issues no earlier than three cycles
after the one that blocked or halted; a blocked bundle is tried again. -/
def execContextResume (g k x : Nat) (s : State) : Out :=
  let c := s.core g k
  if c.vacant && ((c.ctx x).status == .ready || (c.ctx x).status == .blocked) then
    let from_ := match c.choosing with
      | some n => n + 3
      | none => 0
    .next ((s.modCore g k fun c => { c with running := x, choosing := none }).modCtx g k x fun y =>
      let r := Nat.max y.notBefore from_
      if y.fresh then { y with notBefore := r, base := (r : Int), refc := (r : Int) }
      else { y with status := .ready, held := true, notBefore := r })
  else .next s

end Sys2Proof.Machine
end

