-- ==== Sys2Proof/Machine/System.lean ====
section
/-! DEFINITION. The system opcodes 0xF0 to 0xF7 except ASSAY (13 R305 to R317): TRAP, TRET, HALT, BAR, PITCH, WAIT, CNT, and
the cluster's barrier events. -/

namespace Sys2Proof.Machine

/-! ### Traps, handlers and HALT (13 R315 to R317) -/

/-- TRAP (R315). -/
def execTrap (im : BitVec 14) (s : State) : Out := .next (s.takeTrapWith codeSoftwareTrap (im.setWidth 32))

/-- Contexts that a rollback does not move go on where they stand, their spacing kept (07 R164). -/
def Cluster.shiftAll (cl : Cluster) : Cluster :=
  { cl with cores := cl.cores.map fun p => (p.1, { p.2 with
      ctxs := p.2.ctxs.map fun q => (q.1, if q.2.status == .ready then { q.2 with held := true } else q.2) }) }

/-- The issuing context's handler ends, by TRET or by HALT: with the last handler of the trap the cluster is released
eight cycles on, and a deferred rollback is made (13 R306, R311, R316, 07 R164). -/
def State.endHandler (ret : Bool) (s : State) : State :=
  let g := s.cur.g
  match (s.cluster g).trap with
  | none => s
  | some tr =>
    let left := tr.handlers.filter (fun h => h != (s.cur.k, s.cur.x))
    let s1 := s.modCluster g fun cl => { cl with trap := some { tr with handlers := left } }
    if !left.isEmpty then s1
    else if !tr.deferred then s1.modCluster g (Cluster.endTrap false)
    else if (s.cluster g).trigger then
      s1.modCluster g fun cl => if ret then cl.endTrap true else (cl.endTrap false).shiftAll
    else
      match s1.domainOf g with
      | some d =>
        if d.phase == .errorPhase then s1.endPhase d else s1.modCluster g (Cluster.endTrap true)
      | none => s1.modCluster g (Cluster.endTrap true)

/-- TSR after TRET (04 R92): HND is cleared, and SER too but for a task that requested serial issue. -/
def tsrAfterTret (serial : Bool) (tsr : Word) : Word := tsr &&& ~~~(if serial then 0x10 else 0x18)

/-- A TSR that TRET does not resume from (04 R92). -/
def tsrCorrupt (tsr : Word) : Bool := decide (2 ^ 16 ≤ tsr.toNat) || tsr.getLsbD 5 || bits tsr.toNat 7 6 == 3

/-- TRET (R316). -/
def execTret (s : State) : Out :=
  s.require s.here.shadow.isNone codeShadowIllegal fun s =>
    s.require s.here.hnd codeContextIllegal fun s =>
      let c := s.here
      if tsrCorrupt c.tsr then
        if s.hereCluster.trigger then .next (s.fence s.cur.g codeStatusCorrupt)
        else
          .next (((s.modHere fun c => { c with status := .faulted }).modDomainOf s.cur.g fun d =>
            { d with fatal := d.fatal.orElse (fun _ => some codeStatusCorrupt) }).endHandler true)
      else
        let s1 := s.modHereCore (Core.release s.cur.x)
        let s2 := s1.modHere fun c => { c with tsr := tsrAfterTret c.serialTask c.tsr }
        if c.serialTask then
          .next (s2.modHere fun c =>
            { c with pc := c.resume, notBefore := s.t + 8, lastIssue := none, shadow := none, guarded := false, regionE := none
                     lastOfs := none })
        else .next (s2.endHandler true)

/-- In trigger mode a WAIT, UFNC or HALT of the context that issued a faulting anvil instruction delivers the record in its
place (07 R164). -/
def State.recordDue (s : State) : Option Word :=
  match s.hereCore.afault with
  | some f => if s.hereCluster.trigger && f.ctx == s.cur.x then some f.word else none
  | none => none

def State.unlessRecord (s : State) (f : State → Out) : Out :=
  match s.recordDue with
  | some w => .next (s.takeTrapWith codeAnvilOperand w)
  | none => f s

/-- HALT (R317). -/
def execHalt (s : State) : Out :=
  s.unlessRecord fun s =>
    let hnd := s.here.hnd
    let s1 := s.modHereCore fun c =>
      let c1 := (c.release s.cur.x).modCtx s.cur.x fun x => { x with status := .halted, shadow := none }
      if s.hereCluster.trigger then { c1 with choosing := some s.t } else c1
    .next (if hnd then s1.endHandler false else s1)

/-! ### BAR and PITCH (R305, R307) -/

/-- The issuing context ends its region and waits; in the shadow of a taken transfer the target comes next (01 R25, R27). -/
def Ctx.arrive (st : Status) (c : Ctx) : Ctx :=
  { c with
    status := st, regionE := none, lastOfs := none, shadow := none
    pc := match c.shadow with
      | some h => h.target
      | none => c.pc }

/-- BAR (R305): the core arrives on the next running cycle. -/
def execBar (s : State) : Out :=
  s.legal .barrier fun s =>
    .next ((s.modHere (Ctx.arrive .atBar)).modHereCluster fun cl => { cl with arrived := tput cl.arrived s.cur.k (s.t + 1) })

/-- PITCH (R307, 08 R186): every held store of the core is released. -/
def execPitch (s : State) : Out :=
  s.legal .barrier fun s => .next ((s.modHere (Ctx.arrive .atPitch)).modHereCore Core.releaseAll)

/-- Whether a core counts as arrived at every BAR and boundary: it has halted, was never launched, or has stopped for its
domain (R305, R317, 14 R332). -/
def Core.gone (c : Core) : Bool := (c.ctx 0).status == .never || (c.ctx 0).status == .halted || (c.ctx 0).status == .faulted

/-- The release cycle of the barrier: three after the latest arrival, once every core has arrived (R305). -/
def Cluster.barrierAt (cl : Cluster) : Option Nat :=
  if cl.arrived.isEmpty || !(List.range 48).all (fun k => (cl.core k).gone || cl.arrived.any (fun p => p.1 == k)) then none
  else some (cl.arrived.foldl (fun m p => Nat.max m p.2) 0 + 3)

/-- A context enters its handler for the core's anvil fault record, to issue from cycle `r` on (07 R164). DESIGN CHOICE (log entry
60): no slot faults in an error phase, and the spec names no OPC and POS for TSR there; both are written 0. -/
def State.deliverAt (g k r : Nat) (s : State) : State :=
  match (s.core g k).afault with
  | none => s
  | some f =>
    let tsr := tsrAtTrap 0 (s.ph g) 0
    (s.modCore g k fun c => { c with afault := none }).modCtx g k 0 fun c => c.enterHandler codeAnvilOperand f.word tsr c.hvb r

/-- The participants of a boundary or barrier with a pending record. -/
def Cluster.recorded (cl : Cluster) : List Nat :=
  (List.range 48).filter (fun k => !(cl.core k).gone && (cl.core k).afault.isSome)

/-- BAR_RELEASE (R305, R306): every participant's next region has the release cycle as its sync base; or the barrier
completes in its error phase, and the cores with a pending record enter their handlers. -/
def execBarRelease (g : Nat) (s : State) : Out :=
  let cl := s.cluster g
  let r := cl.run
  if cl.recorded.isEmpty then
    .next (s.modCluster g fun cl =>
      { cl with
        arrived := []
        cores := cl.cores.map fun p => (p.1, p.2.modCtx 0 fun c =>
          if c.status == .atBar then { c with status := .ready, base := (r : Int), refc := (r : Int), notBefore := r } else c) })
  else
    let s1 := cl.recorded.foldl (fun s k => s.deliverAt g k r) s
    .next (s1.modCluster g fun c =>
      { c with
        arrived := c.arrived.filter (fun p => !cl.recorded.contains p.1)
        trap := some { cycle := r, handlers := cl.recorded.map (fun k => (k, 0)), deferred := true } })

/-- Whether some timed engine operation of a core is not yet complete. -/
def Core.working (t : Nat) (c : Core) : Bool :=
  c.cmds.any (fun m => decide (t < m.done)) || !c.anvil.isEmpty || c.fold.any (fun f => !f.doneBy t)
    || c.pending.any (fun p => decide (t < p.due) && !p.upd.isCond)

/-- Whether every timed operation of a core is over and its buffer has drained (R307). -/
def Core.quiet (t : Nat) (c : Core) : Bool := !c.working t && c.wbuf.isEmpty

/-- PITCH_COMPLETE (R307). -/
def execPitchComplete (g k : Nat) (s : State) : Out :=
  .next (s.modCtx g k 0 fun c => if c.status == .atPitch then { c with status := .atBoundary } else c)

/-! ### WAIT and CNT (R313, R314) -/

/-- The bundle does not issue now: it blocks, or in serial issue mode is held without a switch (R313, 10 R238). -/
def State.blockOrHold (s : State) : State := if s.here.ser then s.holdBundle else s.block

/-- WAIT (R313). -/
def execWait (a b : BitVec 5) (c : BitVec 1) (s : State) : Out :=
  s.limit (decide ((s.rs a).toNat < 256)) fun s => s.legal .wait fun s =>
    s.unlessRecord fun s =>
      let n := (s.rs a).toNat
      let v := (s.rs b).toNat
      if v ≤ s.hereCluster.counter n then
        if c = 1 then
          .next (s.modHereCluster fun cl =>
            { cl.setCounter n (cl.counter n - v) with changes := cl.changes ++ [⟨s.cur.k, s.cur.x, n, false, v⟩] })
        else .next s
      else .next s.blockOrHold

/-- Selectors that R299 lists, and those of world 0. -/
def selectorListed (sel : Nat) : Bool :=
  let n := sel % 256
  match sel / 256 with
  | 0 => true
  | 1 => decide (n < 2)
  | 2 => decide (n < 3)
  | 3 => decide (n < 3)
  | 4 => decide (n < 6)
  | 5 => decide (n < 2)
  | k => decide (16 ≤ k) && decide (k ≤ 22) && decide (n < 36)
def selectorWorld0 (sel : Nat) : Bool := decide (5 ≤ sel / 256)

/-- The operand limits of CNT (R314). -/
def State.okCnt (s : State) (d a : BitVec 5) (m : BitVec 2) : Bool :=
  let sel := (s.rs a).toNat
  match m.toNat with
  | 2 => d == 0 && decide (sel < 256)
  | 3 => false
  | k =>
    decide (sel < 2 ^ 16) && selectorListed sel && (!selectorWorld0 sel || s.hereCluster.world == 0)
      && !(k == 1 && (sel / 256 == 1 || sel / 256 == 2))

/-- CNT (R314). -/
def execCnt (d a b : BitVec 5) (m : BitVec 2) (s : State) : Out :=
  s.limit (s.okCnt d a m) fun s =>
    .next (s.modHereCluster fun cl =>
      if m = 2 then
        { cl with bumps := cl.bumps ++ [⟨s.t + 1, (s.rs a).toNat, (s.rs b).toNat, some (s.cur.k, s.cur.x), none⟩] }
      else { cl with reads := cl.reads ++ [⟨s.t + 1, s.cur.k, s.cur.x, (s.rs a).toNat, s.cur.pos, d.toNat, m == 1⟩] })

end Sys2Proof.Machine
end

