-- ==== Sys2Proof/Machine/Untimed.lean ====
section
/-! DEFINITION. Untimed operations: the instructions that queue them (09 R223 to R229), the fabric engine (10 R236), the
memory side of imported requests (11 R258, R259, 08 R193, R198, R199), and responses (12 R292, 15 R358). -/

namespace Sys2Proof.Machine

/-! ### Issue (10 R235 to R238) -/

/-- Whether a rollback suppresses the context's next untimed issue (R237). -/
def State.suppressed (s : State) : Bool := !s.here.replay.isEmpty

/-- The operand limit of a descriptor's address (09 R223); a suppressed issue raises nothing. -/
def State.okDescriptor (s : State) (a : BitVec 5) : Bool :=
  s.suppressed || ((s.rs a).toNat % 32 == 0 && decide ((s.rs a).toNat < spadBytes))

/-- A suppressed issue stands for the operation that it matches (R237). -/
def State.suppress (s : State) : State :=
  s.modHere fun c =>
    match c.replay with
    | [] => c
    | r :: t => { c with replay := t, issuedSince := c.issuedSince ++ [r] }

/-- Takes an entry of the context's untimed queue. -/
def State.takeEntry (u : Untimed) (s : State) : State :=
  let v := { u with id := s.nextUntimed, issued := s.t, world := s.hereCluster.world }
  { s.modHere (fun c => { c with untimed := c.untimed ++ [v], issuedSince := c.issuedSince ++ [v.id] }) with
    nextUntimed := s.nextUntimed + 1 }

/-- What every untimed instruction meets before its own work: R21, suppression, and in serial issue the drain of the
released stores (08 R186). -/
def State.untimedIssue (s : State) (k : State → Out) : Out :=
  s.legal .untimed fun s =>
    if s.suppressed then .next s.suppress
    else if s.here.ser && s.hereCore.wbuf.any (fun e => e.released) then .next s.holdBundle
    else k s

/-- A full untimed queue blocks or holds the bundle (R238). -/
def State.untimedRoom (s : State) (k : State → Out) : Out :=
  if 32 ≤ s.here.untimed.length then .next s.blockOrHold else k s

/-! ### Descriptors (09 R223, R225, R229) -/

/-- The fields of a descriptor. -/
def descriptor (kind b : Nat) : Untimed :=
  let fl := bits b 207 200
  { id := 0, kind := kind, issued := 0, module := bits b 11 0, imp := bits b 31 16, key := bits b 63 32
    offset := bits b 127 64, length := bits b 159 128, loc := bits b 191 160, counter := bits b 199 192
    bump := fl % 2 == 1, cairn := bits b 201 201 == 1, irq := bits b 202 202 == 1, op := bits b 215 208
    port := bits b 7 0, handle := bits b 31 0, index := bits b 63 32 }

/-- The bytes of the scratchpad that an operation reads or that its response may write, from its local address. -/
def Untimed.span (u : Untimed) : Nat :=
  if u.kind = 3 then (if 128 ≤ u.op then 16 + u.length else if u.op % 8 = 7 then 8 + u.length else u.length) else u.length

/-- The bytes of the largest item of a pipeline's tables (12 R285). -/
def largestItem : Nat := 80

/-- Whether a descriptor keeps its table. DESIGN CHOICE (log entry 57), where 09 R223 and R225 give no limit and no status: a local
range that runs past the end of the scratchpad, a nonzero byte 26 in a descriptor that is no FATM's, and a nonzero byte 1 in a
PINJ's break it too. -/
def descriptorOk (kind b : Nat) : Bool :=
  let u := descriptor kind b
  let sized := match kind with
    | 1 | 2 => decide (1 ≤ u.length) && decide (u.length ≤ 65536)
    | 5 => decide (16 ≤ u.length) && decide (u.length ≤ 9216)
    | 6 => true
    | _ => u.length == 4 || u.length == 8
  let target := match kind with
    | 5 => bits b 127 8 == 0 && decide (u.port < 36)
    | 6 => bits b 127 64 == 0
    | _ => bits b 15 12 == 0 && decide (u.offset < 2 ^ 40)
  let opOk := if kind = 3 then
      bits u.op 6 4 == 0 && (bits u.op 3 3 == 1) == (u.length == 8) && !(u.op % 8 == 1 && u.length == 8) && decide (u.imp < 8192)
    else u.op == 0
  let place := match kind with
    | 3 => u.loc % 32 == 0
    | 5 | 6 => u.loc % 64 == 0
    | _ => true
  sized && target && opOk && place && bits b 255 216 == 0 && bits b 207 203 == 0 && (!u.irq || u.cairn)
    && (decide (u.loc + u.span ≤ spadBytes) || (kind == 6 && decide (largestItem < u.length)))

/-- The bytes that an operation reads from its scratchpad (09 R224). -/
def Untimed.reads (u : Untimed) : Nat :=
  match u.kind with
  | 1 | 5 | 6 => u.length
  | 3 => 16
  | _ => 0

/-! ### The peer map (11 R261) -/

/-- Whether a world's partition bitmap admits a module; until world 0's partition field is written it admits only its own
(16 R405). -/
def State.admits (s : State) (w m : Nat) : Bool :=
  m == s.moduleId.toNat || (w != 0 || (s.world w).mapped) && bits (s.phys ((s.world w).partition * 4096 + m / 8) 1) (m % 8) (m % 8) == 1

/-- The source's check of a target module: DONE, or the status of the refusal. -/
def State.peerStatus (s : State) (w m : Nat) : Nat :=
  if m = s.moduleId.toNat then codeDone
  else if !s.admits w m then codePeerDenied
  else match tget 0 s.peers m with
    | 1 => codeDone
    | 2 => codePeerDown
    | _ => codePeerAbsent

/-- The source's check of an operation (09 R225, R226); the length of a TBLW that is no item's is refused before its bytes are
read (12 R285). -/
def State.sourceStatus (s : State) (w : Nat) (u : Untimed) : Nat :=
  match u.kind with
  | 5 => if !(s.world w).ports.getLsbD u.port then codePeerDenied else if !(s.port u.port).trained then codePeerDown else codeDone
  | 6 => if u.length = 0 ∨ largestItem < u.length then codeTableDenied else codeDone
  | _ => s.peerStatus w u.module

/-- FPUT, FGET, FATM, FFLR, PINJ and TBLW (09 R223 to R226, R229): the descriptor is read, checked, and the operation takes
its entry; a refused one has completed. -/
def State.untimedOp (kind : Nat) (a : BitVec 5) (s : State) : Out :=
  s.limit (s.okDescriptor a) fun s => s.untimedIssue fun s =>
    let adr := (s.rs a).toNat
    s.checkRanges [(s.cur.k, adr, 32)] fun s => s.untimedRoom fun s =>
      let r := s.freeRead s.cur.g s.cur.k adr 32
      let u := descriptor kind r.1
      let good := descriptorOk kind r.1
      let status := if good then s.sourceStatus s.hereCluster.world u else codeOperandIllegal
      let sch := (s.t + 1, adr / 64) :: (if status = codeDone then streamSchedule u.loc u.reads 128 (s.t + 1) else [])
      if s.hereCore.busy sch then .next s.bankConflict
      else
        let s1 := r.2.bookHere sch
        .next (s1.takeEntry (if status = codeDone then u else
          { u with phase := .completed, status := status, refused := true, doneTick := s.tick.toNat }))

/-- FPUT (R224). -/
def execFput (a : BitVec 5) (s : State) : Out := s.untimedOp 1 a
/-- FGET (R224). -/
def execFget (a : BitVec 5) (s : State) : Out := s.untimedOp 2 a
/-- FATM (R224). -/
def execFatm (a : BitVec 5) (s : State) : Out := s.untimedOp 3 a
/-- FFLR (R224). -/
def execFflr (a : BitVec 5) (s : State) : Out := s.untimedOp 4 a
/-- PINJ (R225). -/
def execPinj (a : BitVec 5) (s : State) : Out := s.untimedOp 5 a
/-- TBLW (R229). -/
def execTblw (a : BitVec 5) (s : State) : Out := s.untimedOp 6 a

/-- The operand limit of CAIRN (R228). -/
def State.okCairn (s : State) (a : BitVec 5) : Bool := s.suppressed || decide ((s.rs a).toNat < 2 ^ 17)

/-- CAIRN (R228). -/
def execCairn (a b : BitVec 5) (s : State) : Out :=
  s.limit (s.okCairn a) fun s => s.untimedIssue fun s => s.untimedRoom fun s =>
    .next (s.takeEntry { id := 0, kind := 7, issued := 0, status := bits (s.rs a).toNat 15 0, cairn := true
                         irq := (s.rs a).getLsbD 16, moved := (s.rs b).toNat })

/-- UFNC (R228): it waits until the context has no operation outstanding; an anvil record is delivered first (07 R164). -/
def execUfnc (s : State) : Out :=
  s.legal .untimed fun s => s.unlessRecord fun s =>
    if s.here.untimed.isEmpty then .next s else .next s.blockOrHold

/-- The core-side reads that a core's untimed operations make on running cycle t (R224): 128 bytes a cycle from the cycle
after the issue. -/
def State.untimedReads (g k t : Nat) (s : State) : State :=
  (List.range 4).foldl (fun s x => (s.ctx g k x).untimed.foldl (fun s u =>
    let j := t - u.issued - 1
    if u.phase == .queued && decide (u.issued < t) && decide (128 * j < u.reads) && u.data.length == 128 * j then
      let n := Nat.min 128 (u.reads - 128 * j)
      let r := s.freeRead g k (u.loc + 128 * j) n
      r.2.modOp ⟨gcore g k, x, u.id⟩ fun v => { v with data := v.data ++ leBytes n r.1 }
    else s) s) s

/-! ### Fabric packets (12 R271, R272) -/

/-- A Burcon header. -/
def fabricHeader (dmod type w len : Nat) (ret : Bool) (ep key ofs : Nat) : List Byte :=
  leBytes 16 (dmod % 2 ^ 12 + type * 2 ^ 12 + w % 32 * 2 ^ 15 + len % 2 ^ 14 * 2 ^ 20 + (if ret then 2 ^ 35 else 0)
    + ep % 2 ^ 16 * 2 ^ 40 + key % 2 ^ 32 * 2 ^ 56 + ofs % 2 ^ 40 * 2 ^ 88)

/-- Fields of a packet's header. -/
def hdrDmod (b : List Byte) : Nat := bits (field b 0 16) 11 0
def hdrType (b : List Byte) : Nat := bits (field b 0 16) 14 12
def hdrWorld (b : List Byte) : Nat := bits (field b 0 16) 19 15
def hdrLen (b : List Byte) : Nat := bits (field b 0 16) 33 20
def hdrRt (b : List Byte) : Nat := bits (field b 0 16) 34 34
def hdrRet (b : List Byte) : Nat := bits (field b 0 16) 35 35
def hdrHops (b : List Byte) : Nat := bits (field b 0 16) 39 36
def hdrEp (b : List Byte) : Nat := bits (field b 0 16) 55 40
def hdrKey (b : List Byte) : Nat := bits (field b 0 16) 87 56
def hdrOffset (b : List Byte) : Nat := bits (field b 0 16) 127 88

/-- A header with bits h..l replaced. -/
def setHdr (b : List Byte) (h l v : Nat) : List Byte :=
  let x := field b 0 16
  leBytes 16 (x - bits x h l * 2 ^ l + v % 2 ^ (h - l + 1) * 2 ^ l) ++ b.drop 16

/-- The packets' flits of 120 bytes each (R272). -/
def flitsOf (n : Nat) : Nat := (n + 119) / 120

/-- The flits of a class that a port's egress buffer holds. -/
def Port.held (p : Port) (c : Nat) : Nat :=
  ((p.egress.filter (fun k => k.cls == c)).map (fun k => flitsOf k.bytes.length - k.sent)).sum

/-- Whether more flits fit, by class: 256 of each class are its own, and the other 3,072 are shared (10 R245). -/
def Port.fitsAll (p : Port) (more : Nat → Nat) : Bool :=
  decide (((List.range 4).map (fun k => p.held k + more k - 256)).sum ≤ 3072)

/-- Whether n more flits of class c fit. -/
def Port.fits (p : Port) (c n : Nat) : Bool := p.fitsAll fun k => if k = c then n else 0

/-- The port, and the class, by which a fabric engine or the memory side sends to a module. -/
def routePort (m : Nat) : Nat := Config.route m % 36
def routeClass (m : Nat) : Nat := Config.routeClass m % 4

/-- Whether a packet of n bytes to a module has room: in the egress buffer, or before the module's own pipeline. -/
def State.fabricRoom (m n : Nat) (s : State) : Bool :=
  if m = s.moduleId.toNat then (s.pipe (routePort m)).injected.isEmpty
  else (s.port (routePort m)).fits (routeClass m) (flitsOf n)

/-- Sends a packet toward a module; one to the module itself passes its own pipeline (11 R261). -/
def State.sendFabric (m : Nat) (k : Packet) (s : State) : State :=
  let k1 := { k with cls := routeClass m }
  if m = s.moduleId.toNat then s.modPipe (routePort m) fun x => { x with injected := x.injected ++ [k1] }
  else s.modPort (routePort m) fun x => { x with egress := x.egress ++ [k1] }

/-! ### The fabric engine (10 R236) -/

/-- The operation that leaves a core next: operations leave in order of issue. -/
def State.nextDeparture (s : State) (core : Nat) : Option (OpRef × Untimed) :=
  (s.opsOf core).find? (fun q => q.2.phase == .queued && q.2.kind != 7)

/-- The bytes of an operation's next packet: at most 8,192 of payload (12 R272). -/
def Untimed.piece (u : Untimed) : Nat := Nat.min 8192 (u.length - u.gone)

/-- The next packet of an operation. DESIGN CHOICE (log entry 74): 12 R271 and R272 give the comparand of a compare-and-swap no place;
its request carries the operand and then the comparand, LEN bytes each. -/
def State.packetOf (s : State) (u : Untimed) : List Byte :=
  let w := u.world
  match u.kind with
  | 1 => fabricHeader u.module 2 w u.piece false u.imp u.key (u.offset + u.gone) ++ (u.data.drop u.gone).take u.piece
  | 2 => fabricHeader u.module 1 w u.piece false u.imp u.key (u.offset + u.gone)
  | 3 => fabricHeader u.module 3 w u.length (decide (128 ≤ u.op)) (u.imp + u.op % 8 * 2 ^ 13) u.key u.offset
      ++ u.data.take u.length ++ (if u.op % 8 = 7 then (u.data.drop 8).take u.length else [])
  | 4 => fabricHeader u.module 4 w u.length false u.imp u.key u.offset
  | _ => if (s.port u.port).edge then u.data else setHdr u.data 19 15 w

/-- Whether the next operation of a core can leave: its bytes are read and its packet has room. -/
def State.canDepart (s : State) (u : Untimed) : Bool :=
  decide (u.reads ≤ u.data.length) && match u.kind with
    | 5 => (s.pipe u.port).injected.isEmpty
    | 6 => true
    | _ => s.fabricRoom u.module (s.packetOf u).length

/-- An operation that is refused as it would leave (R226). -/
def State.refuse (r : OpRef) (status : Nat) (s : State) : State :=
  (s.completeOp r status 0).modOp r fun u => { u with refused := true }

/-- FABRIC_DEPART (R236): the next packet of the core's next operation leaves, or its table write goes to its pipeline. -/
def execFabricDepart (g k : Nat) (s : State) : Out :=
  match s.nextDeparture (gcore g k) with
  | none => .next s
  | some (r, u) =>
    let w := u.world
    if !s.canDepart u then .next s
    else match u.kind with
      | 5 =>
        .next ((s.modPipe u.port fun x => { x with injected := x.injected ++ [
          { bytes := s.packetOf u, cls := 0, world := w, op := some r, last := true, injected := true }] }).modOp
          r fun u => { u with phase := .departed })
      | 6 =>
        if 36 ≤ u.handle % 64 then .next (s.refuse r codeTableDenied)
        else
          .next ((s.modPipe (u.handle % 64) fun x => { x with writes := x.writes ++ [
            { handle := u.handle, index := u.index, data := u.data, world := w, op := r }] }).modOp
            r fun u => { u with phase := .departed })
      | _ =>
        let p := s.port (routePort u.module)
        if u.module ≠ s.moduleId.toNat ∧ (p.edge ∨ p.trained = false) then .next (s.refuse r codePeerDown)
        else
          let last := decide (u.length ≤ u.gone + u.piece) || u.kind == 3 || u.kind == 4
          let op := if u.kind = 1 then some r else none
          let s1 := s.sendFabric u.module {
            bytes := s.packetOf u, world := w, op := op, last := last, injected := true
            origin := some (s.moduleId.toNat, r.core, u.id, u.gone) }
          .next (s1.modOp r fun u =>
            { u with
              gone := u.gone + u.piece, awaiting := u.awaiting + (if u.kind = 1 then 0 else 1)
              phase := if last then .departed else .queued, departTick := s.tick.toNat })

/-- A packet of an operation has left the module or entered a parser: a store or an injection completes at its source with
its last one (09 R224, R225). -/
def State.packetGone (k : Packet) (s : State) : State :=
  match k.op with
  | some r =>
    match s.findOp r.core r.id with
    | some (_, u) => if k.last && u.phase == .departed then s.completeOp r codeDone u.length else s
    | none => s
  | none => s

/-- A packet of an operation is dropped with its link (15 R357). -/
def State.packetLost (k : Packet) (s : State) : State :=
  match k.op with
  | some r =>
    match s.findOp r.core r.id with
    | some (_, u) => if u.phase == .departed || u.phase == .queued then s.completeOp r codePeerDown u.gone else s
    | none => s
  | none => s

/-! ### Responses (12 R292, 15 R358) -/

/-- An operation whose responses have come and been absorbed is complete (R227). -/
def State.settle (r : OpRef) (s : State) : State :=
  match s.findOp r.core r.id with
  | some (_, u) =>
    if u.phase == .departed && u.awaiting == 0 && u.absorbing == 0 then
      s.completeOp r u.status (if u.kind = 3 ∧ u.status = codeDone then u.length else u.moved)
    else s
  | none => s

/-- A response at pipeline p: it serves the operation that its key names, and its bytes go to the absorb buffer, or to the
park record of a captured context (14 R346). A response that no operation awaits is discarded. -/
def State.takeResponse (p : Nat) (b : List Byte) (s : State) : State :=
  let core := hdrEp b
  match s.findOp core (hdrKey b) with
  | none => s
  | some (r, u) =>
    if u.awaiting = 0 ∨ (s.world u.world).state ≠ 1 then s
    else
      let st := hdrOffset b % 2 ^ 16
      let pos := hdrOffset b / 2 ^ 16
      let data := ((b.drop 16).take (hdrLen b)).take (u.length - pos)
      let adr := if u.kind = 3 then u.loc + 16 else u.loc + pos
      let ok := st == codeDone && !data.isEmpty
      let s1 := s.modOp r fun u =>
        { u with
          awaiting := u.awaiting - 1, status := if u.status = codeDone then st else u.status
          moved := u.moved + (if ok then data.length else 0)
          absorbing := u.absorbing + (if ok && !s.parked r then 1 else 0) }
      if ok && s.parked r then
        let note := fun (k : Park) =>
          if k.ops.any (fun q => q.1.id == r.id) then { k with responses := k.responses ++ [(core, adr, data)] } else k
        State.settle r { s1 with parks := s1.parks.map note }
      else if ok then
        s1.modPipe p fun x =>
          { x with
            nextId := x.nextId + 1
            absorbs := x.absorbs ++ [{ id := x.nextId, cluster := core / 48, core := core % 48, addr := adr, bytes := data
                                       waiting := s.tick.toNat, op := some r }] }
      else s1.settle r

/-- Whether an operation's response is overdue (15 R358). -/
def State.overdue (s : State) (u : Untimed) : Bool :=
  decide (2 ≤ u.kind) && decide (u.kind ≤ 4) && u.phase == .departed && decide (0 < u.awaiting)
    && decide (u.departTick + 2 ^ 20 ≤ s.tick.toNat)

/-- RESPONSE_TIMEOUT (15 R358): the first overdue operation of a context completes with PEER_DOWN. -/
def execResponseTimeout (g k x : Nat) (s : State) : Out :=
  match (s.opsOf (gcore g k)).find? (fun q => q.1.ctx == x && s.overdue q.2) with
  | some (r, u) => .next ((s.completeOp r codePeerDown u.moved).modOp r fun u => { u with awaiting := 0 })
  | none => .next s

/-! ### Imported requests (11 R258, R259) -/

/-- What an imported request asks for. -/
structure Request where
  type : Nat
  entry : Nat
  op : Nat
  n : Nat
  data : List Byte
  src : Nat
  core : Nat
  id : Nat
  pos : Nat
  deriving DecidableEq, Repr

/-- Reads a request packet; one with no note of its source names no module. -/
def requestOf (k : Packet) : Request :=
  let b := k.bytes
  let type := hdrType b
  let n := hdrLen b
  let op := hdrEp b / 2 ^ 13
  let len := if type = 2 then n else if type = 3 then (if op = 7 then 2 * n else n) else 0
  let o := k.origin.getD (0xFFFF, 0, 0, 0)
  { type := type, entry := if type = 3 then hdrEp b % 2 ^ 13 else hdrEp b, op := op, n := n
    data := (b.drop 16).take len, src := o.1, core := o.2.1, id := o.2.2.1, pos := o.2.2.2 }

/-- The import entry of a number. -/
def State.importEntry (s : State) (i : Nat) : Import := tget {} s.imports i

/-- Whether an entry lets a module send. -/
def State.sourceAllowed (s : State) (e : Import) (src : Nat) : Bool :=
  if bits e.source 15 15 = 1 then decide (src < 4096) && s.admits e.importer src else src == bits e.source 11 0

/-- Checks 1 to 5 of R259: DONE, or the status of the first that fails. -/
def State.ingressStatus (s : State) (k : Packet) : Nat :=
  let b := k.bytes
  let q := requestOf k
  let e := s.importEntry q.entry
  if 8192 ≤ q.entry ∨ e.flags % 2 = 0 ∨ (s.world e.exporter).state ≠ 1 ∨ (s.world e.importer).state ≠ 1
      ∨ (s.segment e.exporter e.segment).exp = false then codeImportInvalid
  else if hdrWorld b ≠ e.importer ∨ s.sourceAllowed e q.src = false then codeImportDenied
  else if hdrKey b ≠ e.key then codeKeyMismatch
  else if e.length < hdrOffset b + q.n then codeAddressRange
  else if bits e.flags q.type q.type = 0 then codePermDenied
  else codeDone

/-- The new value of an atomic (09 R224) over a width of 4 or 8 bytes. -/
def atomicValue (op n old x y : Nat) : Nat :=
  let sg := fun (v : Nat) => sext v (8 * n)
  match op with
  | 0 => (old + x) % 2 ^ (8 * n)
  | 1 => (fAdd fp32 0 false old x).1
  | 2 => if sg x < sg old then x else old
  | 3 => if sg old < sg x then x else old
  | 4 => Nat.min old x
  | 5 => Nat.max old x
  | 6 => x
  | _ => if old = y then x else old

/-- The response to a request; a store has none, and one that names no source gets none. -/
def State.respond (k : Packet) (status : Nat) (data : List Byte) (s : State) : State :=
  let b := k.bytes
  let q := requestOf k
  if q.type = 2 ∨ 4096 ≤ q.src then s
  else s.sendFabric q.src { bytes := fabricHeader q.src 5 (hdrWorld b) data.length false q.core q.id (status + q.pos * 2 ^ 16) ++ data
                            world := hdrWorld b }

/-- The effect of a request on its window: its status, the bytes that it returns, and the module after it. -/
def State.perform (k : Packet) (s : State) : Nat × List Byte × State :=
  let b := k.bytes
  let q := requestOf k
  let e := s.importEntry q.entry
  let off := e.base + hdrOffset b
  let store := q.type = 2 ∨ q.type = 3
  match s.untimedPages e.exporter e.segment off q.n (decide store) with
  | .error _ => (codeTranslationFault, [], s)
  | .ok ms =>
    if q.type = 2 then (codeDone, [], s.writeSeg e.exporter ms off q.data)
    else
      let r := s.readSeg e.exporter ms off q.n
      if q.type = 3 ∧ ¬ (q.n = 4 ∨ q.n = 8 ∧ q.op ≠ 1) then (codeOperandIllegal, [], s)
      else if r.2 then (codePoison, [], s)
      else if q.type = 3 then
        let v := atomicValue q.op q.n (leNat r.1) (field q.data 0 q.n) (field q.data q.n q.n)
        (codeDone, if hdrRet b = 1 then r.1 else [], s.writeSeg e.exporter ms off (leBytes q.n v))
      else (codeDone, r.1, s)

/-- A refused request (R259): nothing is written, and the refusal is counted. -/
def State.refuseImport (p : Nat) (k : Packet) (status : Nat) (s : State) : State :=
  let q := requestOf k
  let s1 := if status = codeImportInvalid then s.modPort p fun x => { x with importErrors := satAdd x.importErrors 1 }
    else
      let e := s.importEntry q.entry
      { s with imports := tput s.imports q.entry { e with refusals := satAdd e.refusals 1 } }
  s1.respond k status []

/-- Whether the request at the head of a port can go on: it is not kept by a HELD segment or a full busy count (11 R255,
R256), and its response has room. DESIGN CHOICE (log entry 73): one that waits keeps the later requests of its port behind it. -/
def State.importReady (s : State) (p : Nat) : Bool :=
  match (s.port p).imports with
  | [] => false
  | k :: _ =>
    let q := requestOf k
    let e := s.importEntry q.entry
    let sg := s.segment e.exporter e.segment
    let room := q.type == 2 || s.fabricRoom q.src (16 + q.n)
    if k.held then sg.state != 2 && room
    else if s.ingressStatus k != codeDone then room
    else decide (sg.busy < 65535) && (sg.state == 2 || room)

/-- An import-table entry of 32 bytes as world 0 writes it (R258); its refusal count is read-only. -/
def Import.ofBytes (b : List Byte) (old : Import) : Import :=
  { flags := field b 0 1 % 32, exporter := field b 1 1, importer := field b 2 1, source := Nat.land (field b 4 2) 0x8FFF
    segment := field b 6 2 % 4096, key := field b 8 4, base := field b 12 8 % 2 ^ 40, length := field b 20 8, refusals := old.refusals }

/-- World 0 writes an entry of the import table (R258); a number past the table names none. -/
def State.writeImport (i : Nat) (b : List Byte) (s : State) : State :=
  if 8192 ≤ i then s else { s with imports := tput s.imports i (Import.ofBytes b (s.importEntry i)) }

/-- IMPORT_REQUEST (R259) at port p: the checks, the busy count, and the access at the memory side, whole (08 R199); or world 0's
write of an entry of the table that the requests are checked against (R258). -/
def execImportRequest (p : ImportInput) (s : State) : Out :=
  match p with
  | .write i b => .next (s.writeImport i b)
  | .serve p =>
    match (s.port p).imports with
    | [] => .next s
    | k :: rest =>
      if !s.importReady p then .next s
      else
        let q := requestOf k
        let e := s.importEntry q.entry
        let drop := fun (s : State) => s.modPort p fun x => { x with imports := rest }
        let st := s.ingressStatus k
        if k.held = false ∧ st ≠ codeDone then .next (drop (s.refuseImport p k st))
        else if k.held = false ∧ (s.segment e.exporter e.segment).state = 2 then
          .next ((s.addBusy e.exporter e.segment true).modPort p fun x => { x with imports := { k with held := true } :: rest })
        else
          let s1 := if k.held then s.addBusy e.exporter e.segment false else s
          let r := s1.perform k
          if r.1 = codeTranslationFault then .next (drop (s1.refuseImport p k r.1))
          else .next (drop (r.2.2.respond k r.1 r.2.1))

end Sys2Proof.Machine
end

