-- ==== Sys2Proof/Machine/Items.lean ====
section
/-! DEFINITION. The items of a pipeline's tables (12 R276, R278, R280 to R286, R290): where each lies, who may write it,
what a write of it must keep, and TBLW's effect and TBLR (09 R229). -/

namespace Sys2Proof.Machine

/-- A cluster is idle (01 R13). -/
def Cluster.idle (cl : Cluster) : Bool := cl.cores.all fun p => (List.range 4).all fun x => cl.isFree p.1 x cl.run

/-! ### The bank directory (R276) -/

def Pipe.dir (x : Pipe) (n : Nat) : Nat := tget 0 x.directory n
def dirCore (d : Nat) : Nat := bits d 15 0
def dirBank (d : Nat) : Nat := bits d 23 16
def dirValid (d : Nat) : Bool := bits d 24 24 == 1

/-- The scratchpad address of byte `o` of a bank. -/
def bankAddr (bank o : Nat) : Nat := 64 * (32 * (o / 64) + bank) + o % 64

/-- The core that holds a pipeline bank, and the scratchpad addresses of `n` bytes from byte `o` of it. -/
def State.bankCore (s : State) (p b : Nat) : Core := s.core (dirCore ((s.pipe p).dir b) / 48) (dirCore ((s.pipe p).dir b) % 48)
def State.bankAddrs (s : State) (p b o n : Nat) : List Nat :=
  (List.range n).map (fun i => bankAddr (dirBank ((s.pipe p).dir b)) (o + i))

/-- `n` bytes from byte `o` of a pipeline bank. DESIGN CHOICE (log entry 75): 08 R177 gives no result of a pipeline's read of a
poisoned word, whose bytes are free values. -/
def State.bankRead (s : State) (p b o n : Nat) : List Byte :=
  let c := s.bankCore p b
  (s.bankAddrs p b o n).map fun a =>
    if c.wordPoisoned (wordOf a) then Config.poisonedByte s.fresh (dirCore ((s.pipe p).dir b)) a else Memory.read c.spad a

/-- What a pipeline's read of a bank leaves: a correctable word is counted and written back later, an uncorrectable one takes the
poison code (08 R176, R177). -/
def State.bankPass (p b o n : Nat) (s : State) : State :=
  let ws := ((s.bankAddrs p b o n).map wordOf).eraseDups
  let d := (s.pipe p).dir b
  let s1 := s.modCore (dirCore d / 48) (dirCore d % 48) (Core.passAll ws)
  if ws.any (s.bankCore p b).wordPoisoned then { s1 with fresh := s1.fresh + 1 } else s1

/-- Writes bytes of a pipeline bank, a whole word with fresh check bits (08 R175). -/
def State.bankPut (p b o : Nat) (bs : List Byte) (s : State) : State :=
  let d := (s.pipe p).dir b
  s.modCore (dirCore d / 48) (dirCore d % 48) fun c => (c.bankWrite ((s.bankAddrs p b o bs.length).zip bs)).1

/-! ### Configuration records (R280) -/

def zeros (n : Nat) : List Byte := List.replicate n 0
def byteAt (b : List Byte) (i : Nat) : Nat := field b i 1

def Pipe.cfg (x : Pipe) (st pos : Nat) : List Byte := tget (zeros 64) x.config (4 * st + pos)
def cfgKind (c : List Byte) : Nat := byteAt c 0
def cfgOwner (c : List Byte) : Nat := byteAt c 1
def cfgRows (c : List Byte) : Nat := field c 2 2

/-- The key ranges, (vector byte, length), that stand before the first of length zero. -/
def cfgKeys (c : List Byte) : List (Nat × Nat) :=
  ((List.range 4).map (fun i => (byteAt c (4 + 2 * i), byteAt c (5 + 2 * i)))).takeWhile (fun k => k.2 != 0)

/-- The prefix lengths of the groups in use. -/
def cfgGroups (c : List Byte) : List Nat := ((List.range 8).map (fun i => byteAt c (12 + i))).takeWhile (fun l => l != 0xFF)

/-- Banks per way or group way, and the banks of the table. -/
def cfgSpan (c : List Byte) : Nat := (cfgRows c + 511) / 512
def cfgWays (c : List Byte) : Nat :=
  match cfgKind c with
  | 1 => 4
  | 2 => 4 * (cfgGroups c).length
  | _ => 0
def cfgBanks (c : List Byte) : List Nat := (List.range (cfgWays c * cfgSpan c)).map (fun i => byteAt c (20 + i))

/-- The banks of the register array and of the meter array. -/
def cfgRegs (c : List Byte) : List Nat := (List.range (byteAt c 53)).map (fun i => byteAt c 52 + i)
def cfgMeters (c : List Byte) : List Nat := (List.range (byteAt c 55)).map (fun i => byteAt c 54 + i)

/-! ### Handles and items (R285) -/

def hPort (h : Nat) : Nat := bits h 5 0
def hStage (h : Nat) : Nat := bits h 9 6
def hPos (h : Nat) : Nat := bits h 11 10
def hKind (h : Nat) : Nat := bits h 15 12
def hIndex (h : Nat) : Nat := bits h 31 16

/-- The size of an item; none for a reserved kind. -/
def itemSize (kind : Nat) : Option Nat :=
  match kind with
  | 0 => some 64
  | 1 => some 80
  | 2 => some 36
  | 3 => some 8
  | 4 => some 32
  | 5 => some 36
  | 6 => some 64
  | 7 => some 64
  | 8 => some 4
  | _ => none

/-- The pipeline bank and the byte in it at which an entry or a cell lies. -/
def itemPlace (kind i : Nat) (c : List Byte) : Nat × Nat :=
  let cell := fun (first per size : Nat) => (first + i / per, size * (i % per))
  match kind with
  | 3 => cell (byteAt c 52) 4096 8
  | 4 => cell (byteAt c 54) 1024 32
  | _ =>
    let ways := if cfgKind c = 1 then 4 else 32
    let row := i / ways
    (byteAt c (20 + i % ways * cfgSpan c + row / 512), 64 * (row % 512))

/-- Whether an item of the index exists. -/
def Pipe.hasItem (x : Pipe) (kind st pos i : Nat) : Bool :=
  let c := x.cfg st pos
  match kind with
  | 0 => if cfgKind c = 1 then decide (i < 4 * cfgRows c) else cfgKind c == 2 && decide (i < 32 * cfgRows c) && decide (i % 32 / 4 < (cfgGroups c).length)
  | 1 => pos == 3 && cfgKind c == 3 && decide (i < 512)
  | 2 => cfgKind c != 0 && i == 0
  | 3 => decide (i < 4096 * byteAt (x.cfg st 0) 53)
  | 4 => decide (i < 1024 * byteAt (x.cfg st 0) 55)
  | 5 => decide (i < 1024)
  | 6 => decide (i < 32)
  | 7 => i == 0
  | 8 => decide (i < 256)
  | _ => false

/-- Whether a world may write, or read, an item. -/
def Pipe.mayUse (x : Pipe) (kind st pos i w : Nat) : Bool :=
  w == 0 || match kind with
    | 0 | 1 | 2 => cfgOwner (x.cfg st pos) == w
    | 3 | 4 => cfgOwner (x.cfg st 0) == w
    | 5 => tget 0 x.owners i == w
    | _ => false

/-- Whether a handle names an item that a world may use: its port and stage in range (ignored where R285 ignores them), its
kind not reserved, the index in the table. -/
def State.itemOk (s : State) (h i w : Nat) : Bool :=
  let k := hKind h
  let x := s.pipe (hPort h)
  decide (hPort h < 36) && (itemSize k).isSome && (k == 5 || k == 6 || k == 8 || decide (hStage h < 12))
    && x.hasItem k (hStage h) (hPos h) i && x.mayUse k (hStage h) (hPos h) i w

/-- The parser's state entry (R278): at bring-up entry 0 of a Burcon port takes the header and accepts. -/
def bringUpState : List Byte := [1, 0, 0, 0xFE, 0, 0, 0, 0, 0, 0, 16] ++ zeros 53
def State.parserState (s : State) (p i : Nat) : List Byte :=
  let d := if i = 0 ∧ (s.port p).edge = false then bringUpState else zeros 64
  if (s.pipe p).ready then tget d (s.pipe p).parser i else d

/-- The bytes of an item. -/
def State.itemRead (s : State) (p kind st pos i : Nat) : List Byte :=
  let x := s.pipe p
  match kind with
  | 0 => let q := itemPlace 0 i (x.cfg st pos); s.bankRead p q.1 q.2 64
  | 1 => tget (zeros 80) x.ternary (512 * st + i)
  | 2 => tget (zeros 36) x.defaults (4 * st + pos)
  | 3 => let q := itemPlace 3 i (x.cfg st 0); s.bankRead p q.1 q.2 8
  | 4 => let q := itemPlace 4 i (x.cfg st 0); s.bankRead p q.1 q.2 32
  | 5 => tget (zeros 36) x.bundles i
  | 6 => tget (if i = 0 ∧ (s.port p).edge = false then bringUpState else zeros 64) x.parser i
  | 7 => x.cfg st pos
  | _ => leBytes 4 (x.dir i)

/-- What a pipeline's read of bytes of an item leaves, where the item lies in a lent bank. -/
def State.itemPass (p kind st pos i o n : Nat) (s : State) : State :=
  let at0 := fun (c : List Byte) => let q := itemPlace kind i c; s.bankPass p q.1 (q.2 + o) n
  match kind with
  | 0 => at0 ((s.pipe p).cfg st pos)
  | 3 => at0 ((s.pipe p).cfg st 0)
  | 4 => at0 ((s.pipe p).cfg st 0)
  | _ => s

/-! ### What a write must keep -/

/-- An action bundle (R286 to R288): DONE, or the refusal. DESIGN CHOICE (log entry 68): one that breaks the framing and also holds
an opcode outside 0xE0 to 0xED is refused for the framing. -/
def bundleStatus (b : List Byte) : Nat :=
  let n := ((List.range 8).filter (fun i => bits (field b 0 4) (31 - i) (31 - i) == 1)).length
  let slots := (List.range n).map (fun j => BitVec.ofNat 32 (field b (4 + 4 * j) 4))
  let framed := ((List.range n).zip slots).all (fun q => guardOf q.2 == 0 && (stopOf q.2 == decide (q.1 + 1 = n)))
  if field b 0 3 ≠ 0 ∨ n = 0 ∨ framed = false then codeOperandIllegal
  else if slots.any (fun w => decide ((opcodeOf w).toNat < 0xE0) || decide (0xED < (opcodeOf w).toNat)) then codeOpcodeUndefined
  else if slots.all (fun w => match decodeSlot w with
      | .ok sl => sl.instr.wf
      | .error _ => false) then codeDone
  else codeOperandIllegal

/-- A next field of a parser state (R278). -/
def nextOk (v : Nat) : Bool := decide (v < 32) || v == 0xFE || v == 0xFF

/-- A parser state (R278); a transition whose mask is 0 is unused, whatever it holds. -/
def stateStatus (b : List Byte) : Nat :=
  let extract := fun (e : Nat) => let i := 8 + 4 * e
    decide (byteAt b (i + 1) < 64) && decide (byteAt b (i + 2) ≤ 16) && decide (byteAt b (i + 1) + byteAt b (i + 2) ≤ 64)
      && byteAt b (i + 3) == 0
  let trans := fun (k : Nat) => let i := 24 + 5 * k
    field b (i + 2) 2 == 0 || nextOk (byteAt b (i + 4))
  if decide (byteAt b 0 < 2) && decide (byteAt b 2 ≤ 2) && decide (byteAt b 7 ≤ 7) && nextOk (byteAt b 3)
      && (List.range 4).all extract && (List.range 8).all trans then codeDone
  else codeOperandIllegal

/-- The configuration records of a pipeline but for one position. -/
def Pipe.otherBanks (x : Pipe) (st pos : Nat) : List Nat :=
  x.config.flatMap fun q => if q.1 = 4 * st + pos then [] else cfgBanks q.2

/-- A configuration record (R280). -/
def Pipe.cfgStatus (x : Pipe) (st pos : Nat) (c : List Byte) : Nat :=
  let k := cfgKind c
  let shape := k == 0 || (k == 3 && pos == 3) || ((k == 1 || k == 2) && decide (pos < 3))
  let keys := (cfgKeys c).all (fun r => decide (r.1 + r.2 ≤ 128))
    && decide (((cfgKeys c).map (·.2)).sum ≤ if k = 3 then 20 else 16)
  let known := fun (l : List Nat) => l.all (fun b => decide (b < 256) && dirValid (x.dir b))
  let arrays := cfgRegs c ++ cfgMeters c
  let zero := if pos = 0 then field c 56 8 == 0 else field c 52 12 == 0
  let apart := arrays.eraseDups.length == arrays.length
    && arrays.all (fun b => !(cfgBanks c).contains b && !(x.otherBanks st pos).contains b)
  if shape && decide (cfgOwner c ≤ 16) && keys && decide (cfgWays c * cfgSpan c ≤ 32) && known (cfgBanks c) && zero
      && (pos != 0 || (decide (byteAt c 53 ≤ 8) && decide (byteAt c 55 ≤ 8) && known arrays && apart)) then codeDone
  else codeOperandIllegal

/-- Whether a configuration record names a pipeline bank (R276). -/
def Pipe.names (x : Pipe) (b : Nat) : Bool :=
  x.config.any fun q => (cfgBanks q.2).contains b || (q.1 % 4 == 0 && ((cfgRegs q.2).contains b || (cfgMeters q.2).contains b))

/-- Whether a lend or a return of a core's bank takes effect now (08 R187). -/
def State.mayLend (s : State) (core : Nat) : Bool :=
  (s.cluster (core / 48)).idle || match s.domainOf (core / 48) with
    | some d => (match d.phase with | .col _ => true | _ => false)
    | none => false

/-- A bank directory entry (R276): DONE, or the refusal. -/
def State.dirStatus (s : State) (p i v : Nat) : Nat :=
  let x := s.pipe p
  let old := x.dir i
  let same := dirValid old && dirValid v && dirCore old == dirCore v && dirBank old == dirBank v
  if 2 ≤ v / 2 ^ 24 ∨ 32 ≤ dirBank v then codeOperandIllegal
  else if same ∨ (dirValid old = false ∧ dirValid v = false) then codeDone
  else
    let twice := (List.range 3).any fun j =>
      let q := p / 3 * 3 + j
      (s.pipe q).directory.any fun e =>
        dirValid e.2 && dirCore e.2 == dirCore v && dirBank e.2 == dirBank v && !(q == p && e.1 == i)
    if dirValid v ∧ (dirCore v / 384 ≠ p / 3 ∨ twice = true ∨ s.mayLend (dirCore v) = false) then codeTableDenied
    else if dirValid old ∧ (x.names i = true ∨ s.mayLend (dirCore old) = false) then codeTableDenied
    else codeDone

/-- A bank whose lend or return takes effect: data 0 with the reset metadata (08 R187). -/
def State.lendBank (core bank mark : Nat) (s : State) : State :=
  s.modCore (core / 48) (core % 48) fun c =>
    let c1 := (List.range 512).foldl (fun c r => Core.putLine (32 * r + bank) {} c) c
    { c1 with lent := tset 0 c1.lent bank mark }

/-- A write of the directory entry that has passed its checks. -/
def State.setDir (p i v : Nat) (s : State) : State :=
  let old := (s.pipe p).dir i
  let s1 := if dirValid old ∧ old ≠ v then s.lendBank (dirCore old) (dirBank old) 0 else s
  let s2 := if dirValid v ∧ old ≠ v then s1.lendBank (dirCore v) (dirBank v) (p + 1) else s1
  s2.modPipe p fun x => { x with directory := tset 0 x.directory i v }

/-! ### TBLW and TBLR (09 R229) -/

/-- Whether a table write is refused, and with what. -/
def State.writeStatus (s : State) (q : TableWrite) : Nat :=
  let k := hKind q.handle
  let p := hPort q.handle
  if hIndex q.handle ≠ 0 ∨ itemSize k ≠ some q.data.length ∨ s.itemOk q.handle q.index q.world = false then codeTableDenied
  else match k with
    | 5 => bundleStatus q.data
    | 6 => stateStatus q.data
    | 7 => (s.pipe p).cfgStatus (hStage q.handle) (hPos q.handle) q.data
    | 8 => s.dirStatus p q.index (field q.data 0 4)
    | _ => codeDone

/-- Replaces an item whole (12 R297). -/
def State.itemWrite (p kind st pos i : Nat) (b : List Byte) (s : State) : State :=
  let x := s.pipe p
  match kind with
  | 0 => let q := itemPlace 0 i (x.cfg st pos); s.bankPut p q.1 q.2 b
  | 1 => s.modPipe p fun x => { x with ternary := tput x.ternary (512 * st + i) b }
  | 2 => s.modPipe p fun x => { x with defaults := tput x.defaults (4 * st + pos) b }
  | 3 => let q := itemPlace 3 i (x.cfg st 0); s.bankPut p q.1 q.2 b
  | 4 => let q := itemPlace 4 i (x.cfg st 0); s.bankPut p q.1 q.2 b
  | 5 => s.modPipe p fun x => { x with bundles := tput x.bundles i b }
  | 6 => s.modPipe p fun x => { x with parser := tput x.parser i b }
  | 7 => s.modPipe p fun x => { x with config := tput x.config (4 * st + pos) b }
  | _ => s.setDir p i (field b 0 4)

/-- TABLE_WRITE_APPLY (12 R297): the first table write of a pipeline takes effect, between two packets, or is refused. -/
def execTableWriteApply (p : Nat) (s : State) : Out :=
  match (s.pipe p).writes with
  | [] => .next s
  | q :: rest =>
    let st := s.writeStatus q
    let s1 := s.modPipe p fun x => { x with writes := rest }
    if st = codeDone then
      .next ((s1.itemWrite p (hKind q.handle) (hStage q.handle) (hPos q.handle) q.index q.data).completeOp q.op codeDone q.data.length)
    else .next (s1.refuse q.op st)

/-- TBLR (R229): the word of an item of a table of the core's world, as it stands at the issue. -/
def execTblr (d a b : BitVec 5) (s : State) : Out :=
  let h := (s.rs a).toNat
  let n := (s.rs b).toNat
  let fits := match itemSize (hKind h) with
    | some z => decide (4 * n + 4 ≤ z)
    | none => false
  s.require (s.itemOk h (hIndex h) s.hereCluster.world && fits) codeTableDenied fun s =>
    .next ((s.itemPass (hPort h) (hKind h) (hStage h) (hPos h) (hIndex h) (4 * n) 4).emitS 24 d (BitVec.ofNat 32
      (field (s.itemRead (hPort h) (hKind h) (hStage h) (hPos h) (hIndex h)) (4 * n) 4)))

end Sys2Proof.Machine
end

