-- ==== Sys2Proof/Machine/Pipeline.lean ====
section
/-! DEFINITION. The packet pipeline (12 R271 to R298): the action instructions, the parser, the stages, the disposition, the
absorbs and the punt queue. -/

namespace Sys2Proof.Machine

/-! ### Action instructions (R287 to R290) -/

/-- A field of the header vector. -/
def State.hv (s : State) (o n : Nat) : Nat := field s.pkt.hv o n
def State.setHv (o n v : Nat) (s : State) : State :=
  { s with pkt := { s.pkt with hv := patch s.pkt.hv o (leBytes n v) } }

/-- Sets a disposition bit of byte 71. -/
def State.dispose (b : Nat) (s : State) : State :=
  let v := s.hv 71 1
  s.setHv 71 1 (Nat.lor v (2 ^ b))

/-- X, and Y from the vector or the action data. -/
def State.xField (s : State) (x : BitVec 7) (w : BitVec 2) : Nat := s.hv x.toNat (fieldBytes w)
def State.yField (s : State) (y : BitVec 7) (v : BitVec 2) (q : BitVec 1) : Nat :=
  field (if q = 1 then s.pkt.bundle.data else s.pkt.hv) y.toNat (fieldBytes v)
def State.setX (x : BitVec 7) (w : BitVec 2) (v : Nat) (s : State) : State := s.setHv x.toNat (fieldBytes w) v

/-- A.SET. -/
def execASet (x : BitVec 7) (w : BitVec 2) (im : BitVec 10) (s : State) : Out := .next (s.setX x w im.toNat)
/-- A.ADD. -/
def execAAdd (x : BitVec 7) (w : BitVec 2) (y : BitVec 7) (v : BitVec 2) (q : BitVec 1) (s : State) : Out :=
  .next (s.setX x w (s.xField x w + s.yField y v q))
/-- A.COPY. -/
def execACopy (x : BitVec 7) (w : BitVec 2) (y : BitVec 7) (v : BitVec 2) (q : BitVec 1) (s : State) : Out :=
  .next (s.setX x w (s.yField y v q))
/-- A.HASH. -/
def execAHash (x : BitVec 7) (w : BitVec 2) (y : BitVec 7) (v : BitVec 2) (s : State) : Out :=
  .next (s.setX x w (crc64 ((s.pkt.hv.drop y.toNat).take (4 * fieldBytes v))))
/-- A.ABSORB. -/
def execAAbsorb (x : BitVec 7) (w : BitVec 2) (y : BitVec 7) (v : BitVec 2) (q : BitVec 1) (s : State) : Out :=
  .next (((s.setHv 84 4 (s.xField x w)).setHv 88 4 (s.yField y v q)).dispose 1)
/-- A.COUNT. -/
def execACount (x : BitVec 7) (w : BitVec 2) (im : BitVec 10) (s : State) : Out :=
  let v := s.xField x w
  .next { s with pkt := { s.pkt with counts := s.pkt.counts ++ [(bits v 14 8, bits v 7 0, im.toNat)] } }
/-- A.FWD. -/
def execAFwd (k : BitVec 2) (p : BitVec 6) (s : State) : Out :=
  .next (((s.setHv 72 1 p.toNat).setHv 69 1 k.toNat).dispose 0)
/-- A.DROP. -/
def execADrop (s : State) : Out := .next (s.dispose 2)
/-- A.MIRROR. -/
def execAMirror (im : BitVec 10) (s : State) : Out :=
  let s1 := (s.setHv 73 1 (bits im.toNat 5 0)).dispose 4
  .next { s1 with pkt := { s1.pkt with mirrorCls := bits im.toNat 7 6 } }
/-- A.PUNT: the stage, the table's handle and its owner go with the packet (R296). -/
def execAPunt (im : BitVec 10) (s : State) : Out :=
  let s1 := (s.setHv 74 2 im.toNat).dispose 3
  .next { s1 with pkt := { s1.pkt with
    puntStage := s.pkt.stage, puntHandle := s.pkt.bundle.handle, puntWorld := s.pkt.bundle.owner } }
/-- A.TRUNC. -/
def execATrunc (im : BitVec 10) (s : State) : Out := .next ((s.setHv 92 2 (16 * im.toNat)).dispose 5)

/-- A.ROUTE (R289): it acts on a Burcon token, by the packet's own type, whose RT bit is 1. -/
def execARoute (s : State) : Out :=
  let h := s.hv 0 16
  if s.pkt.edge = true ∨ hdrType s.pkt.bytes ≠ 0 ∨ bits h 34 34 = 0 then .next s
  else
    let d := s.pkt.bundle.data
    let m := field d 0 2 % 4096
    let ep := byteAt d 2 + 128 * field d 3 2
    let port := byteAt d 5
    let hdr := setHdr (setHdr (setHdr (leBytes 16 h) 11 0 m) 55 40 ep) 34 34 0
    let s1 := s.setHv 0 16 (leNat hdr)
    if m = s.moduleId.toNat then .next (((s1.setHv 84 4 ep).setHv 88 4 (bits h 127 104)).dispose 1)
    else if 36 ≤ port then
      .next ((s1.dispose 2).modPipe s.pkt.port fun x => { x with unclaimed := satAdd x.unclaimed 1 })
    else .next ((s1.setHv 72 1 port).dispose 0)

/-- The two-rate three-colour marker, colour-blind (R290): the buckets are filled by the bytes that each rate gives between
the last tick and this one, and the packet is charged. Colour 0 green, 1 yellow, 2 red. -/
def meterMark (cir pir cbs pbs : Nat) (m : Meter) (t b : Nat) : Nat × Meter :=
  let fill := fun (r cap now : Nat) => Nat.min cap (now + (r * t / 1024 - r * m.last / 1024))
  let tc := fill cir cbs m.committed
  let tp := fill pir pbs m.peak
  if tp < b then (2, ⟨tc, tp, t⟩) else if tc < b then (1, ⟨tc, tp - b, t⟩) else (0, ⟨tc - b, tp - b, t⟩)

/-- A.METER: the cell is charged the packet's length at the tick of its stage read; an index past the array gives red, and so does a
packet that entered before the pipeline was ready (R298, log entry 61). -/
def execAMeter (x : BitVec 7) (w : BitVec 2) (y : BitVec 7) (v : BitVec 2) (q : BitVec 1) (s : State) : Out :=
  let p := s.pkt.port
  let i := s.yField y v q
  let c := (s.pipe p).cfg s.pkt.stage 0
  if s.pkt.ready = false ∨ 1024 * byteAt c 55 ≤ i then .next (s.setX x w 2)
  else
    let cell := s.itemRead p 4 s.pkt.stage 0 i
    let r := meterMark (field cell 0 4) (field cell 4 4) (field cell 8 4) (field cell 12 4)
      ⟨field cell 16 4, field cell 20 4, field cell 24 8⟩ (s.pkt.tick + 18 + 8 * s.pkt.stage) (s.hv 66 2)
    .next (((s.itemPass p 4 s.pkt.stage 0 i 0 32).itemWrite p 4 s.pkt.stage 0 i
      (cell.take 16 ++ leBytes 4 r.2.committed ++ leBytes 4 r.2.peak ++ leBytes 8 r.2.last)).setX x w r.1)

/-- A.REGADD: an index past the array gives 0 and updates nothing, and so does a packet
that entered before the pipeline was ready (R298, log entry 61). -/
def execARegadd (x : BitVec 7) (w : BitVec 2) (y : BitVec 7) (v : BitVec 2) (q : BitVec 1) (s : State) : Out :=
  let p := s.pkt.port
  let i := s.yField y v q
  let c := (s.pipe p).cfg s.pkt.stage 0
  if s.pkt.ready = false ∨ 4096 * byteAt c 53 ≤ i then .next (s.setX x w 0)
  else
    let n := (leNat (s.itemRead p 3 s.pkt.stage 0 i) + s.xField x w) % 2 ^ 64
    .next (((s.itemPass p 3 s.pkt.stage 0 i 0 8).itemWrite p 3 s.pkt.stage 0 i (leBytes 8 n)).setX x w n)

/-! ### The parser (R279) -/

/-- The parser on a packet: its status and the vector, by visits of at most `fuel` states. -/
def State.parse (s : State) (p : Nat) (b : List Byte) : Nat → Nat → Nat → List Byte → Nat × List Byte
  | 0, _, _, hv => (3, hv)
  | fuel + 1, st, cur, hv =>
    let e := s.parserState p st
    if byteAt e 0 % 2 = 0 then (1, hv)
    else
      let ex := (List.range 4).foldl (fun (acc : Bool × List Byte) i =>
        let src := byteAt e (8 + 4 * i)
        let dst := byteAt e (9 + 4 * i)
        let len := byteAt e (10 + 4 * i)
        if acc.1 || len == 0 then acc
        else if b.length < cur + src + len then (true, acc.2)
        else (false, patch acc.2 dst ((b.drop (cur + src)).take len))) (false, hv)
      let width := byteAt e 2
      let mask := byteAt e 6
      if ex.1 then (2, ex.2)
      else if width ≠ 0 ∧ b.length < cur + byteAt e 1 + width then (2, ex.2)
      else if mask ≠ 0 ∧ b.length ≤ cur + byteAt e 5 then (2, ex.2)
      else
        let sel := field b (cur + byteAt e 1) width
        let ctz := ((List.range 8).find? (fun i => mask / 2 ^ i % 2 == 1)).getD 0
        let adv := byteAt e 4 +
          (if mask = 0 then 0 else Nat.land (byteAt b (cur + byteAt e 5)) mask / 2 ^ ctz * 2 ^ byteAt e 7)
        let next := match (List.range 8).find? (fun k =>
            let m := field e (26 + 5 * k) 2
            m != 0 && Nat.land sel m == field e (24 + 5 * k) 2) with
          | some k => byteAt e (28 + 5 * k)
          | none => byteAt e 3
        if 256 < cur + adv then (1, ex.2)
        else if next = 0xFE then (0, ex.2)
        else if next = 0xFF then (1, ex.2)
        else s.parse p b fuel next (cur + adv) ex.2

/-! ### Lookups (R281 to R284, R286) -/

/-- The key of a position, padded to n bytes. -/
def keyOf (c hv : List Byte) (n : Nat) : List Byte :=
  padTo n ((cfgKeys c).flatMap (fun r => (hv.drop r.1).take r.2))

/-- A key with every bit beyond a prefix length cleared. -/
def prefixKey (len : Nat) (k : List Byte) : List Byte :=
  ((List.range k.length).zip k).map fun q =>
    if 8 * q.1 + 8 ≤ len then q.2 else if len ≤ 8 * q.1 then 0 else q.2 &&& ~~~(BitVec.ofNat 8 (2 ^ (8 * q.1 + 8 - len) - 1))

/-- A hit: the bundle word, the action data and the table's handle with the entry's index. -/
abbrev Hit := Nat × List Byte × Nat

def tableHandle (kind pos st p i : Nat) : Nat := i % 65536 * 65536 + kind * 4096 + pos * 1024 + st * 64 + p

/-- The entries that a key is looked up in, by way. -/
def wayEntries (c key : List Byte) (idx : Nat → Nat → Nat) : List Nat :=
  if cfgRows c = 0 then [] else (List.range 4).map fun w => idx (crc64 (BitVec.ofNat 8 w :: key) % cfgRows c) w

/-- The keys of a position in lent banks, one of an exact table and one of each group of an LPM table, with their entries. -/
def probes (c hv : List Byte) : List (List Byte × List Nat) :=
  let key := keyOf c hv 16
  match cfgKind c with
  | 1 => [(key, wayEntries c key fun r w => 4 * r + w)]
  | 2 => ((List.range (cfgGroups c).length).zip (cfgGroups c)).map fun g =>
      let k := prefixKey g.2 key
      (k, wayEntries c k fun r w => 32 * r + 4 * g.1 + w)
  | _ => []

/-- The entry of the lowest way that holds a key, and its index. -/
def State.ways (s : State) (p st pos : Nat) (q : List Byte × List Nat) : Option (List Byte × Nat) :=
  q.2.findSome? fun i =>
    let e := s.itemRead p 0 st pos i
    if bits (field e 16 2) 15 15 = 1 ∧ e.take 16 = q.1 then some (e, i) else none

/-- The hit of a position, of the longest prefix in an LPM table; none on a miss. -/
def State.hitAt (s : State) (p st pos : Nat) (c hv : List Byte) : Option Hit :=
  if cfgKind c = 3 then
    let key := leNat (keyOf c hv 20)
    (List.range 512).findSome? fun i =>
      let e := s.itemRead p 1 st 3 i
      if bits (field e 40 2) 15 15 = 1 ∧ Nat.land key (field e 20 20) = field e 0 20 then
        some (field e 40 2, e.drop 48, tableHandle 1 3 st p i)
      else none
  else
    (((probes c hv).filterMap (s.ways p st pos)).foldl (fun (best : Option (List Byte × Nat)) q =>
      match best with
      | some b => if byteAt b.1 18 < byteAt q.1 18 then some q else best
      | none => some q) none).map fun q => (field q.1 16 2, q.1.drop 32, tableHandle 0 pos st p q.2)

/-- Whether a position looks the packet up (R284). -/
def PktCtx.looksUp (k : PktCtx) (c : List Byte) : Bool := cfgKind c != 0 && (cfgOwner c == 0 || byteAt k.hv 68 == cfgOwner c)

/-- The bundle that a position of its stage applies to a packet: its hit's, or its default's; none where no lookup is made, where
the default is not valid, or where the bundle is another world's (R284, R286). For a packet that entered before the pipeline was
ready only defaults apply (R298); the bundles are those that stood at its entry into stage 0 (R297). -/
def State.bundleAt (s : State) (k : PktCtx) (pos : Nat) : Option PktBundle :=
  let x := s.pipe k.port
  let c := x.cfg k.stage pos
  let owner := cfgOwner c
  if k.looksUp c = false then none
  else
    let got : Option Hit := match if k.ready then s.hitAt k.port k.stage pos c k.hv else none with
      | some h => some h
      | none =>
        let d := s.itemRead k.port 2 k.stage pos 0
        if bits (field d 0 2) 15 15 = 1 then some (field d 0 2, d.drop 4, 0xFFFFFFFF) else none
    match got with
    | none => none
    | some (word, data, handle) =>
      let i := word % 1024
      let b := tget (zeros 36) k.bundles i
      let n := ((List.range 8).filter (fun j => bits (field b 0 4) (31 - j) (31 - j) == 1)).length
      let own := tget 0 x.owners i
      if own ≠ owner ∧ own ≠ 0 then none
      else some { slots := (List.range n).map (fun j => BitVec.ofNat 32 (field b (4 + 4 * j) 4)), data := data, handle := handle
                  owner := owner, pos := pos }

/-! ### The stages (R274, R284) -/

/-- The tick of a packet's next work: the reads of its stage on 17 + 8s, and its actions with their stateful writes on 22 + 8s. -/
def PktCtx.due (k : PktCtx) : Nat := k.tick + 8 * k.stage + if k.looked ≤ k.stage then 17 else 22

/-- The packet of a pipeline whose stage has work to do on this tick, the oldest first. -/
def State.stageDue (s : State) (p : Nat) : Option PktCtx := (s.pipe p).staged.find? fun k => decide (k.due ≤ s.tick.toNat)

/-- Changes a packet whose stages are under way; a pipeline takes at most one on a tick. -/
def State.modStaged (k : PktCtx) (f : PktCtx → PktCtx) (s : State) : State :=
  s.modPipe k.port fun x => { x with staged := x.staged.map fun q => if q.tick = k.tick then f q else q }

/-- What the lookups of a packet's stage leave in the lent banks that they read. -/
def State.passLookups (k : PktCtx) (s : State) : State :=
  (List.range 3).foldl (fun s pos =>
    let c := (s.pipe k.port).cfg k.stage pos
    if k.ready && k.looksUp c then
      ((probes c k.hv).flatMap (·.2)).foldl (fun s i => s.itemPass k.port 0 k.stage pos i 0 64) s
    else s) s

/-- The lookups of a packet's stage (R284), all from the vector as it enters the stage; at stage 0 it takes the bundles that it will
apply as they stand (R297). -/
def State.lookUp (k : PktCtx) (s : State) : State :=
  let k1 := if k.stage = 0 then { k with bundles := (s.pipe k.port).bundles } else k
  (s.passLookups k).modStaged k fun _ => { k1 with looked := k.stage + 1, todo := (List.range 4).filterMap (s.bundleAt k1) }

/-- A packet's stage works: its lookups, or its actions, which the packet is taken in hand for. -/
def State.runStage (k : PktCtx) (s : State) : State :=
  if k.looked ≤ k.stage then s.lookUp k else { s with pkt := { k with active := true } }

/-- The packet in hand goes on (R284): its next bundle; with none left it goes on to its next stage, and after the last one it waits
for its disposition. -/
def State.advancePacket (s : State) : State :=
  match s.pkt.todo with
  | b :: rest => { s with pkt := { s.pkt with todo := rest, bundle := b }, actions := b.slots }
  | [] =>
    let k := s.pkt
    if 11 ≤ k.stage then
      let d : Disp := {
        ready := k.tick + 112, cls := k.cls, edge := k.edge, bytes := k.bytes, hv := k.hv, world := k.world
        counts := k.counts, mirrorCls := k.mirrorCls, puntStage := k.puntStage, puntHandle := k.puntHandle
        puntWorld := k.puntWorld, origin := k.origin }
      { s.modPipe k.port (fun x =>
          { x with staged := x.staged.filter (fun q => q.tick != k.tick), flight := x.flight ++ [d] }) with pkt := {} }
    else { s.modStaged k (fun _ => { k with active := false, stage := k.stage + 1 }) with pkt := {} }

/-! ### Parser entry (R271 to R274, R277, R290, R298) -/

/-- The world meter's parameters (17 R387), and its mark of a packet at this tick. -/
def State.worldMark (s : State) (p w b : Nat) : Nat × Meter :=
  let m := (s.world w).meter.toNat
  let cbs := bits m 95 64
  let pbs := bits m 127 96
  meterMark (bits m 31 0) (bits m 63 32) cbs pbs (tget ⟨cbs, pbs, s.tick.toNat⟩ (s.pipe p).meters w) s.tick.toNat b

/-- Whether a pipeline meters a world; none does in base camp (R298). -/
def State.metered (s : State) (p w : Nat) : Bool := (s.pipe p).ready && (s.world w).meter != 0

/-- Charges the world meter. -/
def State.chargeWorld (p w b : Nat) (s : State) : State :=
  if s.metered p w then s.modPipe p fun x => { x with meters := tput x.meters w (s.worldMark p w b).2 } else s

/-- An ingress class whose oldest packet is past its 112 ticks and waits for room (10 R245). -/
def State.stuck (s : State) (p c : Nat) : Bool :=
  (s.pipe p).flight.any (fun d => d.cls == c && decide (d.ready < s.tick.toNat))

/-- Whether the absorb buffer of a pipeline has a free entry of its 64. -/
def Pipe.absorbRoom (x : Pipe) : Bool := decide ((x.absorbs.filter (fun a => !(a.op.isSome && a.faulted))).length < 64)

/-- Whether a pipeline may take a packet on this tick: one a tick, one in four in base camp, and room in the absorb buffer. -/
def State.parserFree (s : State) (p : Nat) : Bool :=
  let x := s.pipe p
  !s.pkt.active
    && (match x.lastEntry with
      | some t => decide (t + (if x.ready then 1 else 4) ≤ s.tick.toNat)
      | none => true)
    && x.absorbRoom

/-- The packet that would enter the parser: the first cable packet of a class that is not stuck, else the first injected
one, held while its world's meter is red. -/
def State.nextPacket (s : State) (p : Nat) : Option (Packet × Bool) :=
  match (s.port p).ingress.find? (fun k => !s.stuck p k.cls) with
  | some k => some (k, true)
  | none =>
    match (s.pipe p).injected with
    | k :: _ =>
      if s.stuck p k.cls || (k.injected && s.metered p k.world && (s.worldMark p k.world k.bytes.length).1 == 2) then none
      else some (k, false)
    | [] => none

/-- Removes the first occurrence of a packet. -/
def dropPacket (k : Packet) : List Packet → List Packet
  | [] => []
  | a :: t => if a = k then t else a :: dropPacket k t

/-- Flits freed in an ingress class are owed to the sender as credits (10 R245). -/
def Port.owe (c n : Nat) (x : Port) : Port := { x with owed := tset 0 x.owed c (tget 0 x.owed c + n) }

/-- A packet enters the parser (R274, R277): its length is checked, its world's meter charged, its vector built. -/
def State.enterParser (p : Nat) (k : Packet) (cable : Bool) (s : State) : State :=
  let t := s.tick.toNat
  let edge := (s.port p).edge
  let n := k.bytes.length
  let s1 := if cable then s.modPort p fun x => { (if edge then x else x.owe k.cls (Nat.max k.sent (flitsOf n))) with ingress := dropPacket k x.ingress }
    else (s.modPipe p fun x => { x with injected := x.injected.drop 1 }).packetGone k
  let s2 := s1.modPipe p fun x => { x with lastEntry := some t }
  let drop := s2.modPort p fun x => { x with drops := satAdd x.drops 1 }
  if edge = false ∧ (n < 16 ∨ 9216 < n) ∨ edge = true ∧ (n < 60 ∨ 9212 < n) then drop
  else
    let w := if edge then (s.port p).edgeWorld else hdrWorld k.bytes
    let red := edge && cable && s.metered p w && (s.worldMark p w n).1 == 2
    let s3 := if k.injected || (edge && cable) then s2.chargeWorld p (if cable then w else k.world) n else s2
    if red then s3.modPort p fun x => { x with drops := satAdd x.drops 1 }
    else
      let r := s.parse p k.bytes 16 0 0 (zeros 128)
      let info := leBytes 2 p ++ leBytes 2 n ++ leBytes 1 w ++ leBytes 1 (if edge then 0 else k.cls) ++ leBytes 1 r.1 ++ [0, 0xFF, 0xFF]
        ++ [0, 0] ++ leBytes 8 t
      let hv := patch (patch r.2 64 info) 94 (leBytes 2 s.moduleId.toNat)
      s3.modPipe p fun x => { x with staged := x.staged ++ [{
        port := p, edge := edge, cls := if edge then 0 else k.cls, world := w, bytes := k.bytes, hv := hv, tick := t
        ready := x.ready, origin := k.origin }] }

/-! ### Disposition (R291 to R293) -/

def Disp.bit (d : Disp) (b : Nat) : Bool := bits (byteAt d.hv 71) b b == 1

/-- The header of a Burcon packet after its stages: vector bytes 0 to 15, but for the fields that the actions may not write, TYPE,
LEN, RET and HOPS, which are the packet's own (R271). -/
def Disp.header (d : Disp) : List Byte :=
  let own := fun (b : List Byte) (h l : Nat) => setHdr b h l (bits (field d.bytes 0 16) h l)
  own (own (own (d.hv.take 16) 14 12) 33 20) 39 35

/-- The bytes that leave or are absorbed (R293): the header with HOPS one higher, and the truncation, with a LEN that counts
payload reduced to match. -/
def Disp.out (d : Disp) : List Byte :=
  let tl := if d.bit 5 then field d.hv 92 2 else 0
  let short := decide (0 < tl) && decide (tl < d.bytes.length)
  let cut := fun (b : List Byte) => if short then b.take tl else b
  if d.edge then cut d.bytes
  else
    let h := setHdr d.header 39 36 (hdrHops d.bytes + 1)
    let counts := [0, 2, 3, 5].contains (hdrType d.bytes)
    cut ((if short && counts then setHdr h 33 20 (Nat.min (hdrLen h) (tl - 16)) else h) ++ d.bytes.drop 16)

/-- The copies that leave: port and class. -/
def Disp.copies (d : Disp) : List (Nat × Nat) :=
  let fwd := if d.bit 0 && !d.bit 3 then [(byteAt d.hv 72, byteAt d.hv 69 % 4)] else []
  let mir := if d.bit 4 then [(byteAt d.hv 73, d.mirrorCls)] else []
  if d.bit 2 then [] else fwd ++ mir

/-- Whether a Burcon packet with a copy to send has made its last hop (R293). -/
def Disp.spent (d : Disp) : Bool := !d.edge && hdrHops d.bytes == 15 && !d.copies.isEmpty

/-- Whether local delivery takes the packet (R292). -/
def Disp.isLocal (d : Disp) (own : Nat) : Bool := !d.edge && byteAt d.hv 71 == 0 && hdrDmod d.header == own

/-- Whether a disposition has the egress room that it needs: the Burcon copies to one port wait until all of them fit (10 R245). -/
def State.dispRoom (s : State) (d : Disp) : Bool :=
  let n := flitsOf d.out.length
  d.edge || d.spent || d.copies.all (fun c =>
    (s.port c.1).edge || !(s.port c.1).trained
      || (s.port c.1).fitsAll (fun k => n * (d.copies.filter (fun q => q == (c.1, k))).length))

/-- Sends one copy (R293), of the world that its header names (10 R246): one to a port of the other kind, to a port that is down, or past a full edge class is dropped and
counted at that port. -/
def State.sendCopy (d : Disp) (q : Nat × Nat) (s : State) : State :=
  let x := s.port q.1
  let n := flitsOf d.out.length
  if x.edge ≠ d.edge ∨ x.trained = false ∨ (x.edge = true ∧ x.fits q.2 n = false) then
    s.modPort q.1 fun x => { x with drops := satAdd x.drops 1 }
  else
    let w := if d.edge then d.world else hdrWorld d.out
    s.modPort q.1 fun x => { x with egress := x.egress ++ [{ bytes := d.out, cls := q.2, world := w }] }

/-- All copies of a packet. -/
def State.sendCopies (d : Disp) (s : State) : State := d.copies.foldl (fun s q => s.sendCopy d q) s

/-- The A.COUNT bumps (R295); a number past 95 names no cluster. -/
def State.bumpCounts (cs : List (Nat × Nat × Nat)) (s : State) : State :=
  cs.foldl (fun s c => if c.1 < 96 then s.addBump c.1 c.2.1 c.2.2 else s) s

/-- The punt header (R296). -/
def puntHeader (p reason stage handle : Nat) (hv : List Byte) : List Byte :=
  leBytes 2 reason ++ leBytes 1 p ++ leBytes 1 stage ++ leBytes 4 handle ++ (hv.drop 66).take 2 ++ (hv.drop 70).take 1
    ++ (hv.drop 68).take 1 ++ (hv.drop 76).take 8 ++ zeros 12

/-- Puts a packet in the punt queue of 64; a full one drops and counts it (10 R243). -/
def State.punt (p w : Nat) (h b : List Byte) (s : State) : State :=
  s.modPipe p fun x =>
    if 64 ≤ x.punts.length then { x with puntDrops := satAdd x.puntDrops 1 }
    else { x with punts := x.punts ++ [{ header := h, bytes := b.take 480, world := w }] }

/-- Why an absorb is refused (R295, R289). -/
def State.absorbRefusal (s : State) (d : Disp) (n : Nat) : Option Nat :=
  let ep := field d.hv 84 4
  let g := ep % 128
  let l := tget {} (s.cluster g).landings (ep / 128)
  let o := field d.hv 88 4
  if 2 ^ 16 ≤ ep then some 0x3F2
  else if 96 ≤ g ∨ (s.world (byteAt d.hv 68)).state ≠ 1 ∨ (s.world (byteAt d.hv 68)).clusters.getLsbD g = false ∨ (s.cluster g).fenced ∨ (s.cluster g).frozen then some 0x3F1
  else if l.valid = false ∨ l.bytes < o + n ∨ spadBytes < l.base + o + n then some 0x3F2
  else none

/-- The bytes that an absorb writes. -/
def Disp.payload (d : Disp) : List Byte := if d.edge then d.out else (d.out.drop 16).take (hdrLen d.out)

/-- Takes an absorb, refuses it, or, with no byte to write, bumps at once (R295). -/
def State.absorb (p : Nat) (d : Disp) (s : State) : State :=
  let data := d.payload
  let w := byteAt d.hv 68
  match s.absorbRefusal d data.length with
  | some r => (s.punt p w (puntHeader p r 12 0xFFFFFFFF d.hv) d.bytes).bumpCounts d.counts
  | none =>
    let ep := field d.hv 84 4
    let l := tget {} (s.cluster (ep % 128)).landings (ep / 128)
    if data.isEmpty then (s.addBump (ep % 128) (ep / 128 % 256) 1).bumpCounts d.counts
    else s.modPipe p fun x =>
      { x with
        nextId := x.nextId + 1
        absorbs := x.absorbs ++ [{
          id := x.nextId, cluster := ep % 128, core := l.core, addr := l.base + field d.hv 88 4, bytes := data
          waiting := s.tick.toNat, landing := some (ep / 128), counts := d.counts, packet := d.bytes, header := d.hv, world := w }] }

/-- A request goes to the memory side with its source: this module's own, or a free one where it came from another module, whose
packet says nothing of it (log entry 27). -/
def State.takeRequest (p : Nat) (k : Packet) (s : State) : State :=
  let o := Config.freeOrigin s.fresh
  match k.origin with
  | some _ => s.modPort p fun x => { x with imports := x.imports ++ [k] }
  | none =>
    { s with fresh := s.fresh + 1 }.modPort p fun x =>
      { x with imports := x.imports ++ [{ k with origin := some (o.1 % 4096, o.2.1 % 2 ^ 16, o.2.2.1 % 2 ^ 32, o.2.2.2 % 2 ^ 24) }] }

/-- Local delivery (R292), by the header that the packet would leave with. -/
def State.deliverLocal (p : Nat) (d : Disp) (s : State) : State :=
  let b := d.header ++ d.bytes.drop 16
  let unclaimed := s.modPipe p fun x => { x with unclaimed := satAdd x.unclaimed 1 }
  if d.isLocal s.moduleId.toNat = false then unclaimed
  else match hdrType b with
    | 0 => unclaimed
    | 5 => s.takeResponse p b
    | 6 => s.punt p 0 (puntHeader p 0x3F0 12 0xFFFFFFFF d.hv) d.bytes
    | 7 => unclaimed
    | _ => s.takeRequest p { bytes := b, cls := d.cls, world := hdrWorld b, origin := d.origin }

/-- The outcome of the disposition bits (R291); a packet with a copy to send that has made its last hop is dropped and counted. -/
def State.settlePacket (p : Nat) (d : Disp) (s : State) : State :=
  if d.bit 2 then s.bumpCounts d.counts
  else if d.spent then (s.modPipe p fun x => { x with hopLimit := satAdd x.hopLimit 1 }).bumpCounts d.counts
  else if d.bit 3 then
    ((s.sendCopies d).punt p d.puntWorld (puntHeader p (field d.hv 74 2) d.puntStage d.puntHandle d.hv) d.bytes).bumpCounts d.counts
  else if d.bit 0 || d.bit 1 || d.bit 4 then
    let s1 := s.sendCopies d
    if d.bit 1 then s1.absorb p d else s1.bumpCounts d.counts
  else (s.deliverLocal p d).bumpCounts d.counts

/-- Whether a packet's disposition may take an entry of the absorb buffer: an absorb that is not refused and writes, or a response. -/
def State.takesEntry (s : State) (d : Disp) : Bool :=
  !d.spent && ((d.bit 1 && !d.bit 2 && !d.bit 3 && (s.absorbRefusal d d.payload.length).isNone && !d.payload.isEmpty)
    || (d.isLocal s.moduleId.toNat && hdrType d.bytes == 5))

/-- The first packet whose disposition is due and has room, behind no older one of its class that waits for egress room. DESIGN CHOICE
(log entry 76): a packet that is to take an entry of a full absorb buffer waits for one, and those of its kind behind it; 12 R296
stops the parser alone, and R274 has every packet reach its disposition on tick 112. -/
def State.nextDisp (s : State) (p : Nat) : Option Disp :=
  let go := fun (acc : Option Disp × List Nat × Bool) (d : Disp) =>
    if acc.1.isSome || acc.2.1.contains d.cls || decide (s.tick.toNat < d.ready) then acc
    else if s.dispRoom d = false then (none, d.cls :: acc.2.1, acc.2.2)
    else if s.takesEntry d && !acc.2.2 then (none, acc.2.1, false)
    else (some d, acc.2)
  ((s.pipe p).flight.foldl go (none, [], (s.pipe p).absorbRoom)).1

/-- Removes the first occurrence of a packet between its stages and its disposition. -/
def dropDisp (d : Disp) : List Disp → List Disp
  | [] => []
  | a :: t => if a = d then t else a :: dropDisp d t

/-- Whether a pipeline has a packet to take in or to dispose of. -/
def State.ingressDue (s : State) (p : Nat) : Bool :=
  (s.stageDue p).isSome || (s.nextDisp p).isSome || (s.parserFree p && (s.nextPacket p).isSome)

/-- The frame check sequence of IEEE 802.3: CRC-32, polynomial 0x04C1_1DB7, reflected (12 R273). -/
def crc32 (bs : List Byte) : Nat :=
  Nat.xor 0xFFFFFFFF (bs.foldl (fun r b =>
    (List.range 8).foldl (fun r _ => if r % 2 = 1 then Nat.xor (r / 2) 0xEDB88320 else r / 2) (Nat.xor r b.toNat)) 0xFFFFFFFF)

/-- What the MAC of an edge port makes of a frame (R273): the frame without its check sequence, or none where its size or its check
sequence is bad. -/
def macFrame (b : List Byte) : Option (List Byte) :=
  let n := b.length
  let body := b.take (n - 4)
  if n < 64 ∨ 9216 < n ∨ crc32 body ≠ field b (n - 4) 4 then none else some body

/-- An arrival from outside: an Ethernet frame with its check sequence, or a whole Burcon packet. A frame that the MAC turns away,
one that finds its class full, and a packet of no legal size are dropped and counted. -/
def State.arrive (p : Nat) (b : List Byte) (s : State) : State :=
  let x := s.port p
  let full := fun (n : Nat) =>
    decide (512 < ((x.ingress.filter (fun k => k.cls == 0)).map (fun k => flitsOf k.bytes.length)).sum + flitsOf n)
  let taken := if x.edge then (macFrame b).filter (fun f => !full f.length)
    else if b.length < 16 ∨ 9216 < b.length then none else some b
  if x.trained = false then s
  else match taken with
    | some f => s.modPort p fun x => { x with ingress := x.ingress ++ [{ bytes := f }] }
    | none => s.modPort p fun x => { x with drops := satAdd x.drops 1 }

/-- PACKET_INGRESS (R274): an arrival from outside; or, of the packets the pipeline holds, the work of a stage that is due, else a
disposition, else the parser entry of the next one. -/
def execPacketIngress (p : Nat) (pk : Option (List Byte)) (s : State) : Out :=
  match pk with
  | some b => .next (s.arrive p b)
  | none =>
    match s.stageDue p, s.nextDisp p with
    | some k, _ => .next (s.runStage k)
    | none, some d => .next ((s.modPipe p fun x => { x with flight := dropDisp d x.flight }).settlePacket p d)
    | none, none =>
      if s.parserFree p then
        match s.nextPacket p with
        | some (k, cable) => .next (s.enterParser p k cable)
        | none => .next s
      else .next s

/-! ### Absorbs (R295, R296, 08 R184) -/

/-- The lines of an absorb still in the absorb buffer: address and bytes. -/
def Absorb.rest (a : Absorb) : List (Nat × List Byte) :=
  let start := a.addr + a.handed
  let n := a.bytes.length - a.handed
  if n = 0 then [] else
    (linesOf start n).map fun l =>
      let lo := Nat.max start (64 * l)
      let hi := Nat.min (start + n) (64 * l + 64)
      (lo, (a.bytes.drop (lo - a.addr)).take (hi - lo))

/-- The queue of a bank, by core and bank. -/
def bankKey (g k b : Nat) : Nat := gcore g k * 32 + b
def State.queueOf (s : State) (g k b : Nat) : List AbsorbLine := tget [] s.absorbQ (bankKey g k b)

/-- Hands the lines of a pipeline's absorbs to their banks' queues, each absorb in ascending address, each bank in packet
order, while the queues have room. -/
def State.handLines (p : Nat) (s : State) : State :=
  let go := fun (acc : State × List Nat) (a : Absorb) =>
    let step := fun (t : State × List Nat × Nat × Bool) (l : Nat × List Byte) =>
      let key := bankKey a.cluster a.core (bankOf l.1)
      if t.2.2.2 || t.2.1.contains key || decide (8 ≤ (tget [] t.1.absorbQ key).length) then
        (t.1, key :: t.2.1, t.2.2.1, true)
      else
        ({ t.1 with absorbQ := tput t.1.absorbQ key (tget [] t.1.absorbQ key ++ [⟨p, a.id, l.1, l.2⟩]) }, t.2.1
          , t.2.2.1 + l.2.length, false)
    let r := a.rest.foldl step (acc.1, acc.2, 0, false)
    let lines := (a.rest.takeWhile (fun l => decide (l.1 + l.2.length ≤ a.addr + a.handed + r.2.2.1))).length
    (r.1.modPipe p fun x => { x with absorbs := x.absorbs.map fun b =>
      if b.id = a.id then
        { b with handed := b.handed + r.2.2.1, queued := b.queued + lines, waiting := if lines = 0 then b.waiting else s.tick.toNat }
      else b }, r.2.1)
  ((s.pipe p).absorbs.foldl go (s, [])).1

/-- Whether handing lines would move any. -/
def State.handDue (s : State) (p : Nat) : Bool :=
  (s.pipe p).absorbs.any fun a => match a.rest with
    | l :: _ => decide ((s.queueOf a.cluster a.core (bankOf l.1)).length < 8)
    | [] => false

/-- The absorbs under way into a cluster are discarded with it. -/
def State.dropAbsorbs (g : Nat) (s : State) : State :=
  { s with
    absorbQ := s.absorbQ.filter (fun q => q.1 / 32 / 48 != g)
    pipes := s.pipes.map fun p => (p.1, { p.2 with absorbs := p.2.absorbs.filter (fun a => a.cluster != g) }) }

/-- The punt of a hardware reason for an absorb's packet. -/
def State.puntAbsorb (p reason : Nat) (a : Absorb) (s : State) : State :=
  s.punt p a.world (puntHeader p reason 12 0xFFFFFFFF a.header) a.packet

/-- An absorb whose last write has performed (R295 step 4): the landing's bump and the packet's, or the operation's
completion. -/
def State.finishAbsorb (p : Nat) (a : Absorb) (s : State) : State :=
  let s1 := s.modPipe p fun x => { x with absorbs := x.absorbs.filter (fun b => b.id != a.id) }
  match a.op with
  | some r => (s1.modOp r fun u => { u with absorbing := u.absorbing - 1 }).settle r
  | none =>
    let s2 := match a.landing with
      | some h => if (s.cluster a.cluster).fenced then s1 else s1.addBump a.cluster (h % 256) 1
      | none => s1
    s2.bumpCounts a.counts

/-- Removes the head of a bank's queue. -/
def State.popLine (g k b : Nat) (s : State) : State :=
  { s with absorbQ := tset [] s.absorbQ (bankKey g k b) ((s.queueOf g k b).drop 1) }

/-- ABSORB_LINE_WRITE (R295, 08 R184): the line at the head of a bank's absorb queue is written through the side port, or left
unwritten where it meets a lent bank, a sealed line, or a poisoned word that it fills in part. -/
def execAbsorbLineWrite (g k b : Nat) (s : State) : Out :=
  match s.queueOf g k b with
  | [] => .next s
  | q :: _ =>
    let c := s.core g k
    let l := lineOf q.addr
    let s1 := s.popLine g k b
    let dead := (s.cluster g).fenced
    let shut := c.isLent l || c.form l
    let w := c.sideWrite q.addr q.bytes
    let s2 := if dead || shut then s1 else (s1.modCore g k fun _ => w.1).takeSide g k [l]
    let bad := !dead && (shut || !w.2)
    match (s2.pipe q.pipe).absorbs.find? (fun a => a.id == q.absorb) with
    | none => .next s2
    | some a =>
      let first := bad && a.op.isNone && !a.faulted
      let s3 := if first then s2.puntAbsorb q.pipe 0x3F3 a else s2
      let a1 := { a with queued := a.queued - 1, faulted := a.faulted || (bad && a.op.isNone) }
      let s4 := match a.op with
        | some r => if bad || dead then s3.modOp r fun u => { u with moved := u.moved - q.bytes.length } else s3
        | none => s3
      if a1.queued = 0 ∧ a1.handed = a1.bytes.length then .next (s4.finishAbsorb q.pipe a1)
      else .next (s4.modPipe q.pipe fun x => { x with absorbs := x.absorbs.map fun d => if d.id = a.id then a1 else d })

/-- An absorb whose next line has waited 1,024 ticks (R296). -/
def State.tooLate (s : State) (p : Nat) : Option Absorb :=
  (s.pipe p).absorbs.find? fun a => decide (a.handed < a.bytes.length) && decide (a.waiting + 1024 ≤ s.tick.toNat)

/-- ABSORB_ABANDON (R296): no more lines, no landing bump, a punted copy, the packet's bumps, and the entry is free. A
response's absorb ends with the lines that it has queued. -/
def execAbsorbAbandon (p : Nat) (s : State) : Out :=
  match s.tooLate p with
  | none => .next s
  | some a =>
    match a.op with
    | none =>
      let s1 := s.modPipe p fun x => { x with absorbs := x.absorbs.filter (fun b => b.id != a.id) }
      .next ((s1.puntAbsorb p 0x3F4 a).bumpCounts a.counts)
    | some r =>
      let a1 := { a with bytes := a.bytes.take a.handed, faulted := true }
      let s1 := s.modOp r fun u => { u with moved := u.moved - (a.bytes.length - a.handed) }
      if a.queued = 0 then .next (s1.finishAbsorb p a1)
      else .next (s1.modPipe p fun x => { x with absorbs := x.absorbs.map fun d => if d.id = a.id then a1 else d })

end Sys2Proof.Machine
end

