-- ==== Sys2Proof/Machine/Timetable.lean ====
section
/-! DEFINITION. Fixed-line timetables (11 R266, R267): reading a timetable section, the records of a pitch, and the ticks that
they and the sync trees reserve (13 R309, 15 R348). -/

namespace Sys2Proof.Machine

/-- A timetable record (R267) with its index. -/
structure TtRecord where
  index : Nat
  time : Nat
  kind : Nat
  pull : Bool
  port : Nat
  src : Nat
  dst : Nat
  srcAddr : Nat
  dstAddr : Nat
  count : Nat
  tag : Nat
  deriving DecidableEq, Repr

/-- A pitch entry (R266). -/
structure TtPitch where
  first : Nat
  last : Nat
  record : Nat
  count : Nat
  margin : Nat
  deriving DecidableEq, Repr

/-- A collective (R266). -/
structure TtColl where
  count : Nat
  type : Nat
  op : Nat
  wide : Bool
  ringCore : Nat
  ringBase : Nat
  deriving DecidableEq, Repr

def ttPitches (b : List Byte) : Nat := field b 4 4
def ttColls (b : List Byte) : Nat := field b 8 4
def ttRecords (b : List Byte) : Nat := field b 12 4

def ttPitch (b : List Byte) (i : Nat) : TtPitch :=
  let a := 64 + 16 * i
  { first := field b a 4, last := field b (a + 4) 4, record := field b (a + 8) 4, count := field b (a + 12) 2
    margin := field b (a + 14) 2 }

def ttColl (b : List Byte) (c : Nat) : TtColl :=
  let a := 64 + 16 * (ttPitches b + c)
  { count := field b a 4, type := field b (a + 4) 1, op := field b (a + 5) 1, wide := field b (a + 6) 1 % 2 == 1
    ringCore := field b (a + 8) 2, ringBase := field b (a + 10) 4 }

/-- The bytes of a record. -/
def ttRecordBytes (b : List Byte) (r : Nat) : List Byte := (b.drop (64 + 16 * (ttPitches b + ttColls b) + 32 * r)).take 32

def ttRecord (b : List Byte) (r : Nat) : TtRecord :=
  let x := ttRecordBytes b r
  { index := r, time := field x 0 4, kind := field x 4 1, pull := field x 5 1 % 2 == 1, port := field x 6 2
    src := field x 8 2, dst := field x 10 2, srcAddr := field x 12 4, dstAddr := field x 16 4, count := field x 20 4
    tag := field x 24 2 }

/-- The entry that applies to an exchange pitch. -/
def ttEntry (b : List Byte) (p : Nat) : Option TtPitch :=
  if p % 2 = 0 then none
  else ((List.range (ttPitches b)).map (ttPitch b)).find? (fun e => decide (e.first ≤ p) && decide (p ≤ e.last))

/-- The records of an exchange pitch. -/
def ttOf (b : List Byte) (p : Nat) : List TtRecord :=
  match ttEntry b p with
  | some e => (List.range e.count).map (fun i => ttRecord b (e.record + i))
  | none => []

/-- The stretch margin of an exchange pitch. -/
def ttMargin (b : List Byte) (p : Nat) : Nat :=
  match ttEntry b p with
  | some e => e.margin
  | none => 0

/-- Flits of a kind-2 or kind-3 record. -/
def TtRecord.flits (r : TtRecord) : Nat := r.count / 128

/-- A loaded image by its handle (16 R371). -/
def State.imageOf (s : State) (h : Nat) : Option Image := s.images.find? (fun i => i.handle == h)

/-- The physical core of a logical global core number of a domain's image (R267): `clusters` stands in logical order. -/
def Domain.physCluster (d : Domain) (l : Nat) : Nat := d.clusters.getD l 96
def Domain.physCore (d : Domain) (n : Nat) : Nat := gcore (d.physCluster (n / 48)) (n % 48)

/-- The records of the exchange pitch that a domain runs; none in a compute pitch. -/
def Domain.records (d : Domain) : List TtRecord := if d.phase = .ended then [] else ttOf d.timetable d.pcn.toNat

/-- The domain of a number. -/
def State.domain (s : State) (m : Nat) : Option Domain := s.domains.find? (fun d => d.id == m)

/-- The collectives with steps among records, ascending. -/
def collsOf (xs : List TtRecord) : List Nat :=
  (List.range 256).filter (fun c => xs.any (fun x => x.kind == 4 && x.port == c))

/-- The collective hash of a pitch: 0 before a compute pitch (13 R309). -/
def Domain.collHash (d : Domain) (p : Nat) : Nat :=
  if p % 2 = 0 then 0
  else crc64 ((collsOf (ttOf d.timetable p)).flatMap fun c =>
    let k := ttColl d.timetable c
    leBytes 4 k.count ++ leBytes 1 k.type ++ leBytes 1 k.op)

/-- The number of the pitch after the current one. -/
def Domain.ahead (d : Domain) : Nat := (d.pcn + 1).toNat

/-- A sync flit (13 R309). -/
def syncFlit (kind status pitch start hash : Nat) (digest : BitVec 256) : List Byte :=
  padTo 128 (leBytes 1 kind ++ [0] ++ leBytes 2 status ++ leBytes 4 pitch ++ leBytes 8 start ++ leBytes 8 hash
    ++ leBytes 32 digest.toNat)

def syncIdle : Nat := 0

/-- A port's sync ticks of a domain, departing and arriving: one tick in 256 at the phase that the loader chose (13 R309). -/
def syncOut (m p : Nat) (t : Nat) : Bool := t % 256 == Config.syncPhase m p % 256
def syncIn (m p : Nat) (t : Nat) : Bool := t % 256 == Config.syncArrival m p % 256

/-- The domain whose sync tree has a tick of a port, departing or arriving. -/
def State.syncDomain (s : State) (p t : Nat) (out : Bool) : Option Domain :=
  s.domains.find? fun d => d.phase != .ended && d.neighbours.any (fun n => n.port == p)
    && (if out then syncOut d.id p t else syncIn d.id p t)

/-- Whether a record names a tick, its time taken from the start tick of the pitch that runs. -/
def TtRecord.names (x : TtRecord) (kind p start t : Nat) : Bool :=
  x.kind == kind && x.port == p && decide (start + x.time ≤ t) && decide (t < start + x.time + x.flits)

/-- The domain and the record of a kind that names a tick of a port in the pitch that runs, with the flit's number. -/
def State.lineOn (s : State) (kind p t : Nat) : Option (Domain × TtRecord × Nat) :=
  s.domains.foldl (fun best d =>
    match best with
    | some b => some b
    | none =>
      match d.records.find? (fun r => r.names kind p d.startTick t) with
      | some r => some (d, r, t - d.startTick - r.time)
      | none => none) none

/-- The domain of which some record, of whatever pitch, names a tick of a port (15 R348): the ticks of its timetable stay reserved
in every pitch. -/
def State.tickDomain (s : State) (kind p t : Nat) : Option Domain :=
  s.domains.find? fun d => d.phase != .ended
    && (List.range (ttRecords d.timetable)).any (fun r => (ttRecord d.timetable r).names kind p d.startTick t)

/-- A tick of a port is reserved (15 R348): it is a sync tick, or a record names it. -/
def State.reservedOut (s : State) (p t : Nat) : Bool := (s.syncDomain p t true).isSome || (s.tickDomain 2 p t).isSome
def State.reservedIn (s : State) (p t : Nat) : Bool := (s.syncDomain p t false).isSome || (s.tickDomain 3 p t).isSome

/-- The domain that sends SYNC IDLE in a reserved tick that no record fills in the pitch that runs. -/
def State.unfilled (s : State) (p t : Nat) : Option Domain :=
  if (s.syncDomain p t true).isSome || (s.lineOn 2 p t).isSome then none else s.tickDomain 2 p t

end Sys2Proof.Machine
end

