-- ==== Sys2Proof/Machine/Link.lean ====
section
/-! DEFINITION. The fabric link: frames and their CRC (15 R347, R348), training (15 R349, R350), packet egress (10 R246, R247)
and go-back-N (15 R356, R357). -/

namespace Sys2Proof.Machine

/-! ### Frames (15 R347) -/

/-- The seed block of a frame's CRC. -/
def frameSeed (m p m' p' tick : Nat) : List Byte :=
  leBytes 2 m ++ leBytes 1 p ++ [0] ++ leBytes 2 m' ++ leBytes 1 p' ++ [0] ++ leBytes 8 tick

/-- The CRC of a frame: over the seed, the kind byte and the 128 bytes of the flit. -/
def frameCrc (seed : List Byte) (kind : Nat) (flit : List Byte) : Nat := crc32c (seed ++ leBytes 1 kind ++ padTo 128 flit)

/-- Sends a frame on this tick; `bad` inverts its CRC (15 R352). -/
def State.sendFrame (p kind : Nat) (flit : List Byte) (bad : Bool) (s : State) : State :=
  let x := s.port p
  let c := frameCrc (frameSeed s.moduleId.toNat p x.peer x.peerPort s.tick.toNat) kind flit
  { s with sent := s.sent ++ [(p, kind, flit ++ leBytes 4 (if bad then Nat.xor c 0xFFFFFFFF else c))] }.modPort p
    fun x => { x with sentTick := some s.tick.toNat }

/-- Whether a received frame's CRC passes: the receiver rebuilds the seed from the departure tick that it expects. -/
def State.frameOk (s : State) (p kind : Nat) (fr : Frame) : Bool :=
  let x := s.port p
  fr.crc.toNat == frameCrc (frameSeed x.peer x.peerPort s.moduleId.toNat p (s.tick.toNat - x.delay)) kind fr.flit

/-- Whether a port carries Burcon frames. -/
def Port.burcon (x : Port) : Bool := x.trained && !x.edge

/-! ### The link header (15 R356) -/

def linkHeader (seq ack nak cls sop eop c0 c1 c2 c3 : Nat) : List Byte :=
  leBytes 8 (seq % 4096 + ack % 4096 * 2 ^ 12 + nak % 2 * 2 ^ 24 + cls % 4 * 2 ^ 25 + sop % 2 * 2 ^ 27 + eop % 2 * 2 ^ 28
    + c0 * 2 ^ 32 + c1 * 2 ^ 40 + c2 * 2 ^ 48 + c3 * 2 ^ 56)

def Bool.num (b : Bool) : Nat := if b then 1 else 0

/-- Credits of a class that the next header returns: at most 255. -/
def Port.returns (x : Port) (c : Nat) : Nat := Nat.min 255 (tget 0 x.owed c)

/-- The header of the next frame of a port, with its acknowledgement and the credits that it returns. -/
def Port.header (x : Port) (seq cls : Nat) (sop eop : Bool) : List Byte :=
  linkHeader seq (x.expected + 4095) (Bool.num x.nakDue) cls (Bool.num sop) (Bool.num eop)
    (x.returns 0) (x.returns 1) (x.returns 2) (x.returns 3)

/-- The port after a header has been sent: its credits are returned and its NAK has been said. -/
def Port.said (x : Port) : Port :=
  { x with owed := (List.range 4).foldl (fun t c => tset 0 t c (tget 0 t c - x.returns c)) x.owed, nakDue := false }

/-! ### Egress (10 R246, R247) -/

/-- The worlds with a packet of a class, ascending. -/
def Port.worldsOf (x : Port) (c : Nat) : List Nat :=
  (List.range 32).filter (fun w => x.egress.any (fun k => k.cls == c && k.world == w))

/-- Weighted round-robin over the worlds' weights: the world served next, and the ticks served in its round. -/
def State.pickWorld (s : State) (x : Port) (c : Nat) : Option (Nat × Tbl Nat) :=
  let ws := x.worldsOf c
  let left := fun (w : Nat) => decide (tget 0 x.served w < Nat.max 1 (s.world w).packetWeight)
  match ws.find? left with
  | some w => some (w, x.served)
  | none => ws.head?.map fun w => (w, [])

/-- The packet whose flit leaves next, by its place in the egress buffer, with the ticks served: the one in progress, else of
the highest class that has a flit and a credit. -/
def State.pickPacket (s : State) (x : Port) : Option (Nat × Tbl Nat) :=
  if 512 ≤ x.retry.length then none
  else
    let room := fun (c : Nat) => decide (0 < tget 0 x.credits c)
    match x.egress.findIdx? (fun k => decide (0 < k.sent)) with
    | some i =>
      match x.egress[i]? with
      | some k => if room k.cls then some (i, x.served) else none
      | none => none
    | none =>
      match [3, 2, 1, 0].find? (fun c => room c && x.egress.any (fun k => k.cls == c)) with
      | some c =>
        match s.pickWorld x c with
        | some (w, t) => (x.egress.findIdx? (fun k => k.cls == c && k.world == w)).map fun i => (i, t)
        | none => none
      | none => none

/-- The list without its n-th element. -/
def dropNth {α : Type} (l : List α) (n : Nat) : List α := l.take n ++ l.drop (n + 1)

/-- A new packet flit leaves (10 R246, 15 R357): it takes the next sequence number and a credit of its class, and is held in
the retry buffer. -/
def State.sendNew (p i : Nat) (k : Packet) (served : Tbl Nat) (s : State) : State :=
  let x := s.port p
  let eop := decide (flitsOf k.bytes.length ≤ k.sent + 1)
  let f : Flit := { seq := x.nextSeq, cls := k.cls, sop := k.sent == 0, eop := eop, bytes := padTo 120 ((k.bytes.drop (120 * k.sent)).take 120) }
  let s1 := s.sendFrame p 1 (x.header f.seq f.cls f.sop f.eop ++ f.bytes) false
  let s2 := s1.modPort p fun x =>
    { x.said with
      nextSeq := (x.nextSeq + 1) % 4096, retry := x.retry ++ [f]
      ackTick := if x.retry.isEmpty then s.tick.toNat else x.ackTick
      credits := tset 0 x.credits k.cls (tget 0 x.credits k.cls - 1)
      served := tput served k.world (tget 0 served k.world + 1)
      egress := if eop then dropNth x.egress i else modifyNth (fun (k : Packet) => { k with sent := k.sent + 1 }) i x.egress }
  if eop then s2.packetGone k else s2

/-- Whether an edge port's line is free: a frame with its check sequence, preamble and gap takes its ticks. -/
def Port.edgeFree (x : Port) (t : Nat) : Bool :=
  match x.sentTick with
  | some u => decide (u < t)
  | none => true

/-- The bytes that an edge port moves in a tick: 160, or 80 in its 800 Gb/s form (12 R273, R274). -/
def Port.rate (x : Port) : Nat := if x.half then 80 else 160

/-- An edge port sends the first frame of its highest class, with its check sequence (12 R273, 10 R246). -/
def State.sendEdge (p : Nat) (s : State) : State :=
  let x := s.port p
  match [3, 2, 1, 0].find? (fun c => x.egress.any (fun k => k.cls == c)) with
  | none => s
  | some c =>
    match s.pickWorld x c with
    | none => s
    | some (w, t) =>
      match x.egress.findIdx? (fun k => k.cls == c && k.world == w) with
      | none => s
      | some i =>
        match x.egress[i]? with
        | none => s
        | some k =>
          let ticks := (k.bytes.length + 24 + x.rate - 1) / x.rate
          ({ s with sent := s.sent ++ [(p, 16, k.bytes ++ leBytes 4 (crc32 k.bytes))] }.modPort p fun x =>
            { x with
              egress := dropNth x.egress i, sentTick := some (s.tick.toNat + ticks - 1)
              served := tput t w (tget 0 t w + ticks) }).packetGone k

/-- Whether a port sends on this tick: a Burcon port once, on every free tick. -/
def State.egressDue (s : State) (p : Nat) : Bool :=
  let x := s.port p
  if !x.trained then false
  else if x.edge then !x.egress.isEmpty && x.edgeFree s.tick.toNat
  else x.sentTick != some s.tick.toNat && (!s.reservedOut p s.tick.toNat || (s.unfilled p s.tick.toNat).isSome)

/-- PACKET_EGRESS (10 R246, 15 R348, R357): a reserved tick that no record fills carries SYNC IDLE; a free tick carries a held flit that is sent again, else a new packet flit, else an
IDLE frame, which carries the next sequence number. -/
def execPacketEgress (p : Nat) (s : State) : Out :=
  if !s.egressDue p then .next s
  else
    let x := s.port p
    if x.edge then .next (s.sendEdge p)
    else match s.unfilled p s.tick.toNat, x.resend with
      | some d, _ => .next (s.sendFrame p 3 (syncFlit syncIdle 0 d.ahead 0 (d.collHash d.ahead) d.digest) false)
      | none, f :: rest =>
        .next ((s.sendFrame p 1 (x.header f.seq f.cls f.sop f.eop ++ f.bytes) false).modPort p fun x => { x.said with resend := rest })
      | none, [] =>
        match s.pickPacket x with
        | some (i, t) =>
          match x.egress[i]? with
          | some k => .next (s.sendNew p i k t)
          | none => .next s
        | none =>
          .next ((s.sendFrame p 0 (x.header x.nextSeq 0 false false ++ zeros 120) false).modPort p Port.said)

/-! ### Link down and training (15 R349, R350, R357) -/

/-- Vector 8 of the physical function, where the peer state table or BPORTS has changed since a state (17 R386). -/
def State.linkEvent (old s : State) : State := if s.peers = old.peers ∧ s.bports = old.bports then s else s.interrupt 0 0 8

/-- Sets or clears a port's bit of BPORTS. -/
def State.setBport (p : Nat) (up : Bool) (s : State) : State :=
  { s with bports := if up then s.bports ||| BitVec.twoPow 64 p else s.bports &&& ~~~ BitVec.twoPow 64 p }

/-- The flits that a port holds or has queued. -/
def Port.waiting (x : Port) : Nat := x.retry.length + ((List.range 4).map x.held).sum

/-- A link goes down, its event not yet sent: the peer is down, and held and queued flits are dropped and counted. -/
def State.linkDrop (p : Nat) (s : State) : State :=
  let x := s.port p
  let s1 := x.egress.foldl (fun s k => s.packetLost k) s
  let s2 := s1.modPort p fun x =>
    { x with
      trained := false, drops := satAdd x.drops x.waiting, retry := [], resend := [], egress := [], partials := [], credits := []
      owed := [], fruitless := 0, lastNak := none, nakDue := false, discarding := false }
  let s3 := if x.edge then s2 else { s2 with peers := tset 0 s2.peers x.peer 2 }
  s3.setBport p false

/-- The link goes down (R357). -/
def State.linkDown (p : Nat) (s : State) : State := (s.linkDrop p).linkEvent s

/-- Ports that serve as edge ports; at most eight do (12 R273). -/
def State.edges (s : State) : Nat := ((List.range 36).filter (fun p => (s.port p).edge)).length

/-- World 0's link management writes entries of the peer state table (11 R261). -/
def State.writePeers (l : List (Nat × Nat)) (s : State) : State :=
  { s with peers := l.foldl (fun t q => tset 0 t (q.1 % 4096) (q.2 % 4)) s.peers }

/-- LINK_TRAIN (R349, R350): a Burcon link fixes its delay, or its earlier delay stands where the new raw delay allows it; a
link whose delay is too long, or no longer fits, carries packets only. A module that joins takes its tick counter from the
parent's. World 0's choice of an edge port is a peer that is no module. -/
def execLinkTrain (p : Nat) (ln : LinkInfo) (s : State) : Out :=
  if 36 ≤ p then .fault .noSuchInput
  else if ln.up = false then .next (((s.linkDrop p).writePeers ln.peers).linkEvent s)
  else if 4096 ≤ ln.peer then
    if 8 ≤ s.edges ∧ (s.port p).edge = false then .next s
    else
      .next ((((s.modPort p fun x =>
        { x with edge := true, half := ln.half, edgeWorld := ln.peerPort % 32, trained := true, calibrating := false }).writePeers ln.peers).setBport p true).linkEvent s)
  else
    let x := s.port p
    let raw := Nat.max 1 ln.rawDelay
    let fits := decide (raw ≤ 1023) && (x.fixed == 0 || decide (raw ≤ x.fixed))
    let delay := if fits && x.fixed != 0 then x.fixed else raw
    let s1 := s.modPort p fun x =>
      { x with
        edge := false, trained := true, calibrating := false, packetsOnly := !fits, delay := delay
        fixed := if fits then delay else x.fixed, peer := ln.peer
        peerPort := ln.peerPort, credits := (List.range 4).map (fun c => (c, 512)), owed := [], nextSeq := 0, expected := 0
        nakDue := false, discarding := false, lastNak := none, fruitless := 0, retry := [], resend := [], partials := []
        ackTick := s.tick.toNat }
    let s2 := if ln.parent then { s1 with tick := BitVec.ofNat 64 (ln.peerTick + delay), clockParent := some p } else s1
    .next ((({ s2 with peers := tset 0 s2.peers ln.peer 1 }.writePeers ln.peers).setBport p true).linkEvent s)

/-! ### Receipt (15 R357) -/

/-- Starts a replay of every held flit; after 32 with no advance the link goes down. -/
def State.startReplay (p : Nat) (s : State) : State :=
  if 32 ≤ (s.port p).fruitless then s.linkDown p
  else s.modPort p fun x =>
    { x with resend := x.retry, replays := satAdd x.replays 1, fruitless := x.fruitless + 1 }

/-- The retry buffer after an acknowledgement: every flit up to and including the one named is free. -/
def freeThrough (a : Nat) (l : List Flit) : List Flit :=
  match l.findIdx? (fun f => f.seq == a) with
  | some i => l.drop (i + 1)
  | none => l

/-- What a header that arrives says: credits, an acknowledgement, and a request for a replay (R356, R357). -/
def State.takeHeader (p h : Nat) (s : State) : State :=
  let a := bits h 23 12
  let x := s.port p
  let kept := freeThrough a x.retry
  let moved := decide (kept.length < x.retry.length)
  let s1 := s.modPort p fun x =>
    { x with
      credits := (List.range 4).foldl (fun t c => tset 0 t c (tget 0 t c + bits h (39 + 8 * c) (32 + 8 * c))) x.credits
      retry := kept, resend := x.resend.filter (fun f => kept.any (fun g => g.seq == f.seq))
      ackTick := if moved then s.tick.toNat else x.ackTick, fruitless := if moved then 0 else x.fruitless }
  if bits h 24 24 = 0 ∨ kept = [] ∨ ((s1.port p).lastNak = some a ∧ (s1.port p).resend ≠ []) then s1
  else (s1.startReplay p).modPort p fun x => { x with lastNak := some a }

/-- The bytes of a packet whose flits have all arrived: its length follows from its header. DESIGN CHOICE (log entry 74): no field gives
the length of a management packet or of one of type 7, which keeps all 120 bytes of each flit, and a compare-and-swap carries twice
its LEN. -/
def trimPacket (b : List Byte) : List Byte :=
  match hdrType b with
  | 0 => b.take (16 + hdrLen b)
  | 5 => b.take (16 + hdrLen b)
  | 2 => b.take (16 + hdrLen b)
  | 3 => b.take (16 + (if hdrEp b / 2 ^ 13 = 7 then 2 * hdrLen b else hdrLen b))
  | 1 => b.take 16
  | 4 => b.take 16
  | _ => b

/-- An accepted packet flit, which leaves a NAK still to be said as it is, joins its class's packet, which enters the ingress buffer with its last flit. -/
def State.takeFlit (p h : Nat) (d : List Byte) (s : State) : State :=
  let c := bits h 26 25
  let x := s.port p
  let whole := (if bits h 27 27 = 1 then [] else tget [] x.partials c) ++ d
  let x1 := { x with expected := (x.expected + 1) % 4096, discarding := false }
  s.modPort p fun _ =>
    if bits h 28 28 = 1 then
      { x1 with partials := tset [] x.partials c [], ingress := x.ingress ++ [{ bytes := trimPacket whole, cls := c, sent := whole.length / 120 }] }
    else { x1 with partials := tset [] x.partials c whole }

/-- A packet flit is discarded; the first discard after an accepted flit asks for a replay. -/
def State.discardFlit (p : Nat) (s : State) : State :=
  s.modPort p fun x => if x.discarding then x else { x with discarding := true, nakDue := true }

/-- A frame of a wrong kind in a reserved tick is a CRC failure (R348): the landing that the tick names has no flit. -/
def State.wrongKind (p : Nat) (s : State) : State :=
  let land : List LandFlit := if (s.lineOn 3 p s.tick.toNat).isSome then [⟨s.tick.toNat, none⟩] else []
  s.modPort p fun x => { x with crcFails := satAdd x.crcFails 1, landing := x.landing ++ land }

/-- FRAME_IDLE (R357). -/
def execFrameIdle (p : Nat) (fr : Frame) (s : State) : Out :=
  if 36 ≤ p then .fault .noSuchInput
  else if !(s.port p).burcon then .next s
  else if s.reservedIn p s.tick.toNat then .next (s.wrongKind p)
  else if s.frameOk p 0 fr then .next (s.takeHeader p (field fr.flit 0 8))
  else .next s

/-- FRAME_PACKET (R357): a flit is accepted when its CRC passes and its number is the one expected. -/
def execFramePacket (p : Nat) (fr : Frame) (s : State) : Out :=
  if 36 ≤ p then .fault .noSuchInput
  else if !(s.port p).burcon then .next s
  else if s.reservedIn p s.tick.toNat then .next (s.wrongKind p)
  else if !s.frameOk p 1 fr then .next (s.discardFlit p)
  else
    let h := field fr.flit 0 8
    let s1 := s.takeHeader p h
    if !(s1.port p).burcon then .next s1
    else if bits h 11 0 = (s1.port p).expected then .next (s1.takeFlit p h ((fr.flit.drop 8).take 120))
    else .next (s1.discardFlit p)

/-- FRAME_SCHEDULED (R348, R353): a scheduled flit waits in the landing buffer of 1,024 flits; one that fails its CRC leaves a
landing with no flit; one in a tick that no timetable reserves is discarded and counted. -/
def execFrameScheduled (p : Nat) (fr : Frame) (s : State) : Out :=
  if 36 ≤ p then .fault .noSuchInput
  else if !(s.port p).burcon then .next s
  else
    let t := s.tick.toNat
    let count := s.modPort p fun x => { x with crcFails := satAdd x.crcFails 1 }
    if !s.reservedIn p t then .next count
    else if (s.lineOn 3 p t).isNone then .next s
    else if !s.frameOk p 2 fr then .next (s.wrongKind p)
    else if 1024 ≤ (s.port p).landing.length then .next s
    else .next (s.modPort p fun x => { x with landing := x.landing ++ [⟨t, some (padTo 131 fr.flit)⟩] })

/-- FRAME_CALIBRATION (R349): the port measures its delay, and sends the other end a CALIBRATION frame of its own, one a tick; in a
reserved tick of a trained link the frame is a CRC failure. -/
def execFrameCalibration (p : Nat) (_fr : Frame) (s : State) : Out :=
  if 36 ≤ p then .fault .noSuchInput
  else if (s.port p).burcon then
    if s.reservedIn p s.tick.toNat then .next (s.wrongKind p) else .next s
  else
    let s1 := if (s.port p).edge || (s.port p).sentTick == some s.tick.toNat then s else s.sendFrame p 4 (zeros 128) false
    .next (s1.modPort p fun x => { x with calibrating := true })

/-- Whether flits are held with no advance of the acknowledgement for 4,096 ticks. -/
def State.silent (s : State) (p : Nat) : Bool :=
  let x := s.port p
  x.burcon && !x.retry.isEmpty && decide (x.ackTick + 4096 ≤ s.tick.toNat)

/-- LINK_SILENCE_TIMEOUT (R357): a replay, after which the silence counts anew. -/
def execLinkSilenceTimeout (p : Nat) (s : State) : Out :=
  if s.silent p then .next ((s.startReplay p).modPort p fun x => { x with ackTick := s.tick.toNat }) else .next s

end Sys2Proof.Machine
end

