-- ==== Sys2Proof/Machine/Exchange.lean ====
section
/-! DEFINITION. The records of an exchange pitch as they run: scheduled departures and landings (15 R351 to R353), cluster
exchanges (15 R354, R355) and reduction steps (15 R360, R361). -/

namespace Sys2Proof.Machine

/-- A number in a list of pairs, 0 where none is listed, and the list with it set. -/
def countOf (l : List (Nat × Nat)) (r : Nat) : Nat := tget 0 l r
def State.setDone (m r n : Nat) (s : State) : State := s.modDomain m fun d => { d with done := tput d.done r n }

/-- Records the first failure of a domain's exchange pitch (14 R334, 15 R363). -/
def State.failDomain (m code : Nat) (s : State) : State :=
  s.modDomain m fun d => { d with failure := d.failure.orElse (fun _ => some code) }

/-- A record of the pitch that a domain runs, by its index. -/
def Domain.recordOf (d : Domain) (kind r : Nat) : Option TtRecord :=
  d.records.find? (fun x => x.index == r && x.kind == kind)

/-- Whether a record's read number i falls on this running cycle of its source cluster. -/
def State.readDue (s : State) (d : Domain) (x : TtRecord) (n : Nat) : Bool :=
  let cl := s.cluster (d.physCluster (x.src / 48))
  let i := countOf d.done x.index
  let early := if x.kind = 2 then ttMargin d.timetable d.pcn.toNat else 0
  decide (i < n) && !cl.fenced && !cl.frozen && cl.run + early == cl.pitchRun + x.time + i

/-- Two lines of a core as an exchange engine reads them, core-side and corrected (08 R176, R180). -/
def State.readLines (g k l n : Nat) (s : State) : List Line × State :=
  ((List.range n).map (fun i => (s.core g k).engineLine (l + i)),
    (List.range n).foldl (fun s i => s.modCore g k (Core.passLine (l + i))) s)

/-! ### Departures (15 R351, R352) -/

/-- Whether a departure's read is due, and whether its frame is. -/
def State.departReadDue (s : State) (d : Domain) (x : TtRecord) : Bool := s.readDue d x x.flits
def State.departDue (s : State) (d : Domain) (x : TtRecord) : Bool :=
  let i := countOf d.sent x.index
  decide (i < x.flits) && s.tick.toNat == d.startTick + x.time + i

/-- The first refusal of a departure's read: it is late, or a line's tag is poisoned or differs from the record's. -/
def State.departFault (s : State) (d : Domain) (x : TtRecord) (i : Nat) (ls : List Line) : Option Nat :=
  if d.startTick + x.time + i < s.tick.toNat + 8 then some codeLateDeparture
  else if ls.any (fun l => l.tag == 0xFFF) then some codeScheduleFault
  else if x.pull && ls.any (fun l => l.tag.toNat != x.tag) then some codeTagMismatch
  else none

/-- The bytes of a scheduled flit: its data, the form bits of its lines, and their poison bits. -/
def flitOf (ls : List Line) : List Byte :=
  padTo 128 (ls.flatMap Line.bytes)
    ++ leBytes 1 ((ls.zip [1, 2]).foldl (fun n (p : Line × Nat) => n + if p.1.sealed then p.2 else 0) 0)
    ++ ls.map (fun l => l.poison)

/-- The read of a departure's next flit. -/
def State.departRead (d : Domain) (x : TtRecord) (s : State) : State :=
  let i := countOf d.done x.index
  let r := s.readLines (d.physCluster (x.src / 48)) (x.src % 48) (x.srcAddr / 64 + 2 * i) 2
  let f := s.departFault d x i r.1
  let s1 := (r.2.setDone d.id x.index (i + 1)).modPort x.port fun p =>
    { p with departing := p.departing ++ [{ tick := d.startTick + x.time + i, bytes := flitOf r.1, bad := f.isSome }] }
  match f with
  | some c => s1.failDomain d.id c
  | none => s1

/-- The departure of a flit on its reserved tick; one that has not been read by then is late. -/
def State.depart (d : Domain) (x : TtRecord) (s : State) : State :=
  let t := s.tick.toNat
  let s1 := s.modDomain d.id fun d => { d with sent := tput d.sent x.index (countOf d.sent x.index + 1) }
  match (s.port x.port).departing.find? (fun e => e.tick == t) with
  | some e =>
    let s2 := s1.modPort x.port fun p => { p with departing := p.departing.filter (fun e => decide (t < e.tick)) }
    if (s.port x.port).burcon then s2.sendFrame x.port 2 e.bytes e.bad else s2
  | none =>
    let s2 := s1.failDomain d.id codeLateDeparture
    if (s.port x.port).burcon then s2.sendFrame x.port 2 (zeros 131) true else s2

/-- SCHEDULED_DEPARTURE (R351, R352): a flit of record r is read, or departs. -/
def execScheduledDeparture (m r : Nat) (s : State) : Out :=
  match s.domain m with
  | none => .next s
  | some d =>
    match d.recordOf 2 r with
    | none => .next s
    | some x =>
      if s.departReadDue d x then .next (s.departRead d x)
      else if s.departDue d x then .next (s.depart d x)
      else .next s

/-! ### Landings (15 R353) -/

/-- The landings of a port that fall on this cycle: cluster and access. -/
def State.landingsDue (s : State) (p : Nat) : List (Nat × SideAcc) :=
  s.clusters.flatMap fun (q : Nat × Cluster) =>
    if q.2.holding.isSome || q.2.fenced || q.2.frozen then []
    else (q.2.side.filter (fun a => a.kind == .landing && a.source == p && a.due == q.2.run && !a.done)).map (fun a => (q.1, a))

/-- A landing's line of its flit: the record's tag, with the form and the poison as carried (R353). -/
def landLine (b : List Byte) (half : Nat) (tag : BitVec 12) : Line :=
  let ps : BitVec 8 := BitVec.ofNat 8 (field b (129 + half) 1)
  { data := BitVec.ofNat 512 (field b (64 * half) 64), tag := tag
    sealed := bits (field b 128 1) half half == 1, poison := ps }

/-- Performs one timed side-port access and marks it done. -/
def State.performSide (g : Nat) (a b : SideAcc) (s : State) : State :=
  (s.sideAccess g b).modCluster g fun cl => { cl with side := cl.side.map fun x => if x = a then { b with done := true } else x }

/-- One line of a landing: the flit of its tick, or the poisoned tag. -/
def State.landOne (p g : Nat) (a : SideAcc) (s : State) : State :=
  let t := match s.domainOf g with
    | some d => d.startTick + (a.due - (s.cluster g).pitchRun - 8)
    | none => 0
  match (s.port p).landing.find? (fun f => f.tick == t) with
  | some f =>
    let s1 := if a.dst = 1 then s.modPort p fun x => { x with landing := x.landing.filter (fun f => f.tick != t) } else s
    match f.bytes with
    | some b => s1.performSide g a { a with data := some (landLine b a.dst a.tag) }
    | none => s1.performSide g a { a with fail := some codeFlitCrc }
  | none =>
    let s1 := if a.dst = 0 then s.modPort p fun x => { x with crcFails := satAdd x.crcFails 1 } else s
    s1.performSide g a { a with fail := some codeFlitCrc }

/-- SCHEDULED_LANDING (R353): the lines of a port's flits that are written on this cycle. -/
def execScheduledLanding (p : Nat) (s : State) : Out :=
  .next ((s.landingsDue p).foldl (fun s q => s.landOne p q.1 q.2) s)

/-! ### Cluster exchange (15 R354, R355) -/

/-- The exchange latency between two clusters by their dies. -/
def exchangeLatency (g g' : Nat) : Nat :=
  let a := g / 8
  let b := g' / 8
  let gap := fun (x y : Nat) => (x - y) + (y - x)
  if a = b then 64 else 64 + 32 * (gap (a % 6) (b % 6) + gap (a / 6) (b / 6))

/-- Cycles of a kind-1 record: 128 bytes a cycle. -/
def TtRecord.chunks (x : TtRecord) : Nat := (x.count + 127) / 128

/-- A source line as the destination takes it, and the failure of a receiver pull. -/
def exchangeLine (x : TtRecord) (l : Line) : Line × Option Nat :=
  if x.pull && l.tag == 0xFFF then ({ l with tag := 0xFFF }, some codeScheduleFault)
  else if x.pull && l.tag.toNat != x.tag then ({ l with tag := 0xFFF }, some codeTagMismatch)
  else ({ l with tag := BitVec.ofNat 12 x.tag }, none)

/-- The read of a cluster exchange's next lines, which its writes to come then carry. -/
def State.exchangeRead (d : Domain) (x : TtRecord) (s : State) : State :=
  let i := countOf d.done x.index
  let n := Nat.min 2 (x.count / 64 - 2 * i)
  let r := s.readLines (d.physCluster (x.src / 48)) (x.src % 48) (x.srcAddr / 64 + 2 * i) n
  let put := fun (a : SideAcc) =>
    if a.kind = .exchange ∧ a.dst = x.index ∧ a.done = false then
      let j := a.line - x.dstAddr / 64 - 2 * i
      if x.dstAddr / 64 + 2 * i ≤ a.line then
        match r.1[j]? with
        | some l => { a with data := some (exchangeLine x l).1, fail := (exchangeLine x l).2 }
        | none => a
      else a
    else a
  (r.2.setDone d.id x.index (i + 1)).modCluster (d.physCluster (x.dst / 48)) fun cl => { cl with side := cl.side.map put }

/-- Whether a record's exchange writes fall on this cycle. -/
def State.exchangeWrites (s : State) (d : Domain) (x : TtRecord) : Bool :=
  let cl := s.cluster (d.physCluster (x.dst / 48))
  cl.holding.isNone && !cl.fenced && !cl.frozen
    && cl.side.any (fun a => a.kind == .exchange && a.dst == x.index && a.due == cl.run && !a.done)

/-- CLUSTER_EXCHANGE (R354): lines of record r are read, or written. -/
def execClusterExchange (m r : Nat) (s : State) : Out :=
  match s.domain m with
  | none => .next s
  | some d =>
    match d.recordOf 1 r with
    | none => .next s
    | some x =>
      if s.readDue d x x.chunks then .next (s.exchangeRead d x)
      else if s.exchangeWrites d x then .next (s.sidePort (fun a => a.kind == .exchange && a.dst == r) (d.physCluster (x.dst / 48)))
      else .next s

/-! ### Reduction steps (15 R360, R361) -/

/-- A combination of an accumulator element y with a widened wire element x. -/
def TtColl.combine (c : TtColl) (y x : Nat) : Nat :=
  if c.type = 2 then
    match c.op with
    | 0 => (y + x) % 2 ^ 32
    | 1 => if sext x 32 < sext y 32 then x else y
    | _ => if sext y 32 < sext x 32 then x else y
  else match c.op with
    | 0 => (fAdd fp32 0 false y x).1
    | 1 => (fMinNum fp32 false false y x).1
    | _ => (fMinNum fp32 true false y x).1

/-- Whether the wire holds BF16. -/
def TtColl.narrow (c : TtColl) : Bool := c.type == 1 && !c.wide

/-- A wire element widened, and an accumulator element in wire format. -/
def TtColl.widen (c : TtColl) (x : Nat) : Nat := if c.narrow then (cvtWiden bf16 false x).1 else x
def TtColl.wire (c : TtColl) (z : Nat) : Nat := if c.narrow then (cvtNarrow bf16 0 false false z).1 else z

/-- Whether an element overflowed on its way to the wire. -/
def TtColl.overflows (c : TtColl) (z : Nat) : Bool := c.narrow && c.wire z % 2 ^ 15 == 0x7F80 && z % 2 ^ 31 != 0x7F800000

/-- The bits of the 64-bit words of elements of w bytes of which some is poisoned. -/
def poisonWords (w : Nat) (bad : List Bool) : Nat :=
  (List.range (32 * w / 8)).foldl (fun n i => n + if ((bad.drop (8 / w * i)).take (8 / w)).any (fun b => b) then 2 ^ i else 0) 0

/-- The read and the combination of a step's next 32 elements; their writes come eight cycles later. -/
def State.reduceRead (d : Domain) (x : TtRecord) (s : State) : State :=
  let g := d.physCluster (x.src / 48)
  let k := x.src % 48
  let core := s.core g k
  let c := ttColl d.timetable x.port
  let i := countOf d.done x.index
  let w := if c.narrow then 2 else 4
  let wa := x.srcAddr + 32 * w * i
  let ya := x.dstAddr + 128 * i
  let wb := core.engineBytes wa (32 * w)
  let yb := core.engineBytes ya 128
  let zs := (List.range 32).map (fun j => c.combine (field yb (4 * j) 4) (c.widen (field wb (w * j) w)))
  let bad := (List.range 32).map (fun j => core.wordPoisoned ((ya + 4 * j) / 8) || core.wordPoisoned ((wa + w * j) / 8))
  let due := (s.cluster g).run + 8
  let s1 := s.modCore g k (fun c => (c.passAll (wordsOf wa (32 * w))).passAll (wordsOf ya 128))
  s1.modDomain d.id fun d =>
    { d with
      done := tput d.done x.index (i + 1)
      wireOverflow := if zs.any c.overflows then (x.port :: d.wireOverflow).eraseDups else d.wireOverflow
      faulty := if bad.any (fun b => b) then (x.index :: d.faulty).eraseDups else d.faulty
      writes := d.writes ++ [
        { due := due, core := gcore g k, addr := ya, bytes := zs.flatMap (leBytes 4), poison := poisonWords 4 bad },
        { due := due, core := gcore g k, addr := wa, bytes := zs.flatMap (fun z => leBytes w (c.wire z)), poison := poisonWords w bad }] }

/-- Whether a step write falls on this cycle. -/
def State.stepWriteDue (s : State) (w : StepWrite) : Bool :=
  let cl := s.cluster (w.core / 48)
  w.due == cl.run && cl.holding.isNone && !cl.fenced && !cl.frozen

/-- A core-side write of whole words by a reduction step, with their poison. -/
def State.stepWrite (w : StepWrite) (s : State) : State :=
  s.modCore (w.core / 48) (w.core % 48) fun c =>
    (List.range (w.bytes.length / 8)).foldl (fun c i => if bits w.poison i i = 1 then c.setErr (w.addr / 8 + i) .poison else c)
      (c.bankBytes w.addr w.bytes)

/-- REDUCTION_STEP (R361): elements of record r are read and combined, or results are written. -/
def execReductionStep (m r : Nat) (s : State) : Out :=
  match s.domain m with
  | none => .next s
  | some d =>
    match d.recordOf 4 r with
    | none => .next s
    | some x =>
      if s.readDue d x (x.count / 128) then .next (s.reduceRead d x)
      else
        .next (((d.writes.filter s.stepWriteDue).foldl (fun s w => s.stepWrite w) s).modDomain m fun d =>
          { d with writes := d.writes.filter (fun w => !s.stepWriteDue w) })

/-! ### A pitch's accesses (08 R180, R182) -/

/-- The core-side accesses of a record: core, cycle from the pitch's first, and line. -/
def TtRecord.coreSide (x : TtRecord) (margin : Nat) (c : TtColl) : List (Nat × Nat × Nat) :=
  match x.kind with
  | 1 => (List.range (x.count / 64)).map (fun i => (x.src, x.time + i / 2, x.srcAddr / 64 + i))
  | 2 => (List.range (2 * x.flits)).map (fun i => (x.src, x.time + i / 2 - margin, x.srcAddr / 64 + i))
  | 4 =>
    (List.range (x.count / 128)).flatMap fun i =>
      let w := if c.narrow then 64 else 128
      let ls := linesOf (x.srcAddr + w * i) w ++ linesOf (x.dstAddr + 128 * i) 128
      ls.map (fun l => (x.src, x.time + i, l)) ++ ls.map (fun l => (x.src, x.time + i + 8, l))
  | _ => []

/-- The side-port writes of a record, their cycles counted from the pitch's first. -/
def Domain.sideOf (d : Domain) (x : TtRecord) : List SideAcc :=
  match x.kind with
  | 1 =>
    let lat := exchangeLatency (d.physCluster (x.src / 48)) (d.physCluster (x.dst / 48))
    (List.range (x.count / 64)).map (fun i =>
      { due := x.time + lat + i / 2, kind := .exchange, issued := x.time, source := x.index, ctx := 0, core := x.dst % 48
        line := x.dstAddr / 64 + i, dst := x.index, tag := BitVec.ofNat 12 x.tag })
  | 3 =>
    (List.range (2 * x.flits)).map (fun i =>
      { due := x.time + i / 2 + 8, kind := .landing, issued := x.time, source := x.port, ctx := 0, core := x.dst % 48
        line := x.dstAddr / 64 + i, dst := i % 2, tag := BitVec.ofNat 12 x.tag })
  | _ => []

/-- Takes the accesses of a pitch's records, at the pitch's first cycle. -/
def State.bookPitch (d : Domain) (s : State) : State :=
  let b := d.timetable
  d.records.foldl (fun s x =>
    let s1 := (x.coreSide (ttMargin b d.pcn.toNat) (ttColl b x.port)).foldl (fun (s : State) (a : Nat × Nat × Nat) =>
      let g := d.physCluster (a.1 / 48)
      let base := (s.cluster g).pitchRun
      s.modCore g (a.1 % 48) fun c => { c with sched := c.sched ++ [⟨base + a.2.1, bankOfLine a.2.2, 0, base⟩] }) s
    s1.modCluster (d.physCluster (x.dst / 48)) fun cl =>
      { cl with side := cl.side ++ (d.sideOf x).map fun a => { a with due := cl.pitchRun + a.due, issued := cl.pitchRun + a.issued } }) s

end Sys2Proof.Machine
end

