-- ==== Sys2Proof/Machine/Lines.lean ====
section
/-! DEFINITION. The loader's side of fixed lines: the ticks and cycles that a timetable claims (15 R348, R351, R354, R361), the loaded
timetables (11 R250, R270), and the checks of a timetable (11 R261, R266, R267, 15 R360, 17 R388). -/

namespace Sys2Proof.Machine

/-! ### Ticks and cycles -/

/-- Whether the ticks or cycles that the runs (first, length) name are all distinct. -/
def apart : List (Nat × Nat) → Bool
  | [] => true
  | (a, n) :: t => t.all (fun q => decide (a + n ≤ q.1) || decide (q.1 + q.2 ≤ a)) && apart t

/-- Ticks that runs name in the 256 from tick x. -/
def inWindow (runs : List (Nat × Nat)) (x : Nat) : Nat :=
  (runs.map (fun q => Nat.min (q.1 + q.2) (x + 256) - Nat.max q.1 x)).sum

/-- The runs of a port's ticks under records of a kind. -/
def portRuns (rs : List TtRecord) (kind p : Nat) : List (Nat × Nat) :=
  (rs.filter (fun r => r.kind == kind && r.port == p)).map (fun r => (r.time, r.flits))

/-- The most ticks of runs that a window of 256 holds. A window with the most begins, or ends, with a run. -/
def windowMax (runs : List (Nat × Nat)) : Nat :=
  runs.foldl (fun n q => Nat.max n (Nat.max (inWindow runs q.1) (inWindow runs (q.1 + q.2 - 256)))) 0

/-- The cycles on which records use the exchange engine of cluster g. -/
def engineRuns (rs : List TtRecord) (margin g : Nat) : List (Nat × Nat) :=
  rs.filterMap fun r =>
    match r.kind with
    | 1 => if r.dst / 48 = g then some (r.time, (r.count + 127) / 128) else none
    | 2 => if r.src / 48 = g then some (r.time - margin, r.flits) else none
    | 4 => if r.src / 48 = g then some (r.time, r.count / 128) else none
    | _ => none

/-- The records of a pitch entry. -/
def entryRecords (b : List Byte) (e : TtPitch) : List TtRecord := (List.range e.count).map (fun i => ttRecord b (e.record + i))

/-- Joins a run to runs that are apart. -/
def addRun (q : Nat × Nat) (l : List (Nat × Nat)) : List (Nat × Nat) :=
  let meets := fun (r : Nat × Nat) => decide (q.1 ≤ r.1 + r.2) && decide (r.1 ≤ q.1 + q.2)
  let near := l.filter meets
  let lo := near.foldl (fun n r => Nat.min n r.1) q.1
  let hi := near.foldl (fun n r => Nat.max n (r.1 + r.2)) (q.1 + q.2)
  (lo, hi - lo) :: l.filter (fun r => !meets r)

/-- Every record of a timetable, and the ticks of a port direction that it reserves, whatever the pitch (15 R348): those under the records
of a kind. -/
def allRecords (b : List Byte) : List TtRecord := (List.range (ttRecords b)).map (ttRecord b)
def reservedRuns (b : List Byte) (kind p : Nat) : List (Nat × Nat) := (portRuns (allRecords b) kind p).foldl (fun l q => addRun q l) []

/-! ### Loaded timetables (11 R270, 15 R348, 17 R387) -/

/-- A loaded timetable, with its world and whether its domain has a sync tree. -/
structure LoadedTable where
  world : Nat
  tree : Bool
  bytes : List Byte
  deriving DecidableEq, Repr

/-- The loaded timetables: those of loaded images, but for the ones unloaded at the end of their part, and those of the domains that
run on without their image. -/
def State.loadedTables (s : State) : List LoadedTable :=
  let held := s.images.filter (fun i => !i.unloaded)
  held.map (fun i => { world := i.world, tree := decide (2 ≤ field i.header 10 2), bytes := i.timetable })
    ++ (s.domains.filter (fun d => d.phase != .ended && !held.any (fun i => i.handle == d.image))).map
      (fun d => { world := d.world, tree := !d.neighbours.isEmpty, bytes := d.timetable })

/-- The most ticks of a window that a timetable reserves of a port direction, and with the sync tick of its domain. -/
def LoadedTable.ticks (t : LoadedTable) (kind p : Nat) : Nat := windowMax (reservedRuns t.bytes kind p)
def LoadedTable.load (t : LoadedTable) (kind p : Nat) : Nat := t.ticks kind p + if t.tree then 1 else 0

/-- Whether a timetable of world w leaves a port direction its packet reserve, stays with the world's others within the tick limit, and
claims no departure that another loaded timetable holds (11 R267, 15 R348, 17 R388). -/
def State.ticksOk (s : State) (t : LoadedTable) (p : Nat) : Bool :=
  let others := s.loadedTables
  let mine := others.filter (fun o => o.world == t.world)
  [2, 3].all (fun kind => decide (t.load kind p + (others.map (fun o => o.load kind p)).sum ≤ 224)
    && decide (t.ticks kind p + (mine.map (fun o => o.ticks kind p)).sum ≤ (s.world t.world).tickLimit))
    && (reservedRuns t.bytes 2 p).all (fun q => others.all fun o => (reservedRuns o.bytes 2 p).all fun r =>
      decide (q.1 + q.2 ≤ r.1) || decide (r.1 + r.2 ≤ q.1))

/-- Brings TT of the segments that a timetable's prepass records name to what the loaded timetables make it (11 R250). -/
def State.retime (w : Nat) (b : List Byte) (s : State) : State :=
  let prepass := fun (x : TtRecord) => x.kind == 5 || x.kind == 6
  let named := fun (sg : Nat) => s.loadedTables.any fun t =>
    t.world == w && (allRecords t.bytes).any (fun x => prepass x && x.dst == sg)
  ((allRecords b).filter prepass).foldl (fun s x =>
    let a := s.segAddr w x.dst
    let v := s.phys a 1
    s.pokeHbm a (leBytes 1 (v - v / 32 % 2 * 32 + if named x.dst then 32 else 0))) s

/-- Marks the timetable of an image unloaded, or loaded. -/
def State.markTable (image : Nat) (out : Bool) (s : State) : State :=
  { s with images := s.images.map fun (i : Image) => if i.handle = image then { i with unloaded := out } else i }

/-- Unloads the timetable of an image at the end of the part that ran it (11 R270); another part that runs it keeps it. DESIGN CHOICE
(log entry 77): it is loaded again, under the same checks, when the image next starts. -/
def State.unloadTable (w image : Nat) (b : List Byte) (s : State) : State :=
  if s.domains.any (fun d => d.image == image) then s else (s.markTable image true).retime w b

/-- Loads it again. -/
def State.reloadTable (i : Image) (s : State) : State :=
  if i.unloaded then (s.markTable i.handle false).retime i.world i.timetable else s

/-! ### The checks of a timetable (11 R261, R266, R267, 15 R351, R354, R360, R361) -/

/-- A record's fields. -/
def recordOk (b : List Byte) (margin : Nat) (clusters : Nat → Bool) (r : TtRecord) : Bool :=
  let x := ttRecordBytes b r.index
  let chunk := fun (u : Nat) => r.count % u == 0 && decide (u ≤ r.count) && decide (r.count ≤ 65536)
  let core := fun (n : Nat) => clusters (n / 48)
  let addr := fun (a : Nat) => a % 64 == 0 && decide (a + r.count ≤ spadBytes)
  let wire := if (ttColl b r.port).narrow then r.count / 2 else r.count
  byteAt x 5 < 2 && field x 26 6 == 0 && decide (r.tag < 0xFFF) &&
    match r.kind with
    | 1 => r.port == 0xFFFF && chunk 64 && core r.src && core r.dst && addr r.srcAddr && addr r.dstAddr
    | 2 => decide (r.port < 36) && chunk 128 && core r.src && addr r.srcAddr && decide (8 ≤ margin) && decide (margin ≤ r.time)
    | 3 => decide (r.port < 36) && chunk 128 && core r.dst && addr r.dstAddr
    | 4 => decide (r.port < ttColls b) && chunk 128 && r.src == r.dst && core r.src && r.srcAddr % 64 == 0
        && decide (r.srcAddr + wire ≤ spadBytes) && addr r.dstAddr
    | 5 => r.port == 0xFFFF && clusters (r.src / 2) && decide (r.dst < 4096)
    | 6 => r.port == 0xFFFF && clusters (r.src / 2) && decide (r.dst < 4096) && decide (bits r.srcAddr 25 20 < 48)
        && r.srcAddr / 2 ^ 26 == 0
    | _ => false

/-- A collective's entry (R360). -/
def collOk (b : List Byte) (clusters : Nat → Bool) (i : Nat) : Bool :=
  let a := 64 + 16 * (ttPitches b + i)
  let c := ttColl b i
  decide (c.type ≤ 2) && decide (c.op ≤ 2) && decide (field b (a + 6) 1 < 2) && field b (a + 7) 1 == 0 && field b (a + 14) 2 == 0
    && (!c.wide || c.type == 1) && (c.ringBase == 0 || clusters (c.ringCore / 48))

/-- The pages that an engine's static prepass records of a pitch touch: a large page counts once (R253). -/
def State.staticPins (s : State) (w : Nat) (rs : List TtRecord) (engine : Nat) : List (Nat × Bool) :=
  ((rs.filter (fun r => r.kind == 5 && r.src == engine)).flatMap fun r =>
    let off := r.dstAddr + r.count % 256 * 2 ^ 32
    (pagesOf off (64 * (r.count / 256))).map fun q =>
      let va := ((s.segment w r.dst).vbase + q) * 65536
      match s.walk w va with
      | some f => if f.large then (va / largePage, true) else (va / 65536, false)
      | none => (va / 65536, false)).eraseDups

/-- Whether the receiver of a kind-2 record holds its landing, where the port has a link that says which module receives (15 R351). -/
def State.received (s : State) (e : TtPitch) (r : TtRecord) : Bool :=
  let x := s.port r.port
  r.kind != 2 || !x.trained || x.edge || Config.receives x.peer x.peerPort e.first (r.time + x.delay) r.count

/-- A pitch entry's records, of an image of world w. -/
def State.pitchOk (s : State) (w : Nat) (b : List Byte) (clusters : Nat → Bool) (e : TtPitch) : Bool :=
  let rs := entryRecords b e
  e.first % 2 == 1 && e.last % 2 == 1 && decide (e.first ≤ e.last) && decide (e.record + e.count ≤ ttRecords b)
    && (rs.zip (rs.drop 1)).all (fun q => decide (q.1.time ≤ q.2.time))
    && rs.all (fun r => recordOk b e.margin clusters r && s.received e r)
    && (List.range 96).all (fun g => apart (engineRuns rs e.margin g))
    && (List.range 36).all (fun p => apart (portRuns rs 2 p) && apart (portRuns rs 3 p))
    && (List.range 192).all (fun n => decide ((s.staticPins w rs n).length ≤ 256))

/-- The status of the peer that a timetable's port names (11 R261, 15 R349); a port that has never trained as a Burcon port names
none. -/
def State.portPeer (s : State) (w p : Nat) : Nat :=
  let x := s.port p
  if x.edge || x.delay == 0 then codePeerAbsent
  else
    let st := s.peerStatus w x.peer
    if st ≠ codeDone then st else if x.packetsOnly || !x.trained then codePeerDown else codeDone

/-- The first refusal of the peers of a timetable's ports, in record order. -/
def State.peersStatus (s : State) (w : Nat) (b : List Byte) : Nat :=
  (List.range (ttRecords b)).foldl (fun st r =>
    let x := ttRecord b r
    if st ≠ codeDone ∨ (x.kind ≠ 2 ∧ x.kind ≠ 3) then st else s.portPeer w x.port) codeDone

/-- A timetable for world w whose logical clusters `clusters` are placed: DONE, or the refusal. -/
def State.timetableStatus (s : State) (w modules : Nat) (clusters : Nat → Bool) (b : List Byte) : Nat :=
  let ps := (List.range (ttPitches b)).map (ttPitch b)
  let meet := fun (e f : TtPitch) => decide (e.first ≤ f.last) && decide (f.first ≤ e.last)
  if b.length < 64 ∨ field b 0 4 ≠ 0x54544B59 ∨ field b 16 48 ≠ 0 ∨ 256 < ttColls b
      ∨ b.length ≠ 64 + 16 * (ttPitches b + ttColls b) + 32 * ttRecords b then codeImageInvalid
  else if !(List.range ps.length).all (fun i => (ps.drop (i + 1)).all (fun f => !(ps[i]?.any (fun e => meet e f))))
      || !ps.all (s.pitchOk w b clusters) || !(List.range 36).all (s.ticksOk { world := w, tree := decide (2 ≤ modules), bytes := b }) || !(List.range (ttColls b)).all (collOk b clusters) then codeImageInvalid
  else s.peersStatus w b

end Sys2Proof.Machine
end

