-- ==== Sys2Proof/Machine/Domain.lean ====
section
/-! DEFINITION. Domains: pitch boundaries and the col (13 R308, R310, R311), the prepass (11 R253), pitch starts and replays
(13 R302, R308, 14 R326, R335), the sync tree (13 R309, R310, 14 R335), stragglers (13 R312) and the end of a domain's part
(13 R317). -/

namespace Sys2Proof.Machine

/-- An exchange pitch has an odd number (01 R16). -/
def Domain.exchange (d : Domain) : Bool := d.pcn.toNat % 2 == 1

/-- The clusters of a domain that run. -/
def State.liveClusters (s : State) (d : Domain) : List Nat := d.clusters.filter (fun g => !(s.cluster g).fenced)

/-- The task of a number. -/
def State.task (s : State) (m : Nat) : Option Task := s.tasks.find? (fun t => t.id == m)
def State.modTask (m : Nat) (f : Task → Task) (s : State) : State :=
  { s with tasks := s.tasks.map fun t => if t.id = m then f t else t }

/-- Raises the module hold line for clusters (14 R331): their cores stop after running cycle q + 47. -/
def State.holdLine (gs : List Nat) (s : State) : State :=
  gs.foldl (fun s g => s.modCluster g fun cl =>
    if cl.frozen || cl.holds.any (fun h => h.kind == .capture) then cl
    else { cl with holds := cl.holds ++ [{ after := cl.run + 47, len := 0, kind := .capture }] }) s

/-- The domain stops with a status: STOP goes over its sync tree, and a kind-10 cairn reports it with the pitch number (13
R310). -/
def State.stopDomain (m status : Nat) (s : State) : State :=
  match s.domain m with
  | none => s
  | some d =>
    (s.modDomain m fun d => { d with phase := .stopped status, stop := some status }).mgmtCairn d.world 10 status s.tick.toNat
      d.pcn.toNat 0

/-- The domain is evacuated: its clusters are held and captured with kind 1 (14 R339). -/
def State.evacuate (m : Nat) (status : Nat) (s : State) : State :=
  match s.domain m with
  | none => s
  | some d =>
    ((s.modDomain m fun d => { d with phase := .stopped status, stop := some status }).holdLine (s.liveClusters d)).modTask m
      fun t => { t with stopping := 3 }

/-! ### Collective cairns (15 R362) -/

/-- Whether a kind-4 record has run whole and met no fault. -/
def Domain.clean (d : Domain) (x : TtRecord) : Bool := countOf d.done x.index == x.count / 128 && !d.faulty.contains x.index

/-- The order signature of a collective's steps. -/
def Domain.signature (d : Domain) (xs : List TtRecord) : Nat :=
  crc64 ((xs.filter d.clean).flatMap (fun x => leBytes 4 x.index ++ leBytes 8 x.time ++ leBytes 4 x.count))

/-- The kind-8 cairn of each collective that had steps in the pitch that ends. -/
def State.collectiveCairns (d : Domain) (s : State) : State :=
  (collsOf d.records).foldl (fun s c =>
    let xs := d.records.filter (fun x => x.kind == 4 && x.port == c)
    let k := ttColl d.timetable c
    match xs.getLast? with
    | none => s
    | some x =>
      { s with cairns := s.cairns ++ [{
          core := d.physCore k.ringCore, base := k.ringBase, status := d.failure.getD codeDone, kind := 8
          flags := if d.wireOverflow.contains c then 2 else 0, world := d.world, source := d.physCluster (x.src / 48)
          order := d.signature xs, stamp := s.tick.toNat, count := k.count }] }) s

/-! ### The prepass (11 R253) -/

/-- The physical copy engine of a record, as cluster and engine. -/
def Domain.engineOf (d : Domain) (x : TtRecord) : Nat × Nat := (d.physCluster (x.src / 2), x.src % 2)

/-- The pages that a prepass record names, in order; an index list is read from scratchpad. -/
def State.prepassPages (s : State) (d : Domain) (x : TtRecord) : List Nat :=
  if x.kind = 5 then
    let off := x.dstAddr + x.count % 256 * 2 ^ 32
    if x.count / 256 = 0 then [] else pagesOf off (64 * (x.count / 256))
  else
    let k := bits x.srcAddr 25 20
    let ix := (s.core (d.engineOf x).1 k).indexWords (x.srcAddr % 2 ^ 20) (x.count % 4096)
    indexPages ix (64 * 2 ^ bits x.count 14 12) (s.segment d.world x.dst).limit

/-- Walks one page and pins it on its engine, at most 256 on one; answers whether the walk succeeded. -/
def State.pinPage (g e w sg q : Nat) (s : State) : Bool × State :=
  let x := s.segment w sg
  let va := (x.vbase + q) * 65536
  if !((x.state == 1 || x.state == 2) && (x.rd || x.wr)) then (false, s)
  else match s.walk w va with
    | none => (false, s)
    | some f =>
      let t := f.translation w va
      let pin := fun (b : List Translation) =>
        let b1 := tlbFill t b
        if 256 ≤ (b1.filter (fun t => t.pinned)).length then b1
        else b1.map fun u => if u.world = t.world ∧ u.page = t.page ∧ u.large = t.large then { u with pinned := true } else u
      (true, s.modCluster g (Cluster.modTlb e pin))

/-- The prepass walks of a list of engine, segment and page; the ones that fail delay the boundary, each with a kind-10
cairn. DESIGN CHOICE (log entry 73): a page that several records name and whose walk fails has a cairn for each. -/
def State.prepassWalks (m w : Nat) (l : List (Nat × Nat × Nat)) (s : State) : State :=
  l.foldl (fun s q =>
    let r := s.pinPage (q.1 / 2) (q.1 % 2) w q.2.1 q.2.2
    if r.1 then r.2
    else (r.2.modDomain m fun d => { d with delayed := d.delayed ++ [q] }).mgmtCairn w 10 codeTranslationFault q.2.2 q.2.1 0) s

/-- The pages that the prepass before exchange pitch p walks, with the index lists as they stand now. -/
def State.prepassList (s : State) (d : Domain) (p : Nat) : List (Nat × Nat × Nat) :=
  ((ttOf d.timetable p).filter (fun x => x.kind == 5 || x.kind == 6)).flatMap fun x =>
    (s.prepassPages d x).map (fun q => ((d.engineOf x).1 * 2 + (d.engineOf x).2, x.dst, q))

/-- The prepass before exchange pitch p. -/
def State.prepass (m p : Nat) (s : State) : State :=
  match s.domain m with
  | none => s
  | some d => s.prepassWalks m d.world (s.prepassList d p)

/-- A prepass that comes after the col's first cycle, which the local readiness waits for (13 R308). -/
def State.latePrepass (m p : Nat) (s : State) : State :=
  (s.prepass m p).modDomain m fun d => { d with readyAt := Nat.max d.readyAt (s.now + 1) }

/-- A page-table change retries the delayed walks of a world's domains (17 R385). -/
def State.retryWalks (w : Nat) (s : State) : State :=
  s.domains.foldl (fun s d =>
    if d.world = w ∧ d.delayed ≠ [] then
      let s1 := (s.modDomain d.id fun d => { d with delayed := [] }).prepassWalks d.id w d.delayed
      s1.modDomain d.id fun d => { d with readyAt := Nat.max d.readyAt (s.now + 1) }
    else s) s

/-! ### The local boundary (13 R308, R310, R311) -/

/-- Whether the exchange pitch that has run failed here, or in some part of the sync tree below (14 R335). -/
def Domain.wantsReplay (d : Domain) : Bool :=
  (d.exchange && d.failure.isSome) || d.neighbours.any (fun n => !n.parent && n.replay)

/-- The number of the pitch that follows: a failed exchange pitch runs again (14 R335). -/
def Domain.nextPcn (d : Domain) : BitVec 32 := if d.wantsReplay then d.pcn else d.pcn + 1

/-- Whether a cluster's cores have all ended their pitch. -/
def Cluster.pitchOver (cl : Cluster) : Bool :=
  cl.fenced || (cl.trap.isNone && (List.range 48).all fun k => (cl.core k).gone || ((cl.core k).ctx 0).status == .atBoundary)

/-- Whether a cluster's cores have all halted or never ran, with nothing under way. -/
def Cluster.partOver (cl : Cluster) : Bool :=
  cl.fenced || (List.range 48).all fun k =>
    let c := cl.core k
    ((c.ctx 0).status == .halted || (c.ctx 0).status == .never) && c.quiet cl.run

/-- Whether a domain's part has ended (13 R317). -/
def State.partOver (s : State) (d : Domain) : Bool := d.phase == .pitch && d.clusters.all (fun g => (s.cluster g).partOver)

/-- Whether a domain's local boundary completes (13 R308): some core waits at it, or has stopped for its domain. -/
def State.boundaryReady (s : State) (d : Domain) : Bool :=
  d.phase == .pitch && d.clusters.all (fun g => (s.cluster g).pitchOver && !(s.cluster g).frozen)
    && (s.liveClusters d).any fun g => (List.range 48).any fun k =>
      (s.ctx g k 0).status == .atBoundary || (s.ctx g k 0).status == .faulted

/-- The boundary's error phase (R311): cores with a pending record enter their handlers on the next cycle. -/
def State.errorPhase (m : Nat) (gs : List Nat) (s : State) : State :=
  (gs.foldl (fun s g =>
    let cl := s.cluster g
    (cl.recorded.foldl (fun s k => s.deliverAt g k (cl.run + 1)) s).modCluster g fun c =>
      { c with trap := some { cycle := cl.run, handlers := cl.recorded.map (fun k => (k, 0)), deferred := true } }) s).modDomain m
    fun d => { d with phase := .errorPhase }

/-- Whether a timetable names a port whose link carries packets only (15 R350). -/
def State.linksLost (s : State) (d : Domain) : Bool :=
  (List.range (ttRecords d.timetable)).any fun r =>
    let x := ttRecord d.timetable r
    (x.kind == 2 || x.kind == 3) && (s.port x.port).packetsOnly

/-- Pitons of a domain's engines are unpinned, and stale ones are gone (11 R253, R254). -/
def State.unpin (gs : List Nat) (s : State) : State :=
  let f := fun (b : List Translation) => (b.filter (fun t => !t.stale)).map (fun t => { t with pinned := false })
  gs.foldl (fun s g => s.modCluster g fun cl => { cl with tlb0 := f cl.tlb0, tlb1 := f cl.tlb1 }) s

/-- LOCAL_BOUNDARY (R308): the domain's cores have completed their PITCH. The collectives' cairns are written (15 R362); then
the error phase begins, or the domain stops with its fault (14 R332, R336), or a STOP that came in an exchange pitch takes effect
(14 R339), or the col begins. -/
def execLocalBoundary (m : Nat) (s : State) : Out :=
  match s.domain m with
  | none => .next s
  | some d =>
    if !s.boundaryReady d then .next s
    else
      let killed := (s.task m).any (fun t => t.stopping == 2)
      let rec0 := (s.liveClusters d).filter (fun g => !(s.cluster g).recorded.isEmpty)
      if rec0 ≠ [] ∧ killed = false then .next (s.errorPhase m rec0)
      else
        let s1 := ((s.collectiveCairns d).unpin d.clusters).modTask m fun t => { t with draining := false }
        match d.fatal with
        | some c => .next (if d.stop.isSome then s1.evacuate m c else s1.stopDomain m c)
        | none =>
          if d.exchange && d.failure.isSome && decide (3 ≤ d.replays) then .next (s1.stopDomain m codeReplayLimit)
          else if s.linksLost d then .next (s1.stopDomain m codePeerDown)
          else .next (s1.modDomain m fun d => { d with phase := .col s.now, readyAt := s.now + 16, delayed := [] })

/-- The first cycle of a col: the prepass before an exchange pitch. -/
def State.colStep (s : State) : State :=
  s.domains.foldl (fun s d =>
    if d.phase = .col (s.now - 1) ∧ d.nextPcn.toNat % 2 = 1 then s.prepass d.id d.nextPcn.toNat else s) s

/-! ### Pitch starts (13 R302, R308, 14 R326, R335) -/

/-- Whether a domain's col is one that a migration waits for: the first to begin since the request (11 R256). -/
def Migration.reaches (q : Migration) (d : Domain) : Bool :=
  match d.phase with
  | .col b => decide (q.asked ≤ b)
  | .stopped _ => true
  | _ => false

/-- Whether a migration of a segment in timetable use holds the col open (11 R256). -/
def State.colHeld (s : State) (d : Domain) : Bool :=
  match s.migrations with
  | q :: _ => q.req.world == d.world && (s.segment d.world q.req.segment).tt && (q.held || q.reaches d)
  | [] => false

/-- Whether a domain's module is locally ready (R308). -/
def State.locallyReady (s : State) (d : Domain) : Bool :=
  match d.phase with
  | .col _ => d.delayed.isEmpty && decide (d.readyAt ≤ s.now) && !s.colHeld d
  | _ => false

/-- The start tick and the number of the pitch to start on this cycle; a tick whose core cycle is skipped starts none, and the next
cycle does (13 R301). A walk that fails delays the boundary (11 R253), past the tick of a GO too. -/
def State.startNow (s : State) (d : Domain) : Option (Nat × BitVec 32) :=
  if s.skipped then none
  else if d.neighbours.isEmpty then
    if s.locallyReady d && decide (d.readyAt + 16 ≤ s.now) then some (s.tick.toNat, d.nextPcn) else none
  else
    match d.phase, d.go with
    | .col _, some (t, p) => if t ≤ s.tick.toNat ∧ d.delayed.isEmpty = true then some (t, BitVec.ofNat 32 p) else none
    | _, _ => none

/-- Starts context 0 of a core at the pitch's first cycle, with its implicit belay (14 R326). -/
def State.startCore (g k : Nat) (s : State) : State :=
  let c := s.ctx g k 0
  let r := (s.cluster g).run
  if c.status == .atBoundary || (c.status == .ready && c.replaying) then
    (s.modCtx g k 0 fun c =>
      { c with
        status := .ready, base := (r : Int), refc := (r : Int), regionE := none, lastOfs := none, notBefore := r, held := false
        shadow := none }).takeBelay g k 0 c.pc true
  else s

/-- The first cycle of a pitch in one cluster. -/
def State.startCluster (replay : Bool) (g : Nat) (s : State) : State :=
  let r := (s.cluster g).run
  let s1 := if replay then s.rollBack g [] r else s
  let s2 := s1.modCluster g fun cl =>
    { cl with pitchRun := r, side := cl.side.filter (fun a => a.kind != .exchange && a.kind != .landing) }
  (List.range 48).foldl (fun s k => s.startCore g k) s2

/-- The status that a replay reports: the domain's own failure here, else that of the first child that asks for it; DONE where
neither is known, the lead's GO naming none (log entry 62). -/
def Domain.replayStatus (d : Domain) : Nat :=
  d.failure.getD (((d.neighbours.find? (fun n => !n.parent && n.replay)).map (·.status)).getD codeDone)

/-- PITCH_START (R308): PCN and the DCC are set, every core's next region has this cycle as its base, and the records of an
exchange pitch take their places. A replay rolls every cluster back first and reports its failure (14 R335). -/
def execPitchStart (m : Nat) (s : State) : Out :=
  match s.domain m with
  | none => .next s
  | some d =>
    match s.startNow d with
    | none => .next s
    | some (t, p) =>
      let replay := p == d.pcn
      let s1 := if replay then s.mgmtCairn d.world 10 d.replayStatus s.tick.toNat d.pcn.toNat 0 else s
      let s2 := (s.liveClusters d).foldl (fun s g => s.startCluster replay g) s1
      let d1 := { d with
        pcn := p, phase := .pitch, startCycle := s.now, timerBase := s.now, startTick := t, dccBase := t - d.t0, failure := none
        replays := if replay then d.replays + 1 else 0, go := none, goLate := false, sent := [], done := [], wireOverflow := []
        faulty := [], writes := [], delayed := []
        neighbours := d.neighbours.map fun n => { n with ready := false, replay := false } }
      let s3 := s2.modDomain m fun _ => d1
      let s4 := d1.records.foldl (fun s x => if x.kind = 3 then s.modPort x.port fun q =>
        { q with landing := q.landing.filter (fun f => decide (t ≤ f.tick)) } else s) s3
      .next (s4.bookPitch d1)

/-! ### The sync tree (13 R309, R310, 14 R335) -/

def syncReady : Nat := 1
def syncPending : Nat := 2
def syncGo : Nat := 3
def syncStop : Nat := 4
def syncReplay : Nat := 5

/-- Whether every child has sent READY or REPLAY. -/
def Domain.childrenReady (d : Domain) : Bool := d.neighbours.all (fun n => n.parent || n.ready || n.replay)

/-- The sync flit that a domain sends on a port. -/
def State.syncOf (s : State) (d : Domain) (n : Neighbour) : List Byte :=
  let hash := d.collHash d.ahead
  match d.stop with
  | some c => syncFlit syncStop c d.ahead 0 hash d.digest
  | none =>
    if n.parent then
      if s.locallyReady d && d.childrenReady then
        if d.wantsReplay then syncFlit syncReplay d.replayStatus d.pcn.toNat 0 hash d.digest
        else syncFlit syncReady 0 d.ahead 0 hash d.digest
      else if d.delayed.isEmpty then syncFlit syncIdle 0 d.ahead 0 hash d.digest
      else syncFlit syncPending 0 d.ahead 0 hash d.digest
    else
      match d.go with
      | some (t, p) => syncFlit syncGo 0 p t hash d.digest
      | none => syncFlit syncIdle 0 d.ahead 0 hash d.digest

/-- Whether a domain sends its sync flit on a port on this tick. -/
def State.syncDue (s : State) (d : Domain) (p : Nat) : Bool :=
  d.phase != .ended && d.neighbours.any (fun n => n.port == p) && (s.port p).burcon && syncOut d.id p s.tick.toNat
    && (s.port p).sentTick != some s.tick.toNat

/-- SYNC_TICK (R309). -/
def execSyncTick (m p : Nat) (s : State) : Out :=
  match s.domain m with
  | none => .next s
  | some d =>
    if !s.syncDue d p then .next s
    else match d.neighbours.find? (fun n => n.port == p) with
      | some n => .next (s.sendFrame p 3 (s.syncOf d n) false)
      | none => .next s

def Domain.modNeighbour (p : Nat) (f : Neighbour → Neighbour) (d : Domain) : Domain :=
  { d with neighbours := d.neighbours.map fun n => if n.port = p then f n else n }

/-- A number is later than another, modulo 2^32. -/
def laterPitch (a b : Nat) : Bool := let n := (a + 2 ^ 32 - b) % 2 ^ 32; decide (0 < n) && decide (n < 2 ^ 31)

/-- The receipt of a sync flit of a kind: one in a free tick, or that fails its CRC, is counted (15 R348); one that names a later
pitch than the domain's next fails the col (R310). -/
def State.takeSync (kind m p : Nat) (fr : Frame) (f : Domain → Neighbour → State → State) (s : State) : Out :=
  if 36 ≤ p then .fault .noSuchInput
  else if !(s.port p).burcon then .next s
  else
    let count := s.modPort p fun x => { x with crcFails := satAdd x.crcFails 1 }
    let other := if s.reservedIn p s.tick.toNat && s.frameOk p 3 fr then s else count
    match s.domain m with
    | none => .next other
    | some d =>
      match d.neighbours.find? (fun n => n.port == p) with
      | none => .next other
      | some n =>
        if !syncIn m p s.tick.toNat then .next other
        else if !s.frameOk p 3 fr || field fr.flit 0 1 != kind then .next count
        else
          let s1 := s.modDomain m (Domain.modNeighbour p fun n => { n with heard := some s.tick.toNat, losses := 0 })
          match d.phase with
          | .col _ =>
            if laterPitch (field fr.flit 4 4) d.ahead then .next (s1.stopDomain m codeScheduleFault) else .next (f d n s1)
          | _ => .next (f d n s1)

/-- SYNC_IDLE and SYNC_PENDING (R309): nothing but word of the neighbour. -/
def execSyncIdle (m p : Nat) (fr : Frame) (s : State) : Out := s.takeSync syncIdle m p fr (fun _ _ s => s)
def execSyncPending (m p : Nat) (fr : Frame) (s : State) : Out := s.takeSync syncPending m p fr (fun _ _ s => s)

/-- Whether a child's pitch, collective hash and digest equal the domain's own. -/
def Domain.agrees (d : Domain) (fr : Frame) (pitch : Nat) : Bool :=
  field fr.flit 4 4 == pitch && field fr.flit 16 8 == d.collHash d.ahead && field fr.flit 24 32 == d.digest.toNat

/-- Whether a domain is in its col. -/
def Domain.inCol (d : Domain) : Bool :=
  match d.phase with
  | .col _ => true
  | _ => false

/-- What a child's READY or REPLAY does: one that agrees is noted; one that differs fails the col, and outside a col, where it may be
a flit still in flight from the last one, says nothing. -/
def State.childSays (m p : Nat) (good : Bool) (f : Neighbour → Neighbour) (d : Domain) (n : Neighbour) (s : State) : State :=
  match d.phase with
  | .stopped _ => s
  | .ended => s
  | _ =>
    if n.parent then s
    else if good then s.modDomain m (Domain.modNeighbour p f)
    else if d.inCol then s.stopDomain m codeCollMismatch
    else s

/-- SYNC_READY (R309, R310): a child is ready; one that differs fails the col. -/
def execSyncReady (m p : Nat) (fr : Frame) (s : State) : Out :=
  s.takeSync syncReady m p fr fun d n s => s.childSays m p (d.agrees fr d.ahead) (fun n => { n with ready := true }) d n

/-- Whether the first cycle of a domain's col, which makes the prepass, has passed. -/
def State.pastPrepass (s : State) (d : Domain) : Bool :=
  match d.phase with
  | .col b => decide (b < s.now)
  | _ => false

/-- SYNC_REPLAY (14 R335): a child's part of the exchange pitch failed, with its status. Where the col has made its prepass for another
pitch, the one for the replay is made now (11 R253). -/
def execSyncReplay (m p : Nat) (fr : Frame) (s : State) : Out :=
  s.takeSync syncReplay m p fr fun d n s =>
    let s1 := s.childSays m p (d.agrees fr d.pcn.toNat) (fun n => { n with replay := true, status := field fr.flit 2 2 }) d n
    if d.wantsReplay = false ∧ s.pastPrepass d = true ∧ (s1.domain m).any Domain.wantsReplay = true then s1.latePrepass m d.pcn.toNat
    else s1

/-- SYNC_GO (R309): the start tick, to be forwarded. A GO for the pitch that has run asks for its replay, with a prepass where
this module knew of none. DESIGN CHOICE (log entry 62): a walk that fails in it delays this module's start. Outside a col, and where it is the GO that started the pitch that has run, it is a repetition. -/
def execSyncGo (m p : Nat) (fr : Frame) (s : State) : Out :=
  s.takeSync syncGo m p fr fun d n s =>
    let t := field fr.flit 8 8
    let q := field fr.flit 4 4
    if n.parent = false ∨ d.go.isSome ∨ d.inCol = false ∨ (q = d.pcn.toNat ∧ t = d.startTick) then s
    else
      if t < s.tick.toNat then s.modDomain m fun d => { d with goLate := true }
      else
        let s1 := s.modDomain m fun d => { d with go := some (t, q) }
        if q = d.pcn.toNat ∧ d.exchange = true ∧ d.wantsReplay = false then s1.latePrepass m q else s1

/-- SYNC_STOP (R310, 14 R339): the col fails, or is evacuated where a straggler stops the domain; a compute pitch that runs is
stopped and evacuated; an exchange pitch that runs stops at its end. -/
def execSyncStop (m p : Nat) (fr : Frame) (s : State) : Out :=
  s.takeSync syncStop m p fr fun d _ s =>
    let c := field fr.flit 2 2
    match d.phase with
    | .col _ => if c = codeStraggler then s.evacuate m c else s.stopDomain m c
    | .pitch =>
      if d.exchange then s.modDomain m fun d => { d with fatal := d.fatal.orElse (fun _ => some c), stop := some c }
      else s.evacuate m c
    | .errorPhase => s.evacuate m c
    | _ => s

/-- Whether the lead of a domain decides on this tick (R309). -/
def State.leadReady (s : State) (d : Domain) : Bool :=
  !d.neighbours.isEmpty && d.neighbours.all (fun n => !n.parent) && d.go.isNone && d.stop.isNone && s.locallyReady d && d.childrenReady

/-- The lead's decision on a tick: T = d + D, for the pitch that failed or for the next. -/
def State.leadDecide (s : State) : State :=
  s.domains.foldl (fun s d =>
    if s.leadReady d then
      s.modDomain d.id fun d => { d with go := some (s.tick.toNat + d.startDelay, d.nextPcn.toNat) }
    else s) s

/-- At the end of a tick, each neighbour whose sync tick it was and whose flit did not pass has lost one more. -/
def State.countLosses (s : State) : State :=
  { s with domains := s.domains.map fun d =>
      { d with neighbours := d.neighbours.map fun n =>
          if syncIn d.id n.port s.tick.toNat && n.heard != some s.tick.toNat then { n with losses := n.losses + 1 } else n } }

/-- Whether a col fails for want of a neighbour's sync flits. -/
def Domain.lost (d : Domain) (p : Nat) : Bool :=
  match d.phase with
  | .col _ => d.neighbours.any (fun n => n.port == p && decide (16 ≤ n.losses))
  | _ => false

/-- SYNC_LOSS (R310). -/
def execSyncLoss (m p : Nat) (s : State) : Out :=
  match s.domain m with
  | some d => if d.lost p then .next (s.stopDomain m codePeerDown) else .next s
  | none => .next s

/-- GO_TIMEOUT (R310): the start tick has passed without GO. -/
def execGoTimeout (m : Nat) (s : State) : Out :=
  match s.domain m with
  | some d =>
    match d.phase with
    | .col _ => if d.goLate then .next (s.stopDomain m codeScheduleFault) else .next s
    | _ => .next s
  | none => .next s

/-! ### Stragglers and the end of a part (13 R312, R317) -/

/-- The straggler limit in cycles. -/
def State.stragglerLimit (s : State) (d : Domain) : Nat :=
  let ls := (s.world d.world).ls
  1024 * (if ls = 0 then 2 ^ 24 else ls)

/-- Whether the straggler timer of a compute pitch has expired. -/
def State.straggles (s : State) (d : Domain) : Bool :=
  !d.exchange && (d.phase == .pitch || d.phase == .errorPhase) && decide (d.timerBase + s.stragglerLimit d ≤ s.now)

/-- STRAGGLER (R312, 14 R339). -/
def execStraggler (m : Nat) (s : State) : Out :=
  match s.domain m with
  | some d => if s.straggles d then .next (s.evacuate m codeStraggler) else .next s
  | none => .next s

/-- DOMAIN_PART_END (R317): the DONE cairn with the final PCN; no task holds the clusters any longer, no page is pinned for
them, and the timetable is unloaded (11 R270). -/
def execDomainPartEnd (m : Nat) (s : State) : Out :=
  match s.domain m with
  | none => .next s
  | some d =>
    if !s.partOver d then .next s
    else
      let s1 := (s.unpin d.clusters).mgmtCairn d.world 10 codeDone s.tick.toNat d.pcn.toNat 0
      .next (({ s1 with domains := s1.domains.filter (fun e => e.id != m), tasks := s1.tasks.filter (fun t => t.id != m) }).unloadTable
        d.world d.image d.timetable)

end Sys2Proof.Machine
end

