-- ==== Sys2Proof/Machine/Scan.lean ====
section
/-! DEFINITION. The bytes of a scan image set (14 R341 to R343): its header, its cluster and core records, its sealing, and the
frames of world 0's protected HBM that hold it. -/

namespace Sys2Proof

/-- The parts of the records whose bits 14 R342 does not give: a cluster record, a context record, the per-core state with its
duplicate, and what is in flight, the last three of a core on a running cycle, from which they count. Each is cut or padded to its
length. -/
opaque Config.scanCluster : Nat → Nat → Machine.Cluster → List Byte
opaque Config.scanContext : Nat → Nat → Machine.Core → List Byte
opaque Config.scanState : Nat → Machine.Core → List Byte
opaque Config.scanFlight : Nat → Machine.Core → List Byte

namespace Machine

/-- Bytes of a core record. -/
abbrev coreRecordBytes : Nat := 0x180000
abbrev clusterRecordBytes : Nat := 16384

/-- The 2-byte line record of a line (R342). -/
def Core.lineRecord (c : Core) (l : Nat) : List Byte :=
  let bit := fun (b : Bool) (i : Nat) => if b then 2 ^ i else 0
  leBytes 2 ((c.tag l).toNat + bit (c.form l) 12 + bit ((List.range 8).any (fun i => c.err (8 * l + i) == .poison)) 13 + bit (c.isLent l) 14)

/-- The poison bitmap of a core, one bit for each 64-bit word. -/
def Core.poisonMap (c : Core) : List Byte :=
  (List.range 16384).flatMap fun i =>
    leBytes 1 ((List.range 8).foldl (fun n j => n + if c.err (8 * i + j) == .poison then 2 ^ j else 0) 0)

/-- A core record (R342) at running cycle t. -/
def Core.record (t : Nat) (c : Core) : List Byte :=
  (List.range spadBytes).map (fun a => Memory.read c.spad a)
    ++ (List.range (2 ^ 17)).map (fun a => Memory.read c.imem a)
    ++ (List.range 16384).flatMap c.lineRecord
    ++ c.poisonMap ++ zeros 16384
    ++ (List.range 4).flatMap (fun x => padTo 16384 (Config.scanContext t x c))
    ++ padTo 131072 (Config.scanState t c) ++ padTo 65536 (Config.scanFlight t c) ++ zeros 65536

/-- A cluster record and its 48 core records; `g` is the physical cluster. -/
def Cluster.record (g : Nat) (cl : Cluster) : List Byte :=
  padTo clusterRecordBytes (Config.scanCluster cl.logical g cl) ++ (List.range 48).flatMap (fun k => (cl.core k).record cl.run)

/-- The records of a set, before it is sealed. -/
def ImageSet.records (i : ImageSet) : List Byte := i.clusters.flatMap (fun q => q.2.record q.1)

/-- The bytes of the records of a set of n clusters, and of the whole set. -/
def recordBytes (n : Nat) : Nat := n * (clusterRecordBytes + 48 * coreRecordBytes)

/-- The IV of a sealed set (R343). -/
def ImageSet.iv (i : ImageSet) (m : Nat) : List Byte := leBytes 2 m ++ leBytes 8 i.seq ++ [0, 0]

/-- Bytes 0 to 127 of the header (R341), which a sealed set authenticates; `m` is the module id. -/
def ImageSet.head (i : ImageSet) (m : Nat) : List Byte :=
  let bit := fun (b : Bool) (n : Nat) => if b then 2 ^ n else 0
  padTo 128 (leBytes 4 0x4D494B59 ++ [1] ++ leBytes 1 i.kind ++ leBytes 1 i.stepping
    ++ leBytes 1 (bit i.icm 0 + bit i.rwr 1 + bit i.sealedSet 2 + bit i.domain.isSome 3) ++ leBytes 2 i.world ++ leBytes 2 m
    ++ leBytes 2 i.clusters.length ++ leBytes 2 i.status ++ leBytes 4 i.pcn.toNat ++ leBytes 8 i.dcc ++ leBytes 4 i.pitchCycles
    ++ leBytes 32 i.digest.toNat ++ leBytes 8 i.stopTick ++ leBytes 8 i.seq ++ leBytes 4 coreRecordBytes ++ leBytes 4 i.seq)

/-- A set as it stands in HBM: the header and the records, sealed under the world's image key where the world is confidential
(R343). -/
def ImageSet.bytes (i : ImageSet) (m : Nat) : List Byte :=
  match i.sealedSet, i.key with
  | true, some k =>
    let key := leBytes 16 k.toNat
    let body := gcmCrypt key (i.iv m) 0 i.records
    i.head m ++ padTo 16 (i.iv m) ++ gcmTag key (i.iv m) (i.head m) body ++ zeros 96 ++ body
  | _, _ => i.head m ++ zeros 128 ++ i.records

/-- The first line of the frames that world 0's system software provides for a set. -/
def frameLine (seq : Nat) : Nat := Config.imageFrame seq * 1024

/-- Writes a set into its frames of world 0's protected HBM. -/
def State.storeSet (i : ImageSet) (s : State) : State :=
  let b := i.bytes s.moduleId.toNat
  (List.range (b.length / 64)).foldl (fun s n =>
    s.writeHbm 0 (frameLine i.seq + n) true (Line.ofBytes ((b.drop (64 * n)).take 64) 0 false)) s

/-- Reads bytes of a set from its first line on; none where a line does not verify. -/
def State.readSet (s : State) (seq lines : Nat) : Option (List Byte) :=
  let ls := (List.range lines).map fun n => s.readHbm s.hbm 0 (frameLine seq + n) true
  if ls.any (fun l => l.poison != 0) then none else some (ls.flatMap Line.bytes)

/-- Whether the header of a set is a set's: magic, version, length of a core record, and number of clusters (R344). -/
def setHeaderOk (h : List Byte) (n : Nat) : Bool :=
  field h 0 4 == 0x4D494B59 && field h 4 1 == 1 && field h 80 4 == coreRecordBytes && field h 12 2 == n

/-- Whether the tag of a sealed set verifies under a world's image key (R344). -/
def State.setOpens (s : State) (w : Nat) (i : ImageSet) : Bool :=
  match (tget {} s.assay.keys w).image, s.readSet i.seq (4 + recordBytes i.clusters.length / 64) with
  | some k, some b => gcmTag (leBytes 16 k.toNat) ((b.drop 128).take 12) (b.take 128) (b.drop 256) == (b.drop 144).take 16
  | _, _ => false

end Machine

end Sys2Proof
end

