-- ==== Sys2Proof/Machine/Control.lean ====
section
/-! DEFINITION. The Dispatch Controller and the engines of system software's requests: launch queues and admission (10 R248,
11 R262, R263, 14 R337, R407, 17 R383, R388), capture and restore (14 R338 to R346), shootdowns and migrations (11 R254 to
R257, 17 R385), rekeys (11 R269) and the ends of tasks (13 R406). -/

namespace Sys2Proof.Machine

/-! ### The loader's zeroing (04 R87, 08 R174, 13 R300) -/

/-- Whether a byte address lies in a lent bank, which the loader leaves as it stands (08 R187). -/
def Core.lentByte (c : Core) (a : Nat) : Bool := c.isLent (a / 64)

/-- A core as the loader leaves it when its cluster changes hands: only the seal counter and its lent banks stand. -/
def Core.zeroed (c : Core) : Core :=
  { lent := c.lent, spad := c.spad.filter (fun q => c.lentByte q.1), errs := c.errs.filter (fun q => c.isLent (q.1 / 8))
    fixes := c.fixes.filter (fun x => c.isLent x.line), sealCtr := c.sealCtr, stg := c.stg &&& 0xFF }

/-- A cluster as the loader leaves it: its world and its fence stand, and it holds no image. -/
def Cluster.zeroed (cl : Cluster) : Cluster :=
  { cores := cl.cores.map (fun p => (p.1, p.2.zeroed)), world := cl.world, fenced := cl.fenced, fenceCode := cl.fenceCode }

def State.zeroClusters (gs : List Nat) (s : State) : State := gs.foldl (fun s g => s.modCluster g Cluster.zeroed) s

/-! ### Launch ports (11 R262, 17 R383) -/

/-- The launch queue of a world and a level. -/
def State.queue (s : State) (w p : Nat) : List LaunchEntry := tget [] s.launchQ (8 * w + p)
def State.modQueue (w p : Nat) (f : List LaunchEntry → List LaunchEntry) (s : State) : State :=
  { s with launchQ := tset [] s.launchQ (8 * w + p) (f (s.queue w p)) }

/-- Bytes of a segment that a launch reads; none where they cannot be read. -/
def State.readVector (s : State) (w sg off n : Nat) : Option (List Byte) :=
  match s.untimedPages w sg off n false with
  | .error _ => none
  | .ok ms => let r := s.readSeg w ms off n; if r.2 then none else some r.1

/-- The limits of a start vector's header (R263). -/
def startHeaderOk (h : List Byte) : Bool :=
  field h 0 4 == 0x56534B59 && bits (field h 4 1) 7 6 == 0 && decide (field h 5 1 ≤ 1) && decide (1 ≤ field h 6 2)
    && decide (field h 6 2 ≤ 96) && field h 24 40 == 0 && (bits (field h 4 1) 5 5 == 1 || field h 16 8 == 0)

/-- Whether a start vector's header names a loaded image of its number of clusters (R263). -/
def State.namesImage (s : State) (h : List Byte) : Bool :=
  match s.imageOf (field h 8 4) with
  | some i => i.clusters == field h 6 2
  | none => false

/-- The outcome of a launch-port write: status, priority, and the entry that it queues. -/
def State.launchOutcome (s : State) (w : Nat) (v : BitVec 64) : Nat × Nat × Option LaunchEntry :=
  let x := v.toNat
  let sg := bits x 11 0
  let off := bits x 51 12
  if (s.world w).state ≠ 1 ∨ bits x 63 52 ≠ 0 ∨ bits x 17 12 ≠ 0 then (codeStartInvalid, 0, none)
  else match s.readVector w sg off 64 with
    | none => (codeStartInvalid, 0, none)
    | some h =>
      let p := bits (field h 4 1) 2 0
      if !startHeaderOk h || !s.namesImage h then (codeStartInvalid, p, none)
      else if 8 ≤ (s.queue w p).length then (codeQueueFull, p, none)
      else (codeDone, p, some { segment := sg, offset := off })

/-- LAUNCH (R383): a launch-port write of a function's world, with its outcome in LSTAT. One that arrives while the function's
reset has not completed is discarded (17 R389). -/
def execLaunch (fn : Nat) (v : BitVec 64) (s : State) : Out :=
  if 17 ≤ fn then .fault .noSuchInput
  else if (s.func fn).resetting then .next s
  else
    let r := s.launchOutcome fn v
    let seq := (bits (s.func fn).lstat.toNat 31 20 + 1) % 4096
    let acc := if r.2.2.isSome then 1 else 0
    let s1 := s.modFunc fn fun f => { f with lstat := BitVec.ofNat 32 (seq * 2 ^ 20 + acc * 2 ^ 19 + r.2.1 * 2 ^ 16 + r.1) }
    match r.2.2 with
    | some e => .next (s1.modQueue fn r.2.1 (fun q => q ++ [e]))
    | none => .next (s1.interrupt fn fn 7)

/-- LAUNCH_WITHDRAWAL (10 R248): system software withdraws a REFUSED entry. -/
def execLaunchWithdrawal (wd pr ix : Nat) (s : State) : Out :=
  match (s.queue wd pr)[ix]? with
  | some e => if e.refused then .next (s.modQueue wd pr (fun q => dropNth q ix)) else .next s
  | none => .next s

/-- TOKEN_REFILL (17 R387): every 2^20 cycles each world's tokens grow by its refill, up to its depth. -/
def execTokenRefill (s : State) : Out :=
  .next { s with
    refilled := s.refilled + 1
    worlds := s.worlds.map fun p => (p.1, { p.2 with tokens := Nat.min p.2.depth (p.2.tokens + p.2.refill) }) }

/-! ### Admission (10 R248, 11 R263, 14 R337, R344, R407, 17 R388) -/

/-- What the Dispatch Controller makes of the entry at the head of a queue. -/
inductive Verdict where
  /-- Refused with a status (R263, R344); PLACEMENT_REFUSED keeps the entry (01 R42). -/
  | refuse (status : Nat)
  /-- It waits for its clusters. -/
  | wait (need : List Nat)
  /-- A victim is chosen, with the response of 14 R337: 0 drain, 1 checkpoint, 2 kill. -/
  | preempt (victim : Nat) (response : Nat) (need : List Nat)
  /-- It is admitted: the start vector, its image, its clusters in logical order, and the image set to restore. -/
  | accept (vec : List Byte) (image : Image) (need : List Nat) (restore : Option Nat)
  deriving DecidableEq, Repr

/-- The task that holds a cluster. -/
def State.holder (s : State) (g : Nat) : Option Task := s.tasks.find? (fun t => t.clusters.contains g)

/-- The entries of a start vector keep R263's limits. -/
def entriesOk (v : List Byte) (n : Nat) : Bool :=
  (List.range (48 * n)).all fun i =>
    let e := (v.drop (64 + 16 * i)).take 16
    field e 0 4 % 4 == 0 && decide (field e 0 4 < 2 ^ 17) && field e 4 4 &&& 0xFFFE003F == 0
      && field e 8 4 % 64 == 0 && decide (field e 8 4 < spadBytes) && field e 12 4 == 0

/-- Placements that R41 allows, as pairs of a logical and a physical cluster: within a die any permutation, dies under a
latency-preserving permutation. -/
def pairsOk (ps : List (Nat × Nat)) : Bool :=
  let dies := [(fun (d : Nat) => d), (fun d => d / 6 * 6 + (5 - d % 6)), (fun d => (1 - d / 6) * 6 + d % 6),
    (fun d => (1 - d / 6) * 6 + (5 - d % 6))]
  ps.all (fun p => decide (p.2 < 96)) && (ps.map (·.2)).eraseDups.length == ps.length
    && dies.any (fun f => ps.all (fun p => p.2 / 8 == f (p.1 / 8)))

/-- The same for the physical clusters in logical order. -/
def placementOk (map : List Nat) : Bool := pairsOk ((List.range map.length).zip map)

/-- The image set of a stop sequence number. -/
def State.imageSet (s : State) (q : Nat) : Option ImageSet := s.imageSets.find? (fun i => i.seq == q)
def State.park (s : State) (q : Nat) : Option Park := s.parks.find? (fun p => p.seq == q)

/-- The image loaded for a world whose digest an image set's header names: the rewritten one where RWR is set. -/
def State.heldImage (s : State) (w : Nat) (h : List Byte) : Option Image :=
  let d : BitVec 256 := BitVec.ofNat 256 (field h 32 32)
  s.images.find? fun i => i.world == w && (if bits (field h 7 1) 1 1 = 1 then i.rewritten == some d else i.digest == d)

/-- The checks of R344 on a restore, in order, on the header as it stands in HBM. -/
def State.restoreStatus (s : State) (w q : Nat) (need : List Nat) : Nat :=
  match s.imageSet q with
  | none => codeImageInvalid
  | some i =>
    match s.readSet q 4 with
    | none => codeImageInvalid
    | some h =>
    let step := ((s.core (need.headD 0) 0).stg.extractLsb' 0 8).toNat
    if !i.ended || i.clusters.length != need.length || !setHeaderOk h need.length then codeImageInvalid
    else if field h 6 1 ≠ step then codeImageStepping
    else if field h 8 2 ≠ w ∨ (s.world w).state ≠ 1 ∨ (i.sealedSet = true ∧ s.setOpens w i = false) then codeImageInvalid
    else if (s.heldImage w h).isNone then codeImageInvalid
    else if !placementOk need then codePlacementRefused
    else if (s.park q).any (fun p => !p.ops.isEmpty) ∧ i.clusters.map (·.1) ≠ need then codePlacementRefused
    else codeDone

/-- Whether the base camp lets a placement start: its dies are up, and for fixed lines or a sync tree the ticks are calibrated
(17 R390). -/
def State.campReady (s : State) (image : Image) (need : List Nat) : Bool :=
  need.all (fun g => s.bring.getLsbD (g / 8))
    && (s.bring.getLsbD 14 || decide (field image.header 10 2 ≤ 1) && (List.range (ttRecords image.timetable)).all fun r =>
      let k := (ttRecord image.timetable r).kind
      k != 2 && k != 3)

/-- The effective priority of a start vector (17 R388). -/
def State.effective (s : State) (w p : Nat) : Nat := Nat.min p (Nat.min (s.world w).maxPriority (s.world w).tokens)

/-- The remaining estimate of a domain's pitch (03 R82), in units of 1,024 cycles; none is unbounded. -/
def State.estimate (s : State) (t : Task) : Option Nat :=
  match s.imageOf t.image, s.domain t.id with
  | some i, some d => ((i.rtt.filter (fun e => decide (e.1 ≤ d.pcn.toNat))).getLast?).map (·.2)
  | _, _ => none

/-- The response to a pre-emption by priority p (R337). -/
def State.response (s : State) (t : Task) (p : Nat) : Nat :=
  if t.timetable && (match s.estimate t with
    | some e => decide (e < t.drain)
    | none => false) then 0
  else if t.killable && decide (t.priority + 2 ≤ p) then 2
  else 1

/-- Whether a domain's part is stopped at its boundary. -/
def Domain.isStopped (d : Domain) : Bool :=
  match d.phase with
  | .stopped _ => true
  | _ => false

/-- Whether a task runs: none whose clusters stream back for a restore does, nor one that is stopped at its boundary. -/
def State.runs (s : State) (t : Task) : Bool :=
  !s.restores.any (fun r => r.clusters == t.clusters) && !(s.domain t.id).any Domain.isStopped

/-- The victim of a pre-emption: the running task of lowest priority whose clusters suffice, admitted last among equals. -/
def State.victim (s : State) (p : Nat) (need : List Nat) : Option Task :=
  (s.tasks.filter (fun t => s.runs t && decide (t.priority < p) && need.all (fun g =>
    match s.holder g with
    | some h => h.id == t.id
    | none => true) && need.any t.clusters.contains)).foldl (fun best t =>
    match best with
    | some b => if t.priority < b.priority ∨ (t.priority = b.priority ∧ b.admitted < t.admitted) then some t else some b
    | none => some t) none

/-- The domains of the module, with those that restores under way will bring back (01 R14). -/
def State.domainCount (s : State) : Nat :=
  s.domains.length + (s.restores.filter (fun r => (s.imageSet r.seq).any (fun i => i.domain.isSome))).length

/-- The portion of its world's HBM share that one more domain would have (17 R388), beside those that run or stream back. -/
def State.portion (s : State) (w : Nat) : Nat :=
  (s.world w).hbmShare / ((s.tasks.filter (fun t => t.timetable && t.world == w)).length + 1)

/-- What the head entry of a queue comes to; `taken` are the clusters that entries before it in the order wait for. -/
def State.verdict (s : State) (w p : Nat) (e : LaunchEntry) (taken : List Nat) : Verdict :=
  match s.readVector w e.segment e.offset 64 with
  | none => .refuse codeStartInvalid
  | some h =>
    let n := field h 6 2
    let ctl := field h 4 1
    match s.readVector w e.segment e.offset (64 + 768 * n), s.imageOf (field h 8 4) with
    | some v, some image =>
      if !startHeaderOk h || (bits ctl 4 4 == 1 && w != 0) || image.world != w || image.clusters != n
          || (field h 5 1 == 0) != (bits (field image.header 7 1) 3 3 == 1) || !entriesOk v n then .refuse codeStartInvalid
      else
        let need := image.placement.take n
        let restore := match e.restore with
          | some q => some q
          | none => if bits ctl 5 5 = 1 then some (field h 16 8) else none
        let st := match restore with
          | some q => s.restoreStatus w q need
          | none => codeDone
        let lines := if image.unloaded then s.timetableStatus w (field image.header 10 2) (fun c => decide (image.placement.getD c 96 < 96)) image.timetable
          else codeDone
        if st ≠ codeDone then .refuse st
        else if lines ≠ codeDone then .refuse lines
        else if need.any (fun g => (s.cluster g).fenced || !(s.world w).clusters.getLsbD g) then .refuse codePlacementRefused
        else if need.any (fun g => (s.holder g).isSome) then
          if s.effective w p = p && !need.any taken.contains then
            match s.victim p need with
            | some t => if t.stopping = 0 ∧ t.draining = false then .preempt t.id (s.response t p) need else .wait need
            | none => .wait need
          else .wait need
        else if need.any taken.contains || !s.campReady image need
            || need.any (fun g => (s.cluster g).frozen || !(s.cluster g).idle
              || (restore.isNone && (s.cluster g).image != some image.handle))
            || (field h 5 1 == 0 && decide (16 ≤ s.domainCount)) then .wait need
        else if field h 5 1 == 0 && decide (s.portion w < Config.timedSlots image.digest) then .refuse codePlacementRefused
        else .accept v image need restore
    | _, _ => .refuse codeStartInvalid

/-- The WAITING heads of the launch queues, in the order of admission: effective priority, then the worlds' round-robin, then
the level. -/
def State.waiting (s : State) : List (Nat × Nat) :=
  let heads := (List.range 17).flatMap fun w => (List.range 8).filterMap fun p =>
    if (s.world w).state = 1 ∧ (s.queue w p).any (fun e => !e.refused) then some (w, p) else none
  let round := fun (w : Nat) => if tget 0 s.admitted w < (s.world w).weight then 0 else 1
  let before := fun (a b : Nat × Nat) =>
    let ea := s.effective a.1 a.2
    let eb := s.effective b.1 b.2
    decide (eb < ea) || (ea == eb && (decide (round a.1 < round b.1) || (round a.1 == round b.1 &&
      (decide (a.1 < b.1) || (a.1 == b.1 && decide (b.2 < a.2))))))
  heads.foldl (fun l a => l.filter (fun b => before b a) ++ [a] ++ l.filter (fun b => !before b a)) []

/-- The first waiting entry on which the Dispatch Controller acts, with what it does; an entry that waits keeps its clusters
from those after it. -/
def State.nextVerdict (s : State) : Option (Nat × Nat × LaunchEntry × Verdict) :=
  (s.waiting.foldl (fun (acc : Option (Nat × Nat × LaunchEntry × Verdict) × List Nat) q =>
    match acc.1 with
    | some _ => acc
    | none =>
      match (s.queue q.1 q.2).find? (fun e => !e.refused) with
      | none => acc
      | some e =>
        match s.verdict q.1 q.2 e acc.2 with
        | .wait need => (none, acc.2 ++ need)
        | v => (some (q.1, q.2, e, v), acc.2)) (none, [])).1

/-- Removes the first WAITING entry of a queue. -/
def dropWaiting : List LaunchEntry → List LaunchEntry
  | [] => []
  | e :: t => if e.refused then e :: dropWaiting t else t

/-- Marks the first WAITING entry of a queue REFUSED. -/
def markRefused : List LaunchEntry → List LaunchEntry
  | [] => []
  | e :: t => if e.refused then e :: markRefused t else { e with refused := true } :: t

/-- A start-vector entry starts context 0 of a core on the next cycle (04 R89). -/
def State.startEntry (timetable serial : Bool) (g k : Nat) (e : List Byte) (s : State) : State :=
  let entry := field e 0 4
  if !timetable && entry == 0 then s
  else
    let t := (s.cluster g).run + 1
    let fresh := fun (c : Ctx) => if timetable then { ({} : Ctx) with dupAddr := none } else c
    (s.modCtx g k 0 fun c => (fresh c).launch entry (BitVec.ofNat 32 (field e 4 4)) (field e 8 4) t serial).takeBelay g k 0 entry true

/-- The sync tree and the start delay of a domain on several modules (13 R309). -/
def treeOf (m : Nat) (modules : Nat) : List Neighbour :=
  if modules ≤ 1 then [] else (Config.syncTree m).map (fun q => { port := q.1 % 36, parent := q.2 })
def State.delayOf (s : State) (m : Nat) (ns : List Neighbour) : Nat :=
  ns.foldl (fun d n => if n.parent then d else Nat.max d ((s.port n.port).delay + 264 + Config.beyond m n.port)) 0 + 288

/-- No item of a core is tagged with a writer: trigger mode keeps no duplicate of what other contexts wrote (04 R100). -/
def Core.forgetWriters (c : Core) : Core := { c with writers := [], dup := { c.dup with writers := [] } }

/-- The task and the domain of an admitted start vector; its cores start on the next cycle, or its image set streams back. -/
def State.launchTask (w p : Nat) (e : LaunchEntry) (v : List Byte) (image : Image) (need : List Nat) (restore : Option Nat)
    (s : State) : State :=
  let m := s.nextTask
  let ctl := field v 4 1
  let tt := field v 5 1 == 0
  let t : Task := {
    id := m, world := w, priority := s.effective w p, level := p, killable := bits ctl 3 3 == 1, drain := field v 12 4
    image := image.handle, clusters := need, timetable := tt, segment := e.segment, offset := e.offset, admitted := m
    serial := bits ctl 4 4 == 1, share := (s.world w).hbmShare }
  let s1 := ({ s with nextTask := m + 1, tasks := s.tasks ++ [t] }).reloadTable image
  match restore with
  | some q =>
    let s2 := need.foldl (fun s g => s.modCluster g fun cl => { cl with frozen := true, streaming := some (s.now + 24576) }) s1
    { s2 with restores := s2.restores ++ [{ seq := q, cycle := s.now + 24576, clusters := need }] }
  | none =>
    let s2 := ((List.range need.length).zip need).foldl (fun s q =>
      let g := q.2
      let s3 := s.modCluster g fun cl =>
        { cl with
          trigger := !tt, logical := q.1, pitchRun := cl.run + 1
          cores := if tt || cl.trigger then cl.cores else cl.cores.map fun p => (p.1, p.2.forgetWriters) }
      (List.range 48).foldl (fun s k =>
        s.startEntry tt (bits ctl 4 4 == 1) g k ((v.drop (64 + 16 * (48 * q.1 + k))).take 16)) s3) s1
    if tt then
      let ns := treeOf m (field image.header 10 2)
      { s2 with domains := s2.domains ++ [{
          id := m, world := w, clusters := need, image := image.handle, t0 := s.tick.toNat + 1, startCycle := s.now + 1
          startTick := s.tick.toNat + 1, timerBase := s.now + 1, neighbours := ns, startDelay := s.delayOf m ns
          share := t.share, digest := image.digest, timetable := image.timetable }] }
    else s2

/-- Charges an admission: its world's turn in the round and its tokens. -/
def State.chargeAdmission (w p : Nat) (s : State) : State :=
  let e := s.effective w p
  let turn := if tget 0 s.admitted w < (s.world w).weight then s.admitted else []
  { s with admitted := tput turn w (tget 0 turn w + 1) }.modWorld w fun x => { x with tokens := x.tokens - e }

/-- A pre-emption's response (R337, R338): drain, checkpoint or kill. The hold line stops what does not wait for a boundary. -/
def State.preempt (victim response : Nat) (s : State) : State :=
  match s.task victim with
  | none => s
  | some t =>
    match response with
    | 0 => s.modTask victim fun t => { t with draining := true }
    | r =>
      let s1 := s.modTask victim fun t => { t with stopping := r }
      let line := match s.domain victim with
        | some d => r == 2 && !d.exchange
        | none => true
      if line then s1.holdLine t.clusters else s1

/-- ADMISSION (10 R248) of the head of a queue. -/
def execAdmission (w pr : Nat) (s : State) : Out :=
  match s.nextVerdict with
  | none => .next s
  | some (w', p', e, v) =>
    if w' ≠ w ∨ p' ≠ pr then .next s
    else match v with
      | .wait _ => .next s
      | .refuse c =>
        let s1 := s.mgmtCairn w 10 c s.tick.toNat 0 0
        .next (s1.modQueue w pr (if c = codePlacementRefused then markRefused else dropWaiting))
      | .preempt t r _ => .next (s.preempt t r)
      | .accept vec image need restore =>
        .next (((s.launchTask w pr e vec image need restore).chargeAdmission w pr).modQueue w pr dropWaiting)

/-! ### Capture (14 R338 to R343, R346) -/

/-- Whether every cluster of a task has stopped. -/
def State.allStopped (s : State) (t : Task) : Bool := t.clusters.all (fun g => (s.cluster g).frozen || (s.cluster g).fenced)

/-- Whether a task's capture, or its kill, is due. -/
def State.captureDue (s : State) (t : Task) : Bool :=
  let streams := t.clusters.any (fun g => (s.cluster g).streaming.isSome)
  !streams && match t.stopping, s.domain t.id with
    | 0, _ => false
    | 1, some d =>
      match d.phase with
      | .col b => d.failure.isNone && decide (b < s.now)
      | _ => false
    | 2, some d =>
      s.allStopped t || (d.exchange && match d.phase with
        | .pitch => false
        | .errorPhase => false
        | _ => true)
    | _, _ => s.allStopped t

/-- A captured core: correctable errors of its words and of instruction memory are corrected on the way out, and lent banks, whose
numbers the line records give, read as zero (R340, R342). -/
def Core.captured (c : Core) : Core :=
  let c1 := c.meetAll (c.errs.map (·.1))
  { c1 with
    spad := c1.spad.filter (fun q => !c1.lentByte q.1), errs := c1.errs.filter (fun q => !c1.isLent (q.1 / 8)), fieldErrs := []
    fixes := [], imemErrs := c1.imemErrs.filter (fun q => q.2 != .correctable) }

/-- Whether an operation is still to be completed, with its bytes read, and so are those of every operation of its core issued before
it that is to leave the core (10 R236). -/
def Core.leaves (c : Core) (u : Untimed) : Bool :=
  (u.phase == .queued || u.phase == .departed || u.phase == .completed) && decide (u.reads ≤ u.data.length)
    && (u.phase != .queued || c.ctxs.all fun q => q.2.untimed.all fun v =>
      decide (u.id ≤ v.id) || v.phase != .queued || v.kind == 7 || decide (v.reads ≤ v.data.length))

/-- Whether an operation of context x goes on while the context is captured. A software cairn does where every earlier operation of
its context does, or has only its own cairn to be written (09 R228). -/
def Core.goesOn (c : Core) (x : Nat) (u : Untimed) : Bool :=
  if u.kind = 7 ∧ u.phase = .queued then
    (c.ctx x).untimed.all fun v => decide (u.id ≤ v.id) || v.kind == 7 || v.phase == .cairnDue || c.leaves v
  else c.leaves u

/-- Whether an operation stays in the image: its bytes are still to be read, or wait behind such an operation, or its bump is one of
the image's own. -/
def Core.keeps (c : Core) (x : Nat) (u : Untimed) : Bool := !c.goesOn x u && u.phase != .cairnDue

/-- The untimed operations of a cluster that meet a test, each with its context's ring. -/
def Cluster.opsWhere (g : Nat) (p : Core → Nat → Untimed → Bool) (cl : Cluster) : List (OpRef × Untimed) :=
  cl.cores.flatMap fun (k : Nat × Core) => k.2.ctxs.flatMap fun (q : Nat × Ctx) =>
    (q.2.untimed.filter (p k.2 q.1)).map (fun u => ((⟨gcore g k.1, q.1, u.id⟩ : OpRef), { u with ring := q.2.ring }))

/-- The operations that go on, as the park keeps them (R346, 10 R239), and those whose cairns are still to be written (10 R242). -/
def Cluster.parkable (g : Nat) (cl : Cluster) : List (OpRef × Untimed) := cl.opsWhere g Core.goesOn
def Cluster.cairnsDue (g : Nat) (cl : Cluster) : List (OpRef × Untimed) := cl.opsWhere g (fun _ _ u => u.phase == .cairnDue)

/-- The cluster with only the operations that stay in the image. -/
def Cluster.unparked (cl : Cluster) : Cluster :=
  { cl with cores := cl.cores.map fun (p : Nat × Core) => (p.1, { p.2 with
      ctxs := p.2.ctxs.map fun (q : Nat × Ctx) => (q.1, { q.2 with untimed := q.2.untimed.filter (p.2.keeps q.1) }) }) }

/-- The clusters of an image set as they stand at the stop cycle, with the counts of their untimed operations (10 R239); translations
are no part of it (R342). -/
def Cluster.captured (cl : Cluster) : Cluster :=
  { cl with tlb0 := [], tlb1 := [], cores := cl.cores.map (fun p => (p.1, p.2.captured)) }

/-- Whether an absorb is a response's for clusters of a list. -/
def Absorb.answers (gs : List Nat) (a : Absorb) : Bool := a.op.isSome && gs.contains a.cluster

/-- The response bytes that were accepted before a capture of clusters and are not yet written: global core, address and bytes (R346). -/
def State.unwritten (s : State) (gs : List Nat) : List (Nat × Nat × List Byte) :=
  s.pipes.flatMap fun (p : Nat × Pipe) => (p.2.absorbs.filter (Absorb.answers gs)).flatMap fun a =>
    let lines := (s.absorbQ.flatMap (·.2)).filter fun l => l.pipe == p.1 && l.absorb == a.id
    (lines.map (fun l => (l.addr, l.bytes)) ++ a.rest).map fun l => (gcore a.cluster a.core, l.1, l.2)

/-- Takes those responses out of the pipelines. -/
def State.dropAnswers (gs : List Nat) (s : State) : State :=
  let gone := fun (l : AbsorbLine) => (s.pipe l.pipe).absorbs.any fun a => a.id == l.absorb && a.answers gs
  { s with
    absorbQ := (s.absorbQ.map fun (q : Nat × List AbsorbLine) => (q.1, q.2.filter (fun l => !gone l))).filter (fun q => !q.2.isEmpty)
    pipes := s.pipes.map fun (p : Nat × Pipe) => (p.1, { p.2 with absorbs := p.2.absorbs.filter (fun a => !a.answers gs) }) }

/-- The capture of a task (R340): the image set enters the directory, the outstanding operations go to the park record, and the
cores stream out for 24,576 cycles. The domain stays stopped until then, and sends its STOP (R339). -/
def State.capture (t : Task) (s : State) : State :=
  let q := s.stopSeq + 1
  let d := s.domain t.id
  let st := match t.stopping, d with
    | 3, some d =>
      match d.phase with
      | .stopped c => c
      | _ => codeStraggler
    | _, _ => codePreempted
  let w := s.world t.world
  let conf := w.flags % 2 == 1
  let stg := (s.core (t.clusters.headD 0) 0).stg
  let i : ImageSet := {
    seq := q, kind := if d.isNone then 2 else if t.stopping = 3 then 1 else 0, world := t.world, status := st
    pcn := (d.map (·.pcn)).getD 0, dcc := (d.map (fun d => d.dccBase + (s.now - d.startCycle))).getD 0
    pitchCycles := if d.isSome ∧ t.stopping = 3 then (s.cluster (t.clusters.headD 0)).run - (s.cluster (t.clusters.headD 0)).pitchRun else 0
    digest := (s.cluster (t.clusters.headD 0)).digest
    stopTick := s.tick.toNat, stopCycle := s.now, sealedSet := conf, key := if conf then (tget {} s.assay.keys t.world).image else none
    icm := stg.getLsbD 8, rwr := stg.getLsbD 9, stepping := (stg.extractLsb' 0 8).toNat
    clusters := t.clusters.map (fun g => (g, (s.cluster g).captured)), domain := d, task := some t }
  let ops := t.clusters.flatMap (fun g => (s.cluster g).parkable g)
  let park : Park := {
    seq := q, ops := ops.map (fun o => (o.1, { o.2 with absorbing := 0 })), held := t.clusters.flatMap (fun g => (s.cluster g).cairnsDue g)
    cairns := s.cairns.filter (fun c => c.op.isSome && t.clusters.contains (c.core / 48)), responses := s.unwritten t.clusters }
  let s1 := t.clusters.foldl (fun s g => s.modCluster g fun cl =>
    { cl with frozen := true, holding := none, holds := [], streaming := some (s.now + 24576)
              cores := cl.cores.map fun (p : Nat × Core) => (p.1, { p.2 with
                ctxs := p.2.ctxs.map fun (q : Nat × Ctx) => (q.1, { q.2 with untimed := [] }) }) }) (s.dropAnswers t.clusters)
  (ops.filter (fun o => decide (0 < o.2.absorbing))).foldl (fun s o => s.settle o.1) { s1 with
    stopSeq := q, imageSets := s.imageSets ++ [i], parks := s.parks ++ [park]
    cairns := s.cairns.filter (fun c => !(c.op.isSome && t.clusters.contains (c.core / 48)))
    domains := s.domains.map fun d => if d.id = t.id then { d with phase := .stopped st } else d
    tasks := s1.tasks.map fun u => if u.id = t.id then { u with stopAt := some q } else u }

/-- The diagnostic capture of a fenced cluster by world 0 (R333): a set of kind 3, with the domain's numbers where it is part of
one. -/
def State.diagnose (g : Nat) (s : State) : State :=
  let q := s.stopSeq + 1
  let cl := s.cluster g
  let d := s.domainOf g
  let conf := (s.world cl.world).flags % 2 == 1
  let stg := (s.core g 0).stg
  let i : ImageSet := {
    seq := q, kind := 3, world := cl.world, status := cl.fenceCode, pcn := (d.map (·.pcn)).getD 0
    dcc := (d.map (fun d => d.dccBase + (s.now - d.startCycle))).getD 0, pitchCycles := if d.isSome then cl.run - cl.pitchRun else 0
    digest := cl.digest
    stopTick := s.tick.toNat, stopCycle := s.now, sealedSet := conf, key := if conf then (tget {} s.assay.keys cl.world).image else none
    icm := stg.getLsbD 8, rwr := stg.getLsbD 9, stepping := (stg.extractLsb' 0 8).toNat, clusters := [(g, cl.captured)], domain := none
    task := none }
  { s with stopSeq := q, imageSets := s.imageSets ++ [i], parks := s.parks ++ [{ seq := q }] }

/-- Clusters are released with the loader's zeroing, and the absorbs under way into them are discarded. -/
def State.releaseClusters (gs : List Nat) (s : State) : State := (gs.foldl (fun s g => s.dropAbsorbs g) s).zeroClusters gs

/-- The kill of a task (R338): nothing is captured, and its clusters are released zeroed; its copies end (11 R255), and the timetable
of a domain is unloaded (11 R270). -/
def State.killTask (t : Task) (s : State) : State :=
  let s1 := (s.dropBusy (t.clusters.flatMap (fun g => (s.cluster g).allCmds))).releaseClusters t.clusters
  let end0 := fun (u : State) => match s.domain t.id with
    | some d => u.unloadTable d.world d.image d.timetable
    | none => u
  end0 { s1 with
    tasks := s1.tasks.filter (fun u => u.id != t.id), domains := s1.domains.filter (fun d => d.id != t.id)
    cairns := s1.cairns.filter (fun c => !(c.op.isSome && t.clusters.contains (c.core / 48))) }

/-- Whether a task is a domain's, stopped at its boundary, that system software may capture or end (R332). -/
def State.atRest (s : State) (t : Task) : Bool := t.stopping == 0 && (s.domain t.id).any Domain.isStopped

/-- CAPTURE (R340) of a task that stops, or its kill; the capture or the end, by system software, of a task whose domain is stopped at
its boundary, whose cores the hold line stops first (R332); or world 0's diagnostic capture of a fenced cluster (R333). -/
def execCapture (t : CaptureInput) (s : State) : Out :=
  match t with
  | .fenced g => .next (if (s.cluster g).fenced then s.diagnose g else s)
  | .endStopped n =>
    match s.task n with
    | none => .next s
    | some k => .next (if s.atRest k then s.preempt n 2 else s)
  | .task n =>
    match s.task n with
    | none => .next s
    | some k =>
      if s.atRest k then .next ((s.holdLine k.clusters).modTask n fun t => { t with stopping := 3 })
      else if !s.captureDue k then .next s
      else if k.stopping = 2 then
        .next ((s.killTask k).mgmtCairn k.world 10 codeKilled s.tick.toNat (((s.domain n).map (fun d => d.pcn.toNat)).getD 0) 0)
      else .next (s.capture k)

/-- The task whose capture an image set came from, while its stream runs. -/
def State.streamer (s : State) (q : Nat) : Option Task := s.tasks.find? (fun t => t.stopAt == some q)

/-- World 0's system software removes a set from the directory (R341): the copies that it holds end with it, but for those that a
restore has taken up. -/
def State.discardSet (q : Nat) (s : State) : State :=
  match s.imageSet q with
  | none => s
  | some i =>
    { (if i.resumed then s else s.dropBusy (i.clusters.flatMap (fun c => c.2.allCmds))) with
      imageSets := s.imageSets.filter (fun j => j.seq != q), parks := s.parks.filter (fun p => p.seq != q) }

/-- Whether the stream of a diagnostic capture has ended. -/
def State.diagDone (s : State) (i : ImageSet) : Bool := i.kind == 3 && !i.ended && decide (i.stopCycle + 24576 ≤ s.now)

/-- The set stands whole in world 0's HBM. -/
def State.endSet (i : ImageSet) (s : State) : State :=
  { s.storeSet i with imageSets := s.imageSets.map fun j => if j.seq = i.seq then { j with ended := true } else j }

/-- CAPTURE_END (R407): the stream of set q has ended; the loader zeroes the clusters, a checkpointed task re-enters the head
of its queue (10 R248), and the cairn names the set (10 R241). A cluster that world 0 has captured for diagnosis stays fenced. Or
world 0's system software discards set q (R341). -/
def execCaptureEnd (q : SetInput) (s : State) : Out :=
  match q with
  | .discard q => .next (if (s.streamer q).isSome || s.restores.any (fun r => r.seq == q) then s else s.discardSet q)
  | .ended q =>
    match s.streamer q, s.imageSet q with
    | some t, some i =>
      let s1 := (s.endSet i).releaseClusters t.clusters
      let s2 := { s1 with tasks := s1.tasks.filter (fun u => u.id != t.id), domains := s1.domains.filter (fun d => d.id != t.id) }
      let s3 := if t.stopping = 1 then
          s2.modQueue t.world t.level (fun l => { segment := t.segment, offset := t.offset, restore := some q } :: l)
        else s2
      .next (s3.mgmtCairn t.world 10 i.status s.tick.toNat i.pcn.toNat q)
    | none, some i =>
      if s.diagDone i then .next ((s.endSet i).mgmtCairn i.world 10 i.status s.tick.toNat i.pcn.toNat q) else .next s
    | _, none => .next s

/-! ### Restore (14 R345, R346) -/

/-- A captured cluster placed on a physical one: its lent banks and its fence are the physical cluster's, commands in flight keep what
they have read and their order among the module's, holds to come stand but for the capture's, and the operations that the park has
are left to it. -/
def Cluster.restored (old : Cluster) (shift : Nat) (cl : Cluster) : Cluster :=
  let kept := cl.unparked
  { kept with
    world := old.world, fenced := false, frozen := false, streaming := none, holds := kept.holds.filter (fun h => h.kind != .capture)
    cores := (List.range 48).map fun k =>
      let c := kept.core k
      let o := old.core k
      (k, { c with
        errs := (o.errs.filter (fun q => o.isLent (q.1 / 8))).foldl (fun t q => tset .sound t q.1 q.2) c.errs
        fixes := o.fixes.filter (fun x => o.isLent x.line)
        lent := o.lent, sealCtr := if c.sealCtr < o.sealCtr then o.sealCtr else c.sealCtr, sideUsed := []
        spad := (o.spad.filter (fun q => o.lentByte q.1)).foldl (fun m q => Memory.write m q.1 q.2) c.spad
        cmds := c.cmds.map fun m => { m with order := m.order + shift * 9216 } }) }

/-- The lent banks that a cluster of a set carries from physical cluster a: core, bank and pipeline, those that are lent still and
while a is still the world's (01 R41). -/
def State.carried (s : State) (w a : Nat) (cl : Cluster) : List (Nat × Nat × Nat) :=
  if (s.cluster a).world ≠ w then []
  else (List.range 48).flatMap fun k => (List.range 32).filterMap fun b =>
    let m := tget 0 (s.core a k).lent b
    if m ≠ 0 ∧ tget 0 (cl.core k).lent b = m then some (k, b, m - 1) else none

/-- The directory entry of a pipeline that names a core's bank. -/
def State.dirEntry (s : State) (p core bank : Nat) : Option Nat :=
  ((s.pipe p).directory.find? (fun e => dirValid e.2 && dirCore e.2 == core && dirBank e.2 == bank)).map (·.1)

/-- What stands in a bank of a core, with the state of its words; and a core that takes it. -/
def Core.bankOut (c : Core) (b : Nat) : List Host.Cell × Tbl WordErr :=
  (c.spad.filter (fun q => bankOf q.1 == b), c.errs.filter (fun q => bankOfLine (q.1 / 8) == b))
def Core.bankIn (m : List Host.Cell × Tbl WordErr) (c : Core) : Core :=
  { c with
    spad := m.1.foldl (fun t q => Memory.write t q.1 q.2) c.spad
    errs := m.2.foldl (fun t q => tset .sound t q.1 q.2) c.errs }

/-- A relocated cluster's lent banks go with it (01 R41, 08 R187): every bank is taken from its old core first, then each is lent
again, with its bytes, at the same entry of the pipeline of the die that receives the cluster, whose entry names the new core
(12 R276). -/
def State.moveLent (w : Nat) (pairs : List (Nat × Nat × Cluster)) (s : State) : State :=
  let all := pairs.flatMap fun q =>
    if q.1 = q.2.1 then [] else (s.carried w q.1 q.2.2).filterMap fun c =>
      (s.dirEntry c.2.2 (gcore q.1 c.1) c.2.1).map fun n => (q, c, n, (s.core q.1 c.1).bankOut c.2.1)
  let s1 := all.foldl (fun (s : State) (m : (Nat × Nat × Cluster) × (Nat × Nat × Nat) × Nat × List Host.Cell × Tbl WordErr) =>
    (s.lendBank (gcore m.1.1 m.2.1.1) m.2.1.2.1 0).modPipe m.2.1.2.2 fun x => { x with directory := tset 0 x.directory m.2.2.1 0 }) s
  all.foldl (fun (s : State) (m : (Nat × Nat × Cluster) × (Nat × Nat × Nat) × Nat × List Host.Cell × Tbl WordErr) =>
    let p := m.1.2.1 / 8 * 3 + m.2.1.2.2 % 3
    let core := gcore m.1.2.1 m.2.1.1
    ((s.lendBank core m.2.1.2.1 (p + 1)).modPipe p fun x =>
      { x with directory := tset 0 x.directory m.2.2.1 (core + 2 ^ 16 * m.2.1.2.1 + 2 ^ 24) }).modCore m.1.2.1 m.2.1.1
        (Core.bankIn m.2.2.2)) s1

/-- Applies a park record before the release (R346), `map` giving the cluster that each has become: response bytes, cairns, and
bumps of the release cycle; operations that are still outstanding, or whose cairns are still to be written, go back to their
contexts (10 R242). -/
def State.applyPark (map : Nat → Nat) (p : Park) (s : State) : State :=
  let place := fun (n : Nat) => gcore (map (n / 48)) (n % 48)
  let s1 := p.responses.foldl (fun s r => s.modCore (map (r.1 / 48)) (r.1 % 48) fun c => (c.sideWrite r.2.1 r.2.2).1) s
  let s2 := { s1 with cairns := s1.cairns ++ p.cairns.map fun (c : CairnReq) =>
    { c with core := place c.core, op := c.op.map fun (o : OpRef) => { o with core := place o.core } } }
  let s3 := p.bumps.foldl (fun s b => s.addBump (map b.1) b.2.1 b.2.2) s2
  (p.held ++ p.ops).foldl (fun s q => s.modCtx (map (q.1.core / 48)) (q.1.core % 48) q.1.ctx fun c =>
    { c with untimed := c.untimed ++ [q.2] }) s3

/-- A cluster in the stepping mode that a set's header gives, bit 0 ICM and bit 1 RWR (R344), with the sections of an image. -/
def Cluster.inMode (mode handle : Nat) (cl : Cluster) : Cluster :=
  { cl with
    image := some handle
    cores := cl.cores.map fun p => (p.1, { p.2 with stg := (p.2.stg &&& 0xFF) ||| BitVec.ofNat 32 (256 * mode) }) }

/-- Notes that a set's commands run again; those of a set that has been restored before raise the busy counts of their segments anew
(11 R255). -/
def State.resumeSet (i : ImageSet) (s : State) : State :=
  let again := if i.resumed then (i.clusters.flatMap (fun c => c.2.allCmds)).filter (fun c => hbmKinds.contains c.kind && !c.failed) else []
  let s1 := again.foldl (fun s c => s.addBusy c.world c.seg true) s
  { s1 with imageSets := s1.imageSets.map fun j => if j.seq = i.seq then { j with resumed := true } else j }

/-- RESTORE_RELEASE (R345): the records have streamed back; the clusters are released on the next running cycle. A domain
captured in its col begins its col again; one captured in mid-pitch goes on, with its straggler timer at 0. -/
def execRestoreRelease (q : Nat) (s : State) : Out :=
  match s.restores.find? (fun r => r.seq == q), s.imageSet q with
  | some r, some i =>
    match s.tasks.find? (fun t => t.clusters == r.clusters) with
    | none => .next { s with restores := s.restores.filter (fun x => x.seq != q) }
    | some t =>
      let map := fun (g : Nat) => (((r.clusters.zip i.clusters).find? (fun p => p.2.1 == g)).map (·.1)).getD g
      let mode := ((s.readSet q 4).map (fun h => bits (field h 7 1) 1 0)).getD 0
      let handle := (((s.readSet q 4).bind (s.heldImage t.world)).map (·.handle)).getD t.image
      let s0 := s.moveLent t.world ((r.clusters.zip i.clusters).map fun p => (p.2.1, p.1, p.2.2))
      let s1 := (r.clusters.zip i.clusters).foldl (fun s p =>
        s.modCluster p.1 fun old => (old.restored (s.now - i.stopCycle) p.2.2).inMode mode handle) (s0.resumeSet i)
      let s2 := match s.park q with
        | some p => { s1.applyPark map p with parks := s1.parks.filter (fun p => p.seq != q) }
        | none => s1
      let s3 := { s2 with restores := s2.restores.filter (fun x => x.seq != q) }
      match i.domain with
      | none => .next s3
      | some d =>
        let d1 := { d with
          id := t.id, clusters := r.clusters, dccBase := i.dcc, startCycle := s.now, timerBase := s.now + 1
          image := t.image, share := t.share
          phase := if i.kind = 0 then .col s.now else .pitch, readyAt := s.now + 16, delayed := [], go := none, stop := none
          fatal := none, neighbours := d.neighbours.map fun n => { n with ready := false, replay := false, losses := 0 } }
        .next { s3 with domains := s3.domains ++ [d1] }
  | _, _ => .next { s with restores := s.restores.filter (fun x => x.seq != q) }

/-! ### Shootdowns and page-table changes (11 R254, 17 R385) -/

/-- Whether a translation lies in a virtual range of 64 KiB pages. -/
def Translation.inRange (t : Translation) (w first n : Nat) : Bool :=
  let lo := if t.large then t.page * 512 else t.page
  let len := if t.large then 512 else 1
  t.world == w && decide (lo < first + n) && decide (first < lo + len)

/-- A shootdown (R254): unpinned entries of the range go, and pitons turn stale until their domain's boundary. -/
def State.shootDown (w first n : Nat) (s : State) : State :=
  let f := fun (b : List Translation) =>
    (b.filter (fun t => t.pinned || !t.inRange w first n)).map (fun t => if t.inRange w first n then { t with stale := true } else t)
  { s with
    clusters := s.clusters.map (fun p => (p.1, { p.2 with tlb0 := f p.2.tlb0, tlb1 := f p.2.tlb1 }))
    shootdowns := s.shootdowns ++ [{ world := w, firstPage := first, pages := n, due := s.now + 64 }] }

/-- Whether every engine has invalidated the range of a shootdown. -/
def State.shotDown (s : State) (x : Shootdown) : Bool :=
  decide (x.due ≤ s.now) && s.clusters.all fun p =>
    (p.2.tlb0 ++ p.2.tlb1).all (fun t => !(t.stale && t.inRange x.world x.firstPage x.pages))

/-- Answers the shootdowns that are complete, each with its DONE cairn on world 0's management ring. -/
def State.answerShootdowns (s : State) : State :=
  let s1 := (s.shootdowns.filter s.shotDown).foldl (fun s x => s.mgmtCairnOn 0 x.world 10 codeDone s.tick.toNat 0 0) s
  { s1 with shootdowns := s1.shootdowns.filter (fun x => !s.shotDown x) }

/-- SHOOTW (R385): the shootdown of a world's range in SHOOTVA and SHOOTLEN. -/
def execShootw (v : Word) (s : State) : Out :=
  let f := s.func 0
  let va := f.shootVa.toNat
  let n := f.shootLen.toNat
  if 17 ≤ v.toNat ∨ va % 65536 ≠ 0 ∨ n = 0 ∨ 2 ^ 36 < n then .next (s.mgmtCairnOn 0 (v.toNat % 32) 10 codeOperandIllegal s.tick.toNat 0 0)
  else .next (s.shootDown v.toNat (va / 65536) n)

/-- PTCHG (R385): the delayed prepass walks of a world are retried, and its blocked trigger-mode walks. -/
def execPtchg (fn : Nat) (v : Word) (s : State) : Out :=
  if 17 ≤ fn then .fault .noSuchInput
  else
    let w := if fn = 0 then bits v.toNat 4 0 else fn
    let s1 := s.retryWalks w
    .next { s1 with clusters := s1.clusters.map fun p =>
      (p.1, if p.2.world = w ∧ p.2.trigger = true then { p.2 with rewalk := true } else p.2) }

/-! ### Migrations and rekeys (11 R256, R257, R269) -/

/-- The copy of one line of a migration; none when the read is poisoned or fails integrity. -/
def State.migrateLine (w src dst : Nat) (ps pd : Bool) (s : State) : Option State :=
  let x := s.readHbm s.hbm w src ps
  if x.poison ≠ 0 then none else some (s.writeHbm w dst pd x)

/-- The copy of a segment's pages from `old` to `new`: the lines copied, whether all were, and the module after it. A destination
page that may not be written ends it (R251). -/
def State.migrateAll (w old new pages : Nat) (s : State) : Nat × Bool × State :=
  (List.range pages).foldl (fun acc q =>
    if acc.2.1 = false then acc
    else match acc.2.2.walk w ((old + q) * 65536), acc.2.2.walk w ((new + q) * 65536) with
      | some a, some b =>
        if b.write = false then (acc.1, false, acc.2.2) else
        let fa := (a.translation w ((old + q) * 65536)).frame ((old + q) * 65536)
        let fb := (b.translation w ((new + q) * 65536)).frame ((new + q) * 65536)
        (List.range pageLines).foldl (fun acc i =>
          if acc.2.1 = false then acc
          else match acc.2.2.migrateLine w (fa * pageLines + i) (fb * pageLines + i) a.prot b.prot with
            | some s => (acc.1 + 1, true, s)
            | none => (acc.1, false, acc.2.2)) acc
      | _, _ => (acc.1, false, acc.2.2)) (0, true, s)

/-- Clears V in the level-3 entries of the pages of a range, and in the level-2 entries that map large pages there (R257). -/
def State.unmapRange (w first pages : Nat) (s : State) : State :=
  (List.range pages).foldl (fun s q =>
    match (if 2 ^ 36 ≤ first + q then none else s.leafEntry 4 ((s.world w).pageRoot * 4096) ((first + q) * 65536)) with
    | some a => s.pokeHbm a (leBytes 1 (s.phys a 1 / 2 * 2))
    | none => s) s

/-- Whether the migration at the head may take its segment: in timetable use, its world's domains are in the first col since the
request; and no request uses it (R256). -/
def State.migrationReady (s : State) : Bool :=
  match s.migrations with
  | [] => false
  | m :: _ =>
    let x := s.segment m.req.world m.req.segment
    m.held || ((!x.tt || s.domains.all (fun d => d.world != m.req.world || m.reaches d)) && x.busy == 0)

/-- After a migration of a segment that ended in a col whose prepass had been made, the pages of the segment that were walked are
walked again where they now lie; the pitons of the old range have gone, and a walk that failed is not tried again (R253, R254). -/
def State.prepassAgain (w sg old pages : Nat) (s : State) : State :=
  s.domains.foldl (fun s d =>
    if d.world = w ∧ s.pastPrepass d = true ∧ d.nextPcn.toNat % 2 = 1 then
      let drop := fun (b : List Translation) => b.filter (fun t => !(t.stale && t.inRange w old pages))
      let s1 := d.clusters.foldl (fun s g => s.modCluster g fun cl => { cl with tlb0 := drop cl.tlb0, tlb1 := drop cl.tlb1 }) s
      let l := (s1.prepassList d d.nextPcn.toNat).filter (fun q => q.2.1 == sg && !d.delayed.contains q)
      (s1.prepassWalks d.id w l).modDomain d.id fun d => { d with readyAt := Nat.max d.readyAt (s.now + 1) }
    else s) s

/-- MIGRATION (R256, R257): a request joins the engine's order; the request at its head takes its segment, then copies it. -/
def execMigration (mq : MigrationInput) (s : State) : Out :=
  match mq with
  | .request q => .next { s with migrations := s.migrations ++ [{ req := q, asked := s.now }] }
  | .proceed =>
    match s.migrations with
    | [] => .next s
    | m :: rest =>
      let w := m.req.world
      let sg := m.req.segment
      if !s.migrationReady then .next s
      else if m.held = false then .next { s.setSegState w sg 2 with migrations := { m with held := true } :: rest }
      else
        let x := s.segment w sg
        let r := s.migrateAll w x.vbase m.req.newVbase x.limit
        let s1 := { r.2.2 with migrations := rest }
        if r.2.1 then
          let s2 := (s1.setVbase w sg m.req.newVbase).setSegState w sg 1
          .next (((s2.shootDown w x.vbase x.limit).prepassAgain w sg x.vbase x.limit).mgmtCairn w 9 codeDone s.tick.toNat r.1 0)
        else
          let s2 := (s1.setSegState w sg 1).unmapRange w m.req.newVbase x.limit
          .next ((s2.shootDown w m.req.newVbase x.limit).mgmtCairn w 9 codeMigrationAbort s.tick.toNat r.1 0)

/-- REKEY (R269). -/
def execRekey (n : Nat) (s : State) : Out := if s.rekeys.contains n then .next (s.rekeyNode n) else .next s

/-! ### The end of a trigger-mode task (13 R406) -/

/-- Whether a trigger-mode task has ended. -/
def State.taskOver (s : State) (t : Task) : Bool :=
  !t.timetable && t.stopping == 0 && t.clusters.all fun g =>
    let cl := s.cluster g
    cl.fenced || (!cl.frozen && cl.idle && cl.triggers.all (fun e => e.2.flags % 2 == 0 && e.2.pending == 0)
      && cl.cores.all (fun p => p.2.wbuf.isEmpty && p.2.ctxs.all (fun q => q.2.untimed.isEmpty))
      && cl.bumps.isEmpty && s.cairns.all (fun c => c.op.isNone || c.core / 48 != g))

/-- TRIGGER_TASK_END (R406). -/
def execTriggerTaskEnd (t : Nat) (s : State) : Out :=
  match s.task t with
  | none => .next s
  | some k =>
    if !s.taskOver k then .next s
    else .next { s.mgmtCairn k.world 10 codeDone s.tick.toNat 0 0 with tasks := s.tasks.filter (fun u => u.id != t) }

end Sys2Proof.Machine
end

