-- ==== Sys2Proof/Machine/Rewriter.lean ====
section
/-! DEFINITION. The load-time rewriter of A1 images (03 R84, R86): the registers that each slot reads and writes, the paths of
program order, and the least offsets that keep what every read sees. -/

namespace Sys2Proof.Machine

/-! ### What a slot reads and writes (04 R102, R103)

A register is named by one number: s0 to s31 from 0, c0 to c15 from 32, p0 to p15 from 48, v0 to v31 from 64, the special
registers from 96, accumulator banks from 128, tile status entries from 132, ring descriptors from 144 and shape records from
152. A use names the 32-bit lanes it touches as a bit mask. -/

/-- A register and the lanes of it that a slot reads. -/
abbrev RegUse := Nat × Nat

/-- A write: its register and lanes, its latency on A1 and on B0, and whether it ORs into the register (FST, 02 R49). -/
structure RegDef where
  use : RegUse
  latA : Nat
  latB : Nat
  ors : Bool := false
  deriving DecidableEq, Repr

/-- The fields of R67 as numbers. -/
def fldD (w : Word) : Nat := bits w.toNat 18 14
def fldA (w : Word) : Nat := bits w.toNat 13 9
def fldB (w : Word) : Nat := bits w.toNat 8 4
def fldF (w : Word) : Nat := bits w.toNat 3 0

/-- Uses of one register of each kind; s0 and p0 are constants (04 R88). -/
def useS (n : Nat) : List RegUse := if n = 0 then [] else [(n, 1)]
def useC (n : Nat) : List RegUse := [(32 + n % 16, 1)]
def useP (n : Nat) : List RegUse := if n % 16 = 0 then [] else [(48 + n % 16, 1)]
def useV (n m : Nat) : List RegUse := [(64 + n, m)]
def useFmd : List RegUse := [(101, 1)]

/-- `n` lanes from lane `k`. -/
def laneMask (k n : Nat) : Nat := (2 ^ n - 1) * 2 ^ k

/-- The lanes of a part by its W and H codes (R68). -/
def partLanes (w h : Nat) : Nat := let n := 8 * 2 ^ (w % 3); laneMask (n * h) n
def vPart (x : Word) : Nat := partLanes (bits x.toNat 3 2) (bits x.toNat 1 0)
def mPart (x : Word) : Nat := partLanes (bits x.toNat 8 7) (bits x.toNat 6 5)

/-- The bottom `1/k` of the part, which a widening conversion reads (06 R147, R148). -/
def lowPart (x : Word) (k : Nat) : Nat :=
  let n := 8 * 2 ^ (bits x.toNat 3 2 % 3)
  laneMask (n * bits x.toNat 1 0) (n / k)

/-- Opcodes whose result depends on FMD (02 R48), and opcodes that set flags of FST (02 R49). -/
def readsFmd (o : Nat) : Bool :=
  decide (0x80 ≤ o) && decide (o ≤ 0x86) || decide (0x8C ≤ o) && decide (o ≤ 0x90)
    || decide (0xCB ≤ o) && decide (o ≤ 0xD4) || [0x56, 0xB1, 0xB4, 0xBA, 0xD6].contains o
def writesFst (o : Nat) : Bool :=
  decide (0x80 ≤ o) && decide (o ≤ 0x88) || decide (0x8B ≤ o) && decide (o ≤ 0x90)
    || decide (0xC0 ≤ o) && decide (o ≤ 0xC5) || decide (0xCB ≤ o) && decide (o ≤ 0xD7)
    || [0x56, 0x9A, 0x9E, 0x9F, 0xB1, 0xB2, 0xB4, 0xBA].contains o

/-- What the vector group reads (06 R130). -/
def vectorReads (x : Word) (o : Nat) : List RegUse :=
  let m := vPart x
  let d := useV (fldD x) m
  let a := useV (fldA x) m
  let b := useV (fldB x) m
  if [0x83, 0x84, 0x8E, 0xAB, 0xB4].contains o then d ++ a ++ b
  else if 0xA4 ≤ o ∧ o ≤ 0xA7 then d ++ b
  else if 0xA8 ≤ o ∧ o ≤ 0xAA then d
  else if [0xAD, 0xAF, 0xB0].contains o then useS (fldA x)
  else if o = 0xAE then useV (fldA x) (m &&& laneMask (8 * 2 ^ (bits x.toNat 3 2 % 3) * bits x.toNat 1 0 + fldB x) 1)
  else if [0x89, 0x8A, 0xAC, 0xB1, 0xB2, 0xB3, 0xB6, 0xB7, 0xB8, 0xB9, 0xDB].contains o || decide (0xC0 ≤ o) && decide (o ≤ 0xC5) then a
  else if o = 0xC6 then useV (2 * bits x.toNat 13 10) (laneMask 0 32) ++ useV (2 * bits x.toNat 13 10 + 1) (laneMask 0 32)
  else if o = 0xC8 then a ++ useS (fldB x)
  else if [0xCC, 0xD4].contains o then useV (fldA x) (lowPart x 2)
  else if [0xD0, 0xD2].contains o then useV (fldA x) (lowPart x 4)
  else if 0xCB ≤ o ∧ o ≤ 0xD4 ∨ o = 0xD8 then a
  else if o = 0xD5 ∨ o = 0xD6 then useV (fldA x) (laneMask 0 32)
  else if o = 0xD7 then useV (fldA x) (laneMask 0 8 + laneMask 30 1)
  else if o = 0xD9 then useV (fldA x) (lowPart x (if 4 ≤ fldB x then 4 else 2))
  else a ++ b

/-- The registers that a slot reads at its issue, its guard apart. -/
def slotReads (x : Word) : List RegUse :=
  let o := (opcodeOf x).toNat
  let sd := useS (fldD x)
  let sa := useS (fldA x)
  let sb := useS (fldB x)
  let ca := useC (fldA x)
  let fmd := if readsFmd o then useFmd else []
  fmd ++ (
    if [0x01, 0x03, 0x04, 0x05, 0x06, 0x07, 0x09, 0x0B, 0x0D, 0x0F, 0x11, 0x13, 0x15, 0x16, 0x17, 0x18, 0x25, 0x27].contains o
    then sa ++ sb
    else if 0x01 ≤ o ∧ o ≤ 0x1F ∨ [0x24, 0x26, 0x2B, 0x30, 0x33].contains o then sa
    else if o = 0x21 then sd
    else if o = 0x22 then (if fldF x = 0 then sa else if fldF x = 1 then ca else (List.range 15).flatMap (fun i => useP (i + 1)))
    else if o = 0x23 then (if fldA x = 8 then [] else [(96 + fldA x, 1)])
    else if 0x28 ≤ o ∧ o ≤ 0x2A then useP (fldA x) ++ useP (fldB x)
    else if o = 0x2C then ca ++ (if fldF x = 0 then useC (fldB x) else sb)
    else if o = 0x2D then ca
    else if o = 0x2F then (if fldF x = 0 then sa else ca)
    else if o = 0x34 then sd ++ sa
    else if o = 0x36 then useP (fldF x) ++ sa ++ sb
    else if o = 0x37 then (if fldF x = 0 then sa ++ sb else ca ++ useC (fldB x))
    else if 0x40 ≤ o ∧ o ≤ 0x44 ∨ [0x48, 0x4A, 0x58, 0x59, 0x5B].contains o then ca
    else if 0x45 ≤ o ∧ o ≤ 0x47 ∨ o = 0x57 then sd ++ ca
    else if o = 0x49 then sd ++ useS (fldD x + 1) ++ ca
    else if o = 0x4B then useV (fldD x) (mPart x) ++ ca
    else if o = 0x4C ∨ o = 0x4D then sa ++ sb
    else if 0x4E ≤ o ∧ o ≤ 0x50 then
      (List.range 8).flatMap (fun i => if fldB x + i < 16 then useC (fldB x + i) else [])
        ++ [(152 + bits x.toNat 12 9, 1)] ++ (if o = 0x4F then useV (fldD x) (vPart x) else [])
    else if 0x51 ≤ o ∧ o ≤ 0x56 then sa ++ sb ++ (if o = 0x55 then sd else [])
    else if o = 0x64 then [(128 + bits x.toNat 5 5, 1)]
    else if o = 0x66 then ca ++ [(132 + bits x.toNat 17 14, 1)]
    else if o = 0x67 then sa ++ sb
    else if o = 0x68 ∨ o = 0x69 then [(144 + bits x.toNat 16 14, 1)]
    else if 0x71 ≤ o ∧ o ≤ 0x75 ∨ [0x7A, 0x7D, 0xF2].contains o then sa
    else if [0x78, 0x7B, 0x7C, 0xF6, 0xF7].contains o then sa ++ sb
    else if 0x80 ≤ o ∧ o ≤ 0xDB then vectorReads x o
    else [])

/-- The latency of the vector group (04 R102). -/
def vectorLat (o : Nat) : Nat :=
  if o ≤ 0x90 then 5 else if 0xB1 ≤ o ∧ o ≤ 0xB4 then 6 else if o ≤ 0xBB then 3 else if o ≤ 0xC5 then 8
  else if o ≤ 0xD4 then 4 else if o ≤ 0xD6 then 6 else if o ≤ 0xD9 then 4 else 6

/-- Writes of one latency on both steppings, and of the scratchpad load latency. -/
def defs (l : Nat) (us : List RegUse) : List RegDef := us.map (fun u => ⟨u, l, l, false⟩)
def loadDefs (us : List RegUse) : List RegDef := us.map (fun u => ⟨u, 4, 6, false⟩)

/-- The registers that a slot writes. -/
def slotWrites (x : Word) : List RegDef :=
  let o := (opcodeOf x).toNat
  let sd := useS (fldD x)
  let pd := useP (fldD x) ++ (if x.getLsbD 3 then useP (fldD x + 1) else [])
  let fst := if writesFst o then
      [(⟨(100, 1), if o = 0x56 then 4 else vectorLat o, if o = 0x56 then 6 else vectorLat o, true⟩ : RegDef)] else []
  fst ++ (
    if 0x04 ≤ o ∧ o ≤ 0x06 then defs 3 sd
    else if 0x01 ≤ o ∧ o ≤ 0x23 ∨ o = 0x32 ∨ o = 0x36 then defs 1 sd
    else if o = 0x24 then defs 1 [(96 + fldD x, 1)]
    else if o = 0x25 ∨ o = 0x27 then defs 1 pd
    else if o = 0x26 ∨ 0x28 ≤ o ∧ o ≤ 0x2A then defs 1 (useP (fldD x))
    else if o = 0x2B then defs 1 (if fldF x = 0 then useP (fldD x) else (List.range 15).flatMap (fun i => useP (i + 1)))
    else if 0x2C ≤ o ∧ o ≤ 0x2F then defs 1 (useC (fldD x))
    else if 0x40 ≤ o ∧ o ≤ 0x44 ∨ o = 0x4C ∨ 0x51 ≤ o ∧ o ≤ 0x56 ∨ o = 0x58 ∨ o = 0x59 then loadDefs sd
    else if o = 0x48 then loadDefs (sd ++ useS (fldD x + 1))
    else if o = 0x4A then loadDefs (useV (fldD x) (mPart x))
    else if o = 0x4D ∨ o = 0x4E ∨ o = 0x50 then loadDefs (useV (fldD x) (vPart x))
    else if o = 0x64 then defs 4 (useV (fldD x) (laneMask 0 32))
    else if o = 0x65 then defs 1 [(128 + bits x.toNat 0 0, 1), (132 + bits x.toNat 0 0, 1)]
    else if o = 0x66 then (if x.getLsbD 18 then defs 1 [(132 + bits x.toNat 17 14, 1)] else [])
    else if 0x67 ≤ o ∧ o ≤ 0x69 then defs 1 [(144 + bits x.toNat 16 14, 1)]
    else if o = 0x7B then defs 24 sd
    else if o = 0x7D then defs 6 [(152 + bits x.toNat 17 14, 1)]
    else if o = 0xF2 then defs 3 sd
    else if o = 0xF7 then (if bits x.toNat 1 0 ≤ 1 then defs 3 sd else [])
    else if o = 0xAE ∨ o = 0xB9 then defs 3 sd
    else if o = 0xAF then defs 3 (useV (fldD x) (laneMask (8 * 2 ^ (bits x.toNat 3 2 % 3) * bits x.toNat 1 0 + fldB x) 1))
    else if o = 0xB8 then defs 3 (useP (fldD x) ++ (if x.getLsbD 7 then useP (fldD x + 1) else []))
    else if o = 0xBB then []
    else if o = 0xD5 ∨ o = 0xD6 then defs 6 (useV (fldD x) (laneMask 0 32)) ++ [⟨(142, 1), 12, 12, true⟩]
    else if o = 0xC6 ∨ o = 0xD7 then defs 4 (useV (fldD x) (laneMask 0 32))
    else if 0x80 ≤ o ∧ o ≤ 0xDB then defs (vectorLat o) (useV (fldD x) (vPart x))
    else [])

/-- Whether a slot accesses the scratchpad, so that its order with each of the lines that an SPLD reads, one on each of up to 64
cycles (09 R230), must be kept. -/
def nearSpld (x : Word) : Bool :=
  let o := (opcodeOf x).toNat
  decide (0x40 ≤ o) && decide (o ≤ 0x5B) || [0x66, 0x7C, 0x7D].contains o

/-! ### Code sections -/

/-- A bundle of a code section: where it stands in the section, its address and the one after it, and its number among the bundles of
the image's code sections, in the order in which they take their offsets. -/
structure RwBundle where
  start : Nat
  addr : Nat
  next : Nat
  head : Word
  slots : List (Nat × Word)
  id : Nat := 0
  deriving DecidableEq, Repr

/-- A code section of an image: the cluster and the cores that hold it, and its plaintext (an 8-byte prefix that begins with its
address, and its bundles). -/
structure CodePart where
  cluster : Nat
  first : Nat
  last : Nat
  plain : List Byte
  deriving DecidableEq, Repr

/-- The opcodes whose sections do not qualify (R86). -/
def disqualifies (x : Word) : Bool :=
  let o := (opcodeOf x).toNat
  decide (0x60 ≤ o) && decide (o ≤ 0x63) || decide (0x6A ≤ o) && decide (o ≤ 0x70)
    || [0x76, 0x77, 0xF4, 0xF5].contains o

/-- The bundles of a code section in program order. Zero words are the padding of `.align`; anything else that is no bundle of
three to seven slots, an elastic bundle, or an operation of the list does not qualify. -/
def codeBundles (base : Nat) (bs : List Byte) : Nat → Nat → Option (List RwBundle)
  | 0, _ => some []
  | fuel + 1, o =>
    if bs.length < o + 4 then (if o = bs.length then some [] else none)
    else
      let h : Word := BitVec.ofNat 32 (field bs o 4)
      if h = 0 then codeBundles base bs fuel (o + 4)
      else
        let ps := (List.range 8).filter (fun p => h.getLsbD (31 - p))
        let next := o + 4 + 4 * ps.length
        let ws := (List.range ps.length).map (fun i => (BitVec.ofNat 32 (field bs (o + 4 + 4 * i) 4) : Word))
        if ps.length < 3 ∨ 7 < ps.length ∨ bs.length < next ∨ h.getLsbD 23 = true ∨ ws.any disqualifies = true then none
        else (codeBundles base bs fuel next).map fun t =>
          { start := o, addr := base + o, next := base + next, head := h, slots := ps.zip ws } :: t

/-- The A1 offset of a bundle; whether its guard is constant true or constant false. -/
def RwBundle.ofs (b : RwBundle) : Nat := bits b.head.toNat 22 8
def RwBundle.always (b : RwBundle) : Bool := bits b.head.toNat 7 4 == 0 && !b.head.getLsbD 3
def RwBundle.never (b : RwBundle) : Bool := bits b.head.toNat 7 4 == 0 && b.head.getLsbD 3

/-- Whether a bundle holds one of the opcodes, and whether it runs it whatever the guards. -/
def RwBundle.holds (b : RwBundle) (os : List Nat) : Bool :=
  !b.never && b.slots.any (fun q => os.contains (opcodeOf q.2).toNat)
def RwBundle.surely (b : RwBundle) (os : List Nat) : Bool :=
  b.always && b.slots.any (fun q => os.contains (opcodeOf q.2).toNat && guardOf q.2 == 0)

/-- Transfers, those of them that are taken whenever their guards hold, MARK, and the ends of a path. -/
def transferOps : List Nat := [0x30, 0x31, 0x32, 0x33, 0x34]
def jumpOps : List Nat := [0x30, 0x31, 0x32, 0x33]
def markOps : List Nat := [0x35]
def endOps : List Nat := [0xF1, 0xF3]

/-- The program of a core, the bundles of all the code sections that it holds in ascending address, with the offsets that the bundles of
the image have so far been given, by their numbers. -/
structure Layout where
  bs : List RwBundle
  new : List Nat
  deriving Repr

def Layout.b (l : Layout) (i : Nat) : RwBundle := l.bs.getD i ⟨0, 0, 0, 0, [], 0⟩
def Layout.oldOfs (l : Layout) (i : Nat) : Nat := (l.b i).ofs
def Layout.newOfs (l : Layout) (i : Nat) : Nat := l.new.getD (l.b i).id 0
/-- Whether bundle i has its offset, and whether the next bundle follows it without padding. -/
def Layout.placed (l : Layout) (i : Nat) : Bool := decide (i < l.bs.length) && decide ((l.b i).id < l.new.length)
def Layout.adj (l : Layout) (i : Nat) : Bool := decide (i + 1 < l.bs.length) && (l.b (i + 1)).addr == (l.b i).next

/-- Whether bundle j lies in the shadow of bundle i's transfer under the given offsets (01 R27). -/
def Layout.shadow (l : Layout) (ofs : Nat → Nat) (i j : Nat) : Bool :=
  let near := fun k => decide (ofs i < ofs k) && decide (ofs k ≤ ofs i + 2)
  l.adj i && near (i + 1) &&
    (j == i + 1 || (j == i + 2 && l.adj (i + 1) && near (i + 2) && !(l.b (i + 1)).surely markOps))

/-- The index of the bundle at an address. -/
def Layout.find (l : Layout) (a : Nat) : List Nat :=
  (List.range l.bs.length).filter (fun i => (l.b i).addr == a)

/-- The link of a CALL (05 R120). -/
def Layout.link (l : Layout) (i : Nat) : Nat :=
  if l.shadow l.oldOfs i (i + 1) then (if l.shadow l.oldOfs i (i + 2) then i + 3 else i + 2) else i + 1

/-- The bundles that a bundle's transfer can reach: a direct target, any bundle for BR, and the link of every CALL for RET. -/
def Layout.targets (l : Layout) (i : Nat) : List Nat :=
  (l.b i).slots.flatMap fun q =>
    let o := (opcodeOf q.2).toNat
    let rel := fun (n : Nat) (d : Int) =>
      l.find ((((l.b i).addr : Int) + 4 * (if 2 ^ (n - 1) ≤ d then d - 2 ^ n else d)).toNat / 4 % 2 ^ 15 * 4)
    if o = 0x31 ∨ o = 0x32 then rel 14 (bits q.2.toNat 13 0)
    else if o = 0x34 then rel 9 (bits q.2.toNat 8 0)
    else if o = 0x30 then List.range l.bs.length
    else if o = 0x33 then ((List.range l.bs.length).filter (fun j => (l.b j).holds [0x32])).map l.link
    else []

/-! ### Paths -/

/-- A write in flight on a path, with the cycles left to its landing and since its issue on A1 and on B0, or an SPLD. -/
structure Flying where
  use : RegUse
  a : Int
  b : Int
  ia : Int
  ib : Int
  pos : Nat
  guarded : Bool
  ors : Bool
  spld : Bool
  deriving DecidableEq, Repr

/-- Whether one write takes precedence over another (04 R101). -/
def laterBy (x y : Int × Int × Nat) : Bool :=
  decide (y.1 < x.1) || x.1 == y.1 && (decide (y.2.1 < x.2.1) || x.2.1 == y.2.1 && decide (y.2.2 < x.2.2))
def Flying.laterA (f g : Flying) : Bool := laterBy (f.a, f.ia, f.pos) (g.a, g.ia, g.pos)
def Flying.laterB (f g : Flying) : Bool := laterBy (f.b, f.ib, f.pos) (g.b, g.ib, g.pos)

def Flying.meets (f : Flying) (u : RegUse) : Bool := !f.spld && f.use.1 == u.1 && f.use.2 &&& u.2 != 0

/-- What a read sees of some writes: the write in force, and the flags ORed in after it. -/
def seen (landed : Flying → Bool) (later : Flying → Flying → Bool) (xs : List (Nat × Flying)) : Option Nat × List Nat :=
  let v := xs.filter (fun p => landed p.2)
  let top := (v.filter (fun p => !p.2.ors)).foldl (fun (m : Option (Nat × Flying)) p =>
    match m with
    | none => some p
    | some q => if later p.2 q.2 then some p else m) none
  (top.map (·.1), (v.filter (fun p => p.2.ors && match top with
    | none => true
    | some q => later p.2 q.2)).map (·.1))

/-- Whether a read of one lane sees the same on both steppings, whichever of the guarded writes are made. -/
def sameLane (xs : List Flying) : Bool :=
  let ys := (List.range xs.length).zip xs
  let gs := (ys.filter (fun p => p.2.guarded)).map (·.1)
  let same := fun (g h : Nat) =>
    let zs := ys.filter (fun p => !p.2.guarded || p.1 == g || p.1 == h)
    seen (fun f => decide (f.a ≤ 0)) Flying.laterA zs == seen (fun f => decide (f.b ≤ 0)) Flying.laterB zs
  same xs.length xs.length && gs.all (fun g => gs.all (fun h => same g h))

/-- Whether a read sees the same write in every bit that it reads. -/
def sameRead (fl : List Flying) (u : RegUse) : Bool :=
  let xs := fl.filter (fun f => f.meets u)
  xs.isEmpty || (List.range 32).all (fun k =>
    !u.2.testBit k || sameLane (xs.filter (fun f => f.use.2.testBit k)))

/-- Time passes: what both steppings have settled alike, or overwritten, no longer matters, and landed writes keep only their
order. -/
def settled (fl : List Flying) : List Flying :=
  let done := fun (f : Flying) => decide (f.a ≤ 0) && decide (f.b ≤ 0)
  let drop := fun (ys : List Flying) (f : Flying) =>
    if f.spld then decide (f.ia < -66) && decide (f.ib < -66)
    else done f && (
      ys.any (fun g => g.use.1 == f.use.1 && !g.spld && done g && !g.guarded && !g.ors && f.use.2 &&& g.use.2 == f.use.2
        && g.laterA f && g.laterB f)
      || ys.all (fun g => g == f || !g.meets f.use || (g.laterA f && g.laterB f)))
  let ys := fl.foldl (fun ys f => if drop ys f then ys.filter (fun g => g != f) else ys) fl
  ys.map fun f =>
    let rank := fun (later : Flying → Flying → Bool) (landed : Flying → Bool) =>
      ((ys.filter (fun g => g.meets f.use && landed g && later g f)).length : Int)
    let f1 := if !f.spld && decide (f.a ≤ 0) then { f with a := -rank Flying.laterA (fun g => decide (g.a ≤ 0)), ia := 0 } else f
    if !f.spld && decide (f.b ≤ 0) then { f1 with b := -rank Flying.laterB (fun g => decide (g.b ≤ 0)), ib := 0 } else f1

def shifted (da db : Int) (fl : List Flying) : List Flying :=
  settled (fl.map fun f => { f with a := f.a - da, b := f.b - db, ia := f.ia - da, ib := f.ib - db })

/-- A place on a path: a bundle that issues now, the writes in flight, and the taken transfer in whose shadow it lies. -/
structure PathNode where
  i : Nat
  fl : List Flying
  tr : Option Nat
  deriving DecidableEq, Repr

/-- Whether every read of the bundle sees the same writes on both steppings, and SPLD distances are kept. -/
def Layout.readsKept (l : Layout) (n : PathNode) : Bool :=
  let b := l.b n.i
  (useP (bits b.head.toNat 7 4)).all (sameRead n.fl) && (b.never || b.slots.all fun q =>
    (useP (guardOf q.2).toNat ++ slotReads q.2).all (sameRead n.fl)
      && (!nearSpld q.2 || n.fl.all (fun f => !f.spld || f.ia == f.ib || decide (f.ia < -66) && decide (f.ib < -66))))

/-- The writes in flight once the bundle has issued. -/
def Layout.issued (l : Layout) (n : PathNode) : List Flying :=
  let b := l.b n.i
  if b.never then n.fl
  else n.fl ++ b.slots.flatMap fun q =>
    let g := !b.always || guardOf q.2 != 0
    (slotWrites q.2).map (fun d => ⟨d.use, d.latA, d.latB, 0, 0, q.1, g, d.ors, false⟩)
      ++ (if (opcodeOf q.2).toNat = 0x7C then [⟨(0, 0), 0, 0, 0, 0, q.1, g, false, true⟩] else [])

/-- The bundles of a transfer's shadow that have no place yet. -/
def Layout.unplaced (l : Layout) (src : Nat) : List Nat :=
  [src + 1, src + 2].filter fun j => !l.placed j && l.shadow l.oldOfs src j

/-- Writes in flight without the lanes that bundles still to be placed write too: what a read of those sees is judged with those
bundles' own places. -/
def Layout.without (l : Layout) (js : List Nat) (fl : List Flying) : List Flying :=
  let us := js.flatMap fun j => if (l.b j).never then [] else (l.b j).slots.flatMap fun q => (slotWrites q.2).map (·.use)
  fl.filterMap fun f =>
    if f.spld then some f
    else
      let m := us.foldl (fun m u => if u.1 = f.use.1 then m - (m &&& u.2) else m) f.use.2
      if m = 0 then none else some { f with use := (f.use.1, m) }

/-- The places that can follow. The cycle of a transfer's target follows from the transfer's own place, so the path goes on past
shadow bundles that have none yet. -/
def Layout.follow (l : Layout) (n : PathNode) : List PathNode :=
  let i := n.i
  let b := l.b i
  let fl := l.issued n
  let go := fun (j : Nat) (tr : Option Nat) (da db : Int) (fl : List Flying) =>
    ({ i := j, fl := shifted da db fl, tr := tr } : PathNode)
  let step := fun (tr : Option Nat) =>
    go (i + 1) tr ((l.oldOfs (i + 1) : Int) - l.oldOfs i) ((l.newOfs (i + 1) : Int) - l.newOfs i) fl
  let jump := fun (src : Nat) (fl : List Flying) => (l.targets src).map fun j =>
    go j none ((l.oldOfs src : Int) + 3 + l.oldOfs j - l.oldOfs i) ((l.newOfs src : Int) + 3 + l.newOfs j - l.newOfs i) fl
  let leave := fun (src : Nat) =>
    if l.shadow l.oldOfs src (i + 1) then
      let js := l.unplaced src
      step (some src) :: (if js.contains (i + 1) && !js.any (fun j => (l.b j).surely endOps) then jump src (l.without js fl) else [])
    else jump src fl
  if b.surely endOps then []
  else
    (match n.tr with
      | some src => leave src
      | none =>
        (if b.holds transferOps then leave i else [])
        ++ (if b.surely jumpOps || !l.adj i then [] else
          (if b.holds markOps then [go (i + 1) none (1 + l.oldOfs (i + 1)) (1 + l.newOfs (i + 1)) fl] else [])
          ++ (if !b.surely markOps && decide (l.oldOfs i < l.oldOfs (i + 1)) then [step none] else [])))

/-- Walks every path over the bundles placed so far; `false` where a read sees another write. -/
def Layout.explore (l : Layout) : Nat → List PathNode → List PathNode → Bool
  | 0, _, _ => false
  | _, [], _ => true
  | fuel + 1, n :: t, past =>
    if !l.placed n.i || past.contains n then l.explore fuel t past
    else l.readsKept n && l.explore fuel (l.follow n ++ t) (n :: past)

/-- Where a path may begin with nothing in flight: the head of the program, the starts, direct targets, links, and bundles that
nothing falls into. -/
def Layout.heads (l : Layout) (starts : List Nat) : List Nat :=
  let n := l.bs.length
  let ts := (List.range n).flatMap (fun i =>
    if (l.b i).holds [0x31, 0x32, 0x34] then l.targets i ++ (if (l.b i).holds [0x32] then [l.link i] else []) else [])
  (List.range n).filter fun i =>
    i == 0 || starts.contains (l.b i).addr || ts.contains i
      || !l.adj (i - 1) || (l.b (i - 1)).surely (jumpOps ++ endOps)
      || (decide (l.oldOfs i ≤ l.oldOfs (i - 1)) && !(l.b (i - 1)).holds markOps)

/-- Whether two neighbours stand in one region, so that their offsets stay strictly increasing. -/
def Layout.strict (l : Layout) (i : Nat) : Bool :=
  l.adj i && decide (l.oldOfs i < l.oldOfs (i + 1)) && !(l.b i).surely markOps

/-- Whether the offsets given so far keep bundle i and its neighbours in their places inside or outside the shadows, and strictly
increasing in a region. -/
def Layout.placesKept (l : Layout) (i : Nat) : Bool :=
  [i - 2, i - 1, i].all fun j =>
    (!(l.placed j && l.placed (j + 1) && l.strict j) || decide (l.newOfs j < l.newOfs (j + 1)))
      && (!(l.b j).holds transferOps || [1, 2].all fun d =>
        !(List.range (d + 1)).all (fun n => l.placed (j + n)) || l.shadow l.oldOfs j (j + d) == l.shadow l.newOfs j (j + d))

/-- A program with the places at which its paths begin. -/
abbrev Program := List RwBundle × List Nat

/-- Whether the offsets given so far, the last to bundle `id`, satisfy R86 in a program that holds it. -/
def Program.keeps (pl : List Nat) (id : Nat) (v : Program) : Bool :=
  let l : Layout := { bs := v.1, new := pl }
  l.placesKept (v.1.findIdx (fun b => b.id == id)) && l.explore (2 ^ 62) (v.2.map (fun i => ⟨i, [], none⟩)) []

/-- The least offset from `o` on that satisfies R86 in every program of a list, at most 32,767. -/
def leastOffset (vs : List Program) (pl : List Nat) : Nat → Nat → Option Nat
  | 0, _ => none
  | fuel + 1, o =>
    if 32767 < o then none
    else if vs.all (Program.keeps (pl ++ [o]) pl.length) then some o
    else leastOffset vs pl fuel (o + 1)

/-- The first offset that a program leaves to bundle `id`. -/
def Program.lowest (pl : List Nat) (id : Nat) (v : Program) : Nat :=
  let l : Layout := { bs := v.1, new := pl }
  let i := v.1.findIdx (fun b => b.id == id)
  if i ≠ 0 ∧ l.placed (i - 1) = true ∧ l.strict (i - 1) = true then l.newOfs (i - 1) + 1 else 0

/-- Gives the offsets one bundle at a time. -/
def placeAll (vs : List Program) : Nat → List Nat → Option (List Nat)
  | 0, pl => some pl
  | n + 1, pl =>
    let here := vs.filter (fun v => v.1.any (fun b => b.id == pl.length))
    match leastOffset here pl 32768 ((here.map (Program.lowest pl pl.length)).foldl Nat.max 0) with
    | none => none
    | some o => placeAll vs n (pl ++ [o])

/-- Numbers the bundles of the sections, from `n` on. -/
def numbered : Nat → List (List RwBundle) → List (List RwBundle)
  | _, [] => []
  | n, xs :: t => (List.range xs.length).zipWith (fun i b => { b with id := n + i }) xs :: numbered (n + xs.length) t

/-- Puts a section's bundles among those of others, in ascending address. -/
def amongParts (xs : List RwBundle) (ys : List (List RwBundle)) : List (List RwBundle) :=
  let at_ := fun (zs : List RwBundle) => (zs.head?.map (·.addr)).getD 0
  ys.filter (fun y => decide (at_ y ≤ at_ xs)) ++ [xs] ++ ys.filter (fun y => decide (at_ xs < at_ y))

/-- The programs of an image, one for each set of code sections that some core holds. -/
def programs (codes : List CodePart) (starts : List Nat) (bs : List (List RwBundle)) : List Program :=
  let held := (codes.map (·.cluster)).eraseDups.flatMap fun c => (List.range 48).map fun k =>
    (List.range codes.length).filter fun i => match codes[i]? with
      | some x => x.cluster == c && decide (x.first ≤ k) && decide (k ≤ x.last)
      | none => false
  (held.eraseDups.filter (fun l => !l.isEmpty)).map fun l =>
    let xs := (l.foldl (fun ys i => amongParts (bs.getD i []) ys) []).flatten
    (xs, ({ bs := xs, new := [] } : Layout).heads starts)

/-- Every code section of the image with the new offsets in its heads, or nothing where one does not qualify. -/
def rewriteAll (codes : List CodePart) (starts : List Nat) : Option (List (List Byte)) :=
  (codes.mapM fun c => let b := c.plain.drop 8; codeBundles (field c.plain 0 4) b (b.length + 1) 0).bind fun raw =>
    let bs := numbered 0 raw
    (placeAll (programs codes starts bs) bs.flatten.length []).map fun pl =>
      (codes.zip bs).map fun q => q.2.foldl (fun c b =>
        let h := (b.head.toNat / 2 ^ 23) * 2 ^ 23 + pl.getD b.id 0 * 256 + b.head.toNat % 256
        patch c (8 + b.start) (leBytes 4 h)) q.1.plain

end Sys2Proof.Machine
end

