-- ==== Sys2Proof/Machine/Loader.lean ====
section
/-! DEFINITION. The measured loader (16 R371 to R373, 03 R81 to R86, 11 R264, R266, R267, 12 R294, 19 R399, R400): reading an
image, its checks, the placement of its sections, and the hallmarks. -/

namespace Sys2Proof.Machine

/-! ### Hallmarks (13 R299, 16 R373) -/

def State.hallmark (s : State) (n : Nat) : BitVec 256 := tget 0 s.assay.hallmarks n
def State.modAssay (f : Assay → Assay) (s : State) : State := { s with assay := f s.assay }
def State.setHallmark (n : Nat) (v : BitVec 256) (s : State) : State :=
  s.modAssay fun a => { a with hallmarks := tset 0 a.hallmarks n v }

/-- H := SM3(H ‖ data). -/
def State.extendHallmark (n : Nat) (d : List Byte) (s : State) : State :=
  s.setHallmark n (digestOf (leBytes 32 (s.hallmark n).toNat ++ d))

/-- The bytes of a digest. -/
def digestBytes (d : BitVec 256) : List Byte := leBytes 32 d.toNat

/-! ### The header and the section table (03 R81 to R83) -/

def hdrStepping (h : List Byte) : Nat := byteAt h 6
def hdrFlags (h : List Byte) : Nat := byteAt h 7
def hdrImageWorld (h : List Byte) : Nat := field h 8 2
def hdrClusters (h : List Byte) : Nat := field h 12 2
def hdrSections (h : List Byte) : Nat := field h 32 4
def hdrTable (h : List Byte) : Nat := field h 28 4

/-- The limits of the header. -/
def imageHeaderOk (h : List Byte) : Bool :=
  let fl := hdrFlags h
  let domain := bits fl 3 3 == 1
  field h 0 4 == 0x31494B59 && field h 4 2 == 1 && bits fl 7 4 == 0 && (bits fl 2 2 == 0 || hdrImageWorld h == 0)
    && decide (hdrImageWorld h ≤ 16)
    && (if domain then decide (1 ≤ field h 10 2) && decide (field h 10 2 ≤ 4096) else field h 10 2 == 0)
    && decide (1 ≤ hdrClusters h) && decide (hdrClusters h ≤ 96) && field h 14 2 == 0 && field h 36 28 == 0

/-- A section-table entry with its index. -/
structure Section where
  index : Nat
  entry : List Byte
  kind : Nat
  sealed : Bool
  cluster : Nat
  first : Nat
  last : Nat
  start : Nat
  len : Nat
  deriving DecidableEq, Repr

def sectionAt (file : List Byte) (i : Nat) : Section :=
  let e := (file.drop (hdrTable file + 16 * i)).take 16
  { index := i, entry := e, kind := byteAt e 0, sealed := byteAt e 1 % 2 == 1, cluster := field e 2 2, first := byteAt e 4
    last := byteAt e 5, start := field e 8 4, len := field e 12 4 }

/-- The limits of a section-table entry (R83). DESIGN CHOICE (log entry 59): an entry that breaks them fails the load with
IMAGE_INVALID, as R83 names no status. -/
def Section.ok (x : Section) (clusters : Nat) : Bool :=
  let c := field x.entry 6 2
  decide (x.kind ≤ 9) && decide (byteAt x.entry 1 < 2) && (x.cluster == 0xFFFF || decide (x.cluster < clusters))
    && decide (x.first ≤ x.last) && decide (x.last ≤ 47) && (if x.kind = 0 ∨ x.kind = 9 then decide (c < 4) else c == 0)

/-- The end of the file: that of its last part. -/
def fileEnd (h table : List Byte) : Nat :=
  (List.range (hdrSections h)).foldl (fun n i =>
    Nat.max n (field table (16 * i + 8) 4 + field table (16 * i + 12) 4))
    (Nat.max 96 (Nat.max (field h 20 4 + 8 * field h 24 4) (hdrTable h + 16 * hdrSections h)))

/-- Bytes of world 0's segment, or the status of a read that fails. -/
def State.readWorld0 (s : State) (sg off n : Nat) : Except Nat (List Byte) :=
  match s.untimedPages 0 sg off n false with
  | .error c => .error c
  | .ok ms => let r := s.readSeg 0 ms off n; if r.2 then .error codePoison else .ok r.1

/-- The image file at an offset of a segment of world 0. -/
def State.readImage (s : State) (sg off : Nat) : Except Nat (List Byte) :=
  match s.readWorld0 sg off 96 with
  | .error c => .error c
  | .ok h =>
    if !imageHeaderOk h then .error codeImageInvalid
    else match s.readWorld0 sg (off + hdrTable h) (Nat.max 1 (16 * hdrSections h)) with
      | .error c => .error c
      | .ok t => s.readWorld0 sg off (fileEnd h t)

/-- The remaining-time table (R82); none where its pitch indices do not ascend. DESIGN CHOICE (log entry 58): such a table fails the
load with IMAGE_INVALID before a hallmark is extended, as R82 names no status. -/
def rttOf (file : List Byte) : Option (List (Nat × Nat)) :=
  let l := (List.range (field file 24 4)).map (fun i =>
    let a := field file 20 4 + 8 * i
    (field file a 4, field file (a + 4) 4))
  if (l.zip (l.drop 1)).all (fun q => decide (q.1.1 < q.2.1)) then some l else none

/-- The image digest: SM3 over bytes 0 to 63 and from byte 96 on. -/
def imageDigest (file : List Byte) : BitVec 256 := digestOf (file.take 64 ++ file.drop 96)

/-! ### Sections (16 R371, R372) -/

/-- The state of a load: its status, whether a section has been written, the code sections, the timetable, the table rows
taken (R399), and the trigger entries and landings numbered so far by cluster. -/
structure Load where
  s : State
  status : Nat := codeDone
  wrote : Bool := false
  codes : List (Section × List Byte) := []
  starts : List Nat := []
  timetable : List Byte := []
  taken : List (Nat × Nat) := []
  landings : Tbl Nat := []
  triggers : Tbl Nat := []
  deriving DecidableEq, Repr

/-- The plaintext of a section; a sealed one is opened under the world's section key (R372). World 0's images, and start
vectors, hold no sealed section (R371, R400). -/
def State.plaintext (s : State) (w : Nat) (file : List Byte) (x : Section) : Option (List Byte) :=
  let body := (file.drop x.start).take x.len
  if !x.sealed then some body
  else if w = 0 ∨ x.kind = 9 ∨ body.length < 16 then none
  else match (tget {} s.assay.keys w).sectionKey with
    | none => none
    | some k =>
      let key := leBytes 16 k.toNat
      let iv := leBytes 4 x.index ++ (file.drop 64).take 8
      let ct := body.take (body.length - 16)
      if gcmTag key iv x.entry ct = body.drop (body.length - 16) then some (gcmCrypt key iv 0 ct) else none

/-- Applies a change to cores first..last of a cluster. -/
def State.modCores (g : Nat) (x : Section) (f : Core → Core) (s : State) : State :=
  (List.range (x.last + 1 - x.first)).foldl (fun s i => s.modCore g (x.first + i) f) s

/-- Records of `n` bytes each. -/
def records (n : Nat) (b : List Byte) : List (List Byte) := (List.range (b.length / n)).map (fun i => (b.drop (n * i)).take n)

/-- A trigger-table entry (11 R264); none where it breaks a limit. -/
def triggerOf (e : List Byte) : Option Trigger :=
  if field e 2 2 = 0 ∨ 4 ≤ byteAt e 0 ∨ 47 < byteAt e 4 ∨ field e 6 2 ≠ 0 ∨ field e 20 12 ≠ 0 ∨ field e 8 4 % 4 ≠ 0
      ∨ 2 ^ 17 ≤ field e 8 4 then none
  else some {
    flags := byteAt e 0, counter := byteAt e 1, threshold := field e 2 2, core := byteAt e 4, pending := 0, entry := field e 8 4
    hvb := BitVec.ofNat 32 (field e 12 4) &&& 0x1FFC0, ring := field e 16 4 }

/-- A landing-list entry (12 R294); none where it breaks a limit. -/
def landingOf (e : List Byte) : Option Landing :=
  let v := field e 0 4
  if bits v 31 31 = 0 then some {}
  else if bits v 30 26 ≠ 0 ∨ bits v 19 0 % 64 ≠ 0 ∨ 47 < bits v 25 20 ∨ field e 4 4 = 0 ∨ 2 ^ 20 < field e 4 4 then none
  else some { base := bits v 19 0, core := bits v 25 20, valid := true, bytes := field e 4 4 }

/-- Writes code into a core's instruction memory: its words are sound again. -/
def Core.putCode (a : Nat) (b : List Byte) (c : Core) : Core :=
  { c with
    imem := Memory.writeN c.imem a b
    imemErrs := (wordsOf a b.length).foldl (fun t w => tset .sound t w .sound) c.imemErrs }

/-- Places a section of a single cluster on global cluster g, or fails. -/
def Load.place (l : Load) (g : Nat) (x : Section) (p : List Byte) : Load :=
  let bad := { l with status := codeImageInvalid }
  let a := field p 0 4
  let put := fun (f : Core → Core) => { l with s := l.s.modCores g x f, wrote := true }
  match x.kind with
  | 0 =>
    let b := p.drop 8
    if p.length < 8 ∨ field p 4 4 ≠ 0 ∨ a % 4 ≠ 0 ∨ b.length % 4 ≠ 0 ∨ 2 ^ 17 < a + b.length then bad
    else { put (Core.putCode a b) with codes := l.codes ++ [(x, p)] }
  | 1 =>
    let b := p.drop 8
    if p.length < 8 ∨ field p 4 4 ≠ 0 ∨ spadBytes < a + b.length then bad
    else if (List.range (x.last + 1 - x.first)).any (fun i =>
        (linesOf a b.length).any (fun n => !b.isEmpty && (l.s.core g (x.first + i)).isLent n)) then
      { l with status := codeLentBank }
    else put (fun c => (c.sideWrite a b).1)
  | 2 =>
    let rs := records 48 (p.drop 4)
    if p.length < 4 ∨ (p.length - 4) % 48 ≠ 0 ∨ 16 < a + rs.length then bad
    else
      let add := fun (t : Tbl (BitVec 384)) (q : Nat × List Byte) => tset 0 t (a + q.1) (BitVec.ofNat 384 (leNat q.2) &&& shapeMask)
      put (fun c => { c with shapes := ((List.range rs.length).zip rs).foldl add c.shapes })
  | 3 =>
    let rs := records 16 (p.drop 4)
    let ring := fun (r : List Byte) => okRset (BitVec.ofNat 32 (field r 0 4)) (BitVec.ofNat 32 (field r 4 4)) && field r 8 8 == 0
    if p.length < 4 ∨ (p.length - 4) % 16 ≠ 0 ∨ 8 < a + rs.length ∨ rs.all ring = false then bad
    else
      let add := fun (t : Tbl Ring) (q : Nat × List Byte) =>
        tset {} t (a + q.1) { base := field q.2 0 4, size := field q.2 4 2, tile := field q.2 6 2 }
      put (fun c => { c with rings := ((List.range rs.length).zip rs).foldl add c.rings })
  | 5 =>
    let rs := records 32 p
    let es := rs.filterMap triggerOf
    let n := tget 0 l.triggers g
    if p.length % 32 ≠ 0 ∨ 64 < n + rs.length ∨ es.length ≠ rs.length then bad
    else
      let add := fun (t : Tbl Trigger) (q : Nat × Trigger) => tput t (n + q.1) q.2
      let s1 := l.s.modCluster g fun cl => { cl with triggers := ((List.range es.length).zip es).foldl add cl.triggers }
      { l with s := s1, wrote := true, triggers := tput l.triggers g (n + rs.length), starts := l.starts ++ es.map (·.entry) }
  | _ =>
    let rs := records 8 p
    let es := rs.map landingOf
    let n := tget 0 l.landings g
    if p.length % 8 ≠ 0 ∨ 512 < n + rs.length ∨ es.any Option.isNone then bad
    else
      let add := fun (t : Tbl Landing) (q : Nat × Option Landing) => tset {} t (n + q.1) (q.2.getD {})
      let s1 := l.s.modCluster g fun cl => { cl with landings := ((List.range es.length).zip es).foldl add cl.landings }
      { l with s := s1, wrote := true, landings := tput l.landings g (n + rs.length) }

/-! ### Pipeline tables and action bundles (12 R285, 19 R399) -/

/-- The index at which an exact-table entry of index 0xFFFF_FFFF is placed: the lowest way whose row holds no other entry of
the image. Where the handle names no exact table the index stands, and R285 refuses it. -/
def Load.way (l : Load) (h : Nat) (item : List Byte) : Option Nat :=
  let c := (l.s.pipe (hPort h)).cfg (hStage h) (hPos h)
  if cfgKind c ≠ 1 ∨ cfgRows c = 0 ∨ 12 ≤ hStage h then some 0xFFFFFFFF
  else (List.range 4).findSome? fun w =>
    let i := 4 * (crc64 (BitVec.ofNat 8 w :: item.take 16) % cfgRows c) + w
    if l.taken.contains (h, i) then none else some i

/-- The items of a section, one after another: each is written under the permissions of R285, which refuse a reserved kind. -/
def Load.items (w : Nat) : Nat → List Byte → Load → Load
  | 0, _, l => l
  | fuel + 1, b, l =>
    if l.status ≠ codeDone ∨ b.isEmpty then l
    else
      let h := field b 0 4
      match itemSize (hKind h) with
      | none => { l with status := codeTableDenied }
      | some n =>
        let it := (b.drop 8).take n
        if b.length < 8 + n then { l with status := codeImageInvalid }
        else
          let auto := hKind h == 0 && field b 4 4 == 0xFFFFFFFF && decide (hPort h < 36)
          match (if auto then l.way h it else some (field b 4 4)) with
          | none => { l with status := codeImageInvalid }
          | some i =>
            let st := l.s.writeStatus { handle := h, index := i, data := it, world := w, op := ⟨0, 0, 0⟩ }
            if st ≠ codeDone then { l with status := st }
            else
              Load.items w fuel (b.drop (8 + n))
                { l with
                  s := l.s.itemWrite (hPort h) (hKind h) (hStage h) (hPos h) i it, wrote := true
                  taken := if hKind h = 0 then (h, i) :: l.taken else l.taken }

/-- Step 3 of R371 for one section: it is opened, measured and placed. -/
def Load.step (w : Nat) (file : List Byte) (map : Nat → Nat) (l : Load) (i : Nat) : Load :=
  if l.status ≠ codeDone then l
  else
    let x := sectionAt file i
    if !x.ok (hdrClusters file) then { l with status := codeImageInvalid }
    else match l.s.plaintext w file x with
      | none => { l with status := codeImageInvalid }
      | some p =>
        let l1 := if w = 0 then l else { l with s := l.s.extendHallmark (2 * w) (patch x.entry 8 (zeros 4) ++ sm3 p) }
        match x.kind with
        | 4 =>
          let st := l1.s.timetableStatus w (field file 10 2) (fun c => decide (map c < 96)) p
          if st ≠ codeDone then { l1 with status := st } else { l1 with timetable := p }
        | 6 => l1.items w p.length p
        | 7 => l1.items w p.length p
        | 9 => { l1 with starts := l1.starts ++ (List.range ((p.length - 64) / 16)).map (fun j => field p (64 + 16 * j) 4) }
        | _ => if 96 ≤ map x.cluster then { l1 with status := codeImageInvalid } else l1.place (map x.cluster) x p

/-! ### IMAGE_LOAD (16 R371) -/

/-- The pairs of logical and physical clusters that a 96-byte placement map names. -/
def mapPairs (m : List Byte) : List (Nat × Nat) :=
  (List.range 96).filterMap (fun i => if byteAt m i = 0xFF then none else some (i, byteAt m i))

/-- Whether a placement is accepted: every cluster is idle (01 R13), unfenced and the world's, and R41 allows it. -/
def State.placementAccepted (s : State) (w : Nat) (ps : List (Nat × Nat)) : Bool :=
  pairsOk ps && ps.all fun q => (s.world w).clusters.getLsbD q.2 && (s.cluster q.2).idle && !(s.cluster q.2).fenced

/-- The stepping of the module, fixed in the die. -/
def State.moduleStepping (s : State) (g : Nat) : Nat := ((s.core g 0).stg.extractLsb' 0 8).toNat

/-- The rewritten file: each code section's plaintext stands in its place, and byte 6 and the digest are new. -/
def rewrittenFile (file : List Byte) (codes : List (Section × List Byte)) : List Byte :=
  let f := codes.foldl (fun f q => patch f q.1.start q.2) (patch file 6 [0xB0])
  patch f 64 (digestBytes (imageDigest f))

/-- Sets STG.ICM or STG.RWR for the life of a task (04 R93). -/
def Core.setMode (icm rwr : Bool) (c : Core) : Core :=
  { c with stg := (c.stg &&& 0xFF) ||| (if icm then 0x100 else 0) ||| (if rwr then 0x200 else 0) }

/-- Step 4 of R371: an A1 image on a B0 module is rewritten where every code section qualifies, and otherwise runs in
interlocked compatibility mode (03 R84). -/
def Load.rewrite (map : Nat → Nat) (file : List Byte) (l : Load) : Load × List Byte × Bool :=
  match rewriteAll (l.codes.map fun q => ⟨q.1.cluster, q.1.first, q.1.last, q.2⟩) l.starts with
  | none => (l, file, false)
  | some ps =>
    let cs := (l.codes.zip ps).map (fun q => (q.1.1, q.2))
    (cs.foldl (fun l q => { l with s := l.s.modCores (map q.1.cluster) q.1 (Core.putCode (field q.2 0 4) (q.2.drop 8)) }) l,
      rewrittenFile file cs, true)

/-- Steps 1 to 5 of R371 once the placement is accepted: the status, the reply, and the module. -/
def State.loadImage (w sg off handle : Nat) (m : List Byte) (s : State) : Nat × List Byte × State :=
  let ps := mapPairs m
  let map := fun (c : Nat) => ((ps.find? (fun q => q.1 == c)).map (·.2)).getD 96
  match s.readImage sg off with
  | .error c => (c, [], s)
  | .ok file =>
    let step := hdrStepping file
    let chip := s.moduleStepping ((ps.headD (0, 0)).2)
    if (step ≠ 0xA1 ∧ step ≠ 0xB0) ∨ (step = 0xB0 ∧ chip = 0xA1) then (codeImageStepping, [], s)
    else if hdrImageWorld file ≠ w ∨ digestBytes (imageDigest file) ≠ (file.drop 64).take 32 then (codeImageInvalid, [], s)
    else match rttOf file with
      | none => (codeImageInvalid, [], s)
      | some rtt =>
        let s1 := if w = 0 then s else
          (s.extendHallmark (2 * w) (file.take 96)).extendHallmark (2 * w + 1) (sm3 m)
        let s2 := ps.foldl (fun s q => s.modCluster q.2 fun cl => { cl with triggers := [], landings := [] }) s1
        let l := (List.range (hdrSections file)).foldl (Load.step w file map) { s := s2 }
        if l.status ≠ codeDone then
          let undone := ps.foldl (fun s q => s.modCluster q.2 fun cl =>
            { cl with triggers := (s1.cluster q.2).triggers, landings := (s1.cluster q.2).landings }) l.s
          (l.status, [], if l.wrote then l.s.zeroClusters (ps.map (·.2)) else undone)
        else
          let r := if step = 0xA1 ∧ chip = 0xB0 then l.rewrite map file else (l, file, false)
          let icm := step == 0xA1 && chip == 0xB0 && !r.2.2
          let rwr := if r.2.2 then some (imageDigest r.2.1) else none
          let img : Image := {
            handle := handle, world := w, header := r.2.1.take 96, digest := imageDigest file, rewritten := rwr, rtt := rtt
            timetable := l.timetable, placement := (List.range 96).map map, clusters := hdrClusters file }
          let s3 := ps.foldl (fun s q => s.modCluster q.2 fun cl =>
            { cl with
              image := some handle, logical := q.1, digest := rwr.getD img.digest
              cores := (List.range 48).map fun k => (k, (cl.core k).setMode icm r.2.2) }) r.1.s
          (codeDone, leBytes 4 handle ++ zeros 4 ++ digestBytes img.digest ++ digestBytes (rwr.getD 0),
            { s3 with images := s3.images ++ [img] }.retime w l.timetable)

end Sys2Proof.Machine
end

