-- ==== Sys2Proof/Machine/Assay.lean ====
section
/-! DEFINITION. ASSAY (13 R318) and the Assay controller (16 R364 to R380, R405): the order of commands, their refusals and
replies, worlds and keys, reports, the lifecycle and debug unlock, departure and scrub. -/

namespace Sys2Proof.Machine

/-! ### ASSAY (13 R318) -/

/-- The reply range of a request, and its room. -/
def rqReply (q : AssayReq) : Nat := field q.bytes 4 4
def rqRoom (q : AssayReq) : Nat := field q.bytes 8 4
def rqCode (q : AssayReq) : Nat := field q.bytes 0 2
def rqWorld (q : AssayReq) : Nat := byteAt q.bytes 12

/-- Whether the reply range passes checks 1 to 3 of R202, and its room is one that R318 gives. -/
def Core.replyOk (c : Core) (q : AssayReq) : Bool :=
  decide (64 ≤ (rqRoom q)) && decide ((rqRoom q) ≤ 65536) && (rangeFault (rqReply q) (rqRoom q) 64).isNone
    && !(linesOf (rqReply q) (rqRoom q)).any c.isLent

/-- ASSAY (R318): the request is read on cycle issue + 1 and joins the controller's queue; sD takes the submission status. -/
def execAssay (d a : BitVec 5) (s : State) : Out :=
  s.legal .wait fun s =>
    if s.here.ser && s.hereCore.wbuf.any (fun e => e.released) then .next s.holdBundle
    else
      let adr := (s.rs a).toNat
      s.check (rangeFault adr 64 64) [] fun s =>
        let x := readTouch adr 64
        s.check (s.hereCore.touchFault x) x.reads fun s => s.usePort x.lines fun s =>
          let r := s.freeRead s.cur.g s.cur.k adr 64
          let q : AssayReq := {
            world := s.hereCluster.world, cluster := s.cur.g, core := s.cur.k, fromHost := false, seq := s.assay.seq
            bytes := leBytes 64 r.1 }
          if 32 ≤ s.assay.queue.length then .next (r.2.emitS 3 d (BitVec.ofNat 32 codeQueueFull))
          else if !s.hereCore.replyOk q then .next (r.2.emitS 3 d (BitVec.ofNat 32 codeAddressRange))
          else
            .next ((r.2.modAssay fun y => { y with queue := y.queue ++ [q], seq := y.seq + 1 }).emitS 3 d 0)

/-! ### The commands (16 R367, R375) -/

/-- A row of R367: its code, its submitters (0 any, 1 world 0, 2 world 0 or the world named, 3 a tenant), whether byte 12
names a world and the least it may be, the bytes named, and its buffer: the byte that holds its address, and its length. -/
structure AssayCmd where
  code : Nat
  who : Nat
  names : Bool
  least : Nat
  named : List (Nat × Nat)
  buffer : Option (Nat × Nat)
  deriving DecidableEq, Repr

abbrev cmdFuseRead : Nat := 0x0001
abbrev cmdNonce : Nat := 0x0002
abbrev cmdDebugToken : Nat := 0x0003
abbrev cmdWorldCreate : Nat := 0x0010
abbrev cmdWorldConfig : Nat := 0x0011
abbrev cmdKeyImport : Nat := 0x0012
abbrev cmdImageLoad : Nat := 0x0013
abbrev cmdImageUnload : Nat := 0x0014
abbrev cmdWorldReset : Nat := 0x0015
abbrev cmdReport : Nat := 0x0016
abbrev cmdExtend : Nat := 0x0017
abbrev cmdDeploy : Nat := 0x0020
abbrev cmdRetire : Nat := 0x0021

def assayCmds : List AssayCmd := [
  ⟨cmdFuseRead, 0, false, 0, [], none⟩,
  ⟨cmdNonce, 1, false, 0, [], none⟩,
  ⟨cmdDebugToken, 1, false, 0, [(12, 4)], some (12, 192)⟩,
  ⟨cmdWorldCreate, 1, true, 1, [(12, 1), (16, 4)], some (16, 128)⟩,
  ⟨cmdWorldConfig, 1, true, 0, [(12, 1), (16, 4)], some (16, 128)⟩,
  ⟨cmdKeyImport, 2, true, 1, [(12, 1), (16, 4)], some (16, 113)⟩,
  ⟨cmdImageLoad, 1, true, 0, [(12, 1), (16, 2), (20, 8), (28, 4)], some (28, 96)⟩,
  ⟨cmdImageUnload, 1, true, 1, [(12, 1), (16, 4)], none⟩,
  ⟨cmdWorldReset, 2, true, 1, [(12, 1)], none⟩,
  ⟨cmdReport, 2, true, 0, [(12, 1), (32, 32)], none⟩,
  ⟨cmdExtend, 3, false, 0, [(32, 32)], none⟩,
  ⟨cmdDeploy, 1, false, 0, [], none⟩,
  ⟨cmdRetire, 1, false, 0, [], none⟩]

def assayCmd (code : Nat) : Option AssayCmd := assayCmds.find? (fun c => c.code == code)

/-- The lifecycle gate (R375): DONE, or the refusal. -/
def State.gate (s : State) (code w : Nat) : Nat :=
  match s.assay.lifecycle with
  | 1 =>
    if code = cmdFuseRead ∨ code = cmdNonce ∨ code = cmdDebugToken ∨ (code = cmdReport ∧ w = 0) ∨ code = cmdDeploy
      ∨ code = cmdRetire then codeDone else codeLifecycleIllegal
  | 2 => codeDone
  | 4 =>
    if code = cmdWorldCreate then codeDebugPending
    else if code = cmdDeploy ∨ code = cmdKeyImport then codeLifecycleIllegal else codeDone
  | _ => if code = cmdFuseRead then codeDone else codeLifecycleIllegal

/-- A command's buffer, as its execution reads it (R366). -/
def State.buffer (q : AssayReq) (p : Nat × Nat) (s : State) : List Byte × State :=
  let r := s.bankFree q.cluster q.core (field q.bytes p.1 4) p.2
  (leBytes p.2 r.1, r.2)

/-! ### World-table entries (11 R260, 17 R387, 16 R405) -/

/-- The entry that a buffer gives world w: the state, the tokens, and the port fields in force are not the buffer's. -/
def worldOf (b : List Byte) (old : World) : World :=
  { old with
    flags := byteAt b 1, function := byteAt b 2, pageRoot := field b 4 4, segments := field b 8 4, partition := field b 12 4
    clusters := BitVec.ofNat 96 (field b 16 12), puntCore := field b 28 2, puntBase := field b 30 4, puntCounter := byteAt b 34
    mgmtCore := field b 36 2, mgmtBase := field b 38 4, weight := byteAt b 64, maxPriority := byteAt b 65, depth := field b 66 2
    refill := field b 68 4, ls := field b 76 4, hbmShare := byteAt b 80, meter := BitVec.ofNat 128 (field b 96 16)
    nextPorts := some (BitVec.ofNat 40 (field b 84 5), byteAt b 81, byteAt b 82), mapped := true }

/-- Port fields take effect at an aligned window of 256 ticks (17 R387). -/
def World.openWindow (w : World) : World :=
  match w.nextPorts with
  | some (p, l, k) => { w with ports := p, tickLimit := l, packetWeight := k, nextPorts := none }
  | none => w

/-- The tick limit and the HBM share that a world holds, or is to hold. -/
def World.limitTo (w : World) : Nat :=
  match w.nextPorts with
  | some (_, l, _) => l
  | none => w.tickLimit

/-- Whether an entry keeps R260 and the ranges and sums of R387. Of world 0's, bytes 0 to 3 and 16 to 27 are ignored. -/
def State.entryOk (s : State) (w : Nat) (create : Bool) (b : List Byte) : Bool :=
  let others := (s.worlds.filter (fun p => p.1 != w)).map (·.2)
  let own := w == 0 || (decide (byteAt b 1 < 2) && byteAt b 2 == w && byteAt b 3 == 0
    && (create || byteAt b 1 == (s.world w).flags))
  own && decide (field b 4 4 < 2 ^ 29) && decide (field b 8 4 < 2 ^ 25) && decide (field b 12 4 < 2 ^ 29)
    && decide (field b 28 2 < 4608) && field b 30 4 % 64 == 0 && decide (field b 30 4 < spadBytes) && byteAt b 35 == 0
    && decide (field b 36 2 < 4608) && field b 38 4 % 64 == 0 && decide (field b 38 4 < spadBytes) && field b 42 22 == 0
    && byteAt b 64 != 0 && decide (byteAt b 65 ≤ 7) && decide (byteAt b 80 ≤ 48) && decide (byteAt b 81 ≤ 224)
    && byteAt b 82 != 0 && byteAt b 83 == 0 && decide (field b 84 5 < 2 ^ 36) && field b 89 7 == 0 && field b 112 16 == 0
    && decide ((others.map (·.hbmShare)).sum + byteAt b 80 ≤ 48) && decide ((others.map World.limitTo).sum + byteAt b 81 ≤ 224)

/-- The clusters that an entry adds to world w or takes from it. -/
def State.changed (s : State) (w : Nat) (b : List Byte) : List Nat :=
  (List.range 96).filter fun g => (BitVec.ofNat 96 (field b 16 12)).getLsbD g != (s.world w).clusters.getLsbD g

/-- The refusal of the clusters that an entry changes: one that it adds is world 0's, and every one is idle. -/
def State.clustersStatus (s : State) (w : Nat) (b : List Byte) : Nat :=
  if w = 0 then codeDone
  else
    let gs := s.changed w b
    if gs.any (fun g => !(s.world w).clusters.getLsbD g && (s.cluster g).world != 0) then codeNotPermitted
    else if gs.any (fun g => !(s.cluster g).idle) then codeWorldBusy
    else codeDone

/-- The banks that a cluster has lent return: their directory entries are made invalid (16 R364). -/
def State.returnBanks (g : Nat) (s : State) : State :=
  (List.range 36).foldl (fun s p =>
    ((s.pipe p).directory.filter (fun e => dirValid e.2 && dirCore e.2 / 48 == g)).foldl (fun s e => s.setDir p e.1 0) s) s

/-- A cluster passes to world w with its lent banks returned and the loader's zeroing (16 R364). -/
def State.passCluster (g w : Nat) (s : State) : State :=
  let s1 := (s.returnBanks g).zeroClusters [g]
  let s2 := s1.modWorld (s1.cluster g).world fun x => { x with clusters := x.clusters &&& ~~~(BitVec.twoPow 96 g) }
  (s2.modWorld w fun x => { x with clusters := x.clusters ||| BitVec.twoPow 96 g }).modCluster g fun cl => { cl with world := w }

/-- A frame becomes a segment table: BUSY, TT and the reserved bits of its entries are zero from then on (11 R250). DESIGN CHOICE (log
entry 73): the spec does not say what they hold in a frame that held other data before. -/
def State.openTable (f : Nat) (s : State) : State :=
  if s.isSegLine (f * pageLines) then s
  else { s with hbm := { s.hbm with
    cells := (s.hbm.cells.filter (fun c => c.1 / 65536 == f)).foldl (fun m c =>
      Memory.write m c.1 (segByte (c.1 % 16) 0 c.2)) s.hbm.cells } }

/-- Brings TT of a world's segments to what its loaded timetables make it. -/
def State.retimeAll (w : Nat) (s : State) : State :=
  (s.loadedTables.filter (fun t => t.world == w)).foldl (fun s t => s.retime w t.bytes) s

/-- Writes the entry of a tenant: its clusters pass. -/
def State.writeEntry (w : Nat) (b : List Byte) (s : State) : State :=
  let keep := (s.world w).clusters
  let s1 := (s.changed w b).foldl (fun s g => s.passCluster g (if keep.getLsbD g then 0 else w)) s
  ((s1.openTable (field b 8 4)).modWorld w (worldOf b)).retimeAll w

/-- WORLD_CONFIG of world 0 (R405): the controller keeps the state, flags, function and cluster bits. -/
def State.writeEntry0 (b : List Byte) (s : State) : State :=
  ((s.openTable (field b 8 4)).modWorld 0 fun x =>
    { worldOf b x with flags := x.flags, function := x.function, clusters := x.clusters }).retimeAll 0

/-! ### Refusals (16 R368) and replies (13 R318) -/

/-- The world that a request's submitter may name. -/
def AssayCmd.permits (c : AssayCmd) (submitter w : Nat) : Bool :=
  match c.who with
  | 0 => true
  | 1 => submitter == 0
  | 2 => submitter == 0 || submitter == w
  | _ => submitter != 0

/-- Steps 3 of R368 but for the entry. -/
def AssayCmd.wellFormed (c : AssayCmd) (q : AssayReq) : Bool :=
  byteAt q.bytes 3 == 0 && decide (q.bytes.length ≤ 64)
    && (List.range 52).all (fun i => c.named.any (fun r => decide (r.1 ≤ 12 + i) && decide (12 + i < r.1 + r.2))
      || byteAt q.bytes (12 + i) == 0)
    && (!c.names || (decide (c.least ≤ (rqWorld q)) && decide ((rqWorld q) ≤ 16)))
    && match c.buffer with
      | some (p, n) => (rangeFault (field q.bytes p 4) n 64).isNone
      | none => true

/-- The refusals of R368, steps 1 to 4, in order: DONE, or the first failure. `b` is the command's buffer. -/
def State.refusal (s : State) (c : AssayCmd) (q : AssayReq) (b : List Byte) : Nat :=
  let w := (rqWorld q)
  let st := (s.world w).state
  let entry := c.code == cmdWorldCreate || c.code == cmdWorldConfig
  if !c.permits q.world w then codeNotPermitted
  else if s.gate c.code (if c.names then w else 0) ≠ codeDone then s.gate c.code (if c.names then w else 0)
  else if !c.wellFormed q || (entry && !s.entryOk w (c.code == cmdWorldCreate) b) then codeOperandIllegal
  else if c.code = cmdRetire ∧ (List.range 16).any (fun i => (s.world (i + 1)).state != 0) then codeWorldBusy
  else if c.names = false then codeDone
  else if c.code = cmdWorldCreate ∧ s.assay.scrubs.any (fun x => x.resumed) then codeWorldBusy
  else if st = 2 ∨ st = 3 then codeWorldBusy
  else if (c.code == cmdWorldCreate) != (st == 0) then codeNotPermitted
  else if entry ∧ s.clustersStatus w b ≠ codeDone then s.clustersStatus w b
  else if c.code = cmdImageLoad ∧ 8 ≤ (s.images.filter (fun i => i.world == w)).length then codeWorldBusy
  else codeDone

/-- The reply of a request: its header, its body, cut to its room. -/
def replyBytes (q : AssayReq) (st : Nat) (body : List Byte) : List Byte :=
  (leBytes 2 st ++ leBytes 2 (rqCode q) ++ leBytes 4 (16 + body.length) ++ leBytes 8 q.seq ++ body).take (rqRoom q)

/-- Writes the reply through the side port and bumps the counter that the request names; a fenced cluster takes neither. -/
def State.answer (q : AssayReq) (st : Nat) (body : List Byte) (s : State) : State :=
  if q.fromHost || (s.cluster q.cluster).fenced then s
  else
    (s.sideBytes q.cluster q.core (rqReply q) (replyBytes q st body)).modCluster q.cluster fun cl =>
      { cl with bumps := cl.bumps ++ [{ due := cl.run + 1, counter := byteAt q.bytes 2, amount := 1 }] }

/-- Whether the side ports of the lines of a request's reply are free on this cycle (08 R182). -/
def State.replyOpen (s : State) (q : AssayReq) : Bool :=
  q.fromHost || (linesOf (rqReply q) (Nat.min (rqRoom q) 1104)).all (fun l => s.sideOpen q.cluster q.core l)

/-- Executes the request at the head of the queue: one whose submitter is no longer ACTIVE is discarded (R366), and a refused
one changes nothing (R368). -/
def State.serve (code : Nat) (q : AssayReq) (s : State) (f : List Byte → State → Nat × List Byte × State) : Out :=
  match s.assay.queue, assayCmd code with
  | h :: rest, some c =>
    if h ≠ q ∨ (rqCode q) ≠ code ∨ s.assay.serving = false then .next s
    else
      let s1 := s.modAssay fun y => { y with queue := rest }
      if q.fromHost = false ∧ (s.world q.world).state ≠ 1 then .next s1
      else
        let r := match c.buffer with
          | some p => s1.buffer q p
          | none => ([], s1)
        let st := s1.refusal c q r.1
        if st ≠ codeDone then .next (s1.answer q st [])
        else
          let x := f r.1 r.2
          .next (x.2.2.answer q x.1 x.2.1)
  | _, _ => .next s

/-! ### FUSE_READ, NONCE, EXTEND, DEPLOY, RETIRE (16 R367, R375) -/

/-- A draw of the random number generator. -/
def State.draw (s : State) : BitVec 256 × State :=
  (Config.random s.assay.draws, s.modAssay fun y => { y with draws := y.draws + 1 })

/-- FUSE_READ (R367). -/
def execFuseRead (rq : AssayReq) (s : State) : Out :=
  s.serve cmdFuseRead rq fun _ s =>
    let cert := Config.certificate.take 1024
    (codeDone, leBytes 8 s.assay.deviceId.toNat ++ leBytes 1 s.assay.lifecycle ++ zeros 7 ++ digestBytes s.assay.authority
      ++ leBytes 4 cert.length ++ zeros 4 ++ cert, s)

/-- NONCE (R367). -/
def execNonce (rq : AssayReq) (s : State) : Out :=
  s.serve cmdNonce rq fun _ s =>
    let r := s.draw
    (codeDone, leBytes 32 r.1.toNat, r.2.modAssay fun y => { y with nonceOut := some r.1 })

/-- EXTEND (R367). -/
def execExtend (rq : AssayReq) (s : State) : Out :=
  s.serve cmdExtend rq fun _ s => (codeDone, [], s.extendHallmark (2 * rq.world + 1) ((rq.bytes.drop 32).take 32))

/-- DEPLOY (R375): the fused lifecycle only moves forward. -/
def execDeploy (rq : AssayReq) (s : State) : Out :=
  s.serve cmdDeploy rq fun _ s =>
    if s.assay.lifecycle = 1 then (codeDone, [], s.modAssay fun y => { y with fused := 2, lifecycle := 2 })
    else (codeLifecycleIllegal, [], s)

/-- RETIRE (R375): the attestation key is destroyed before RETIRED is fused. -/
def execRetire (rq : AssayReq) (s : State) : Out :=
  s.serve cmdRetire rq fun _ s => (codeDone, [], s.modAssay fun y => { y with attestKey := none, fused := 5, lifecycle := 5 })

/-! ### Worlds and keys (16 R367, R369) -/

/-- The keys made at WORLD_CREATE, and world 0's at boot (R369). -/
def State.makeKeys (w : Nat) (s : State) : State :=
  let a := s.draw
  let b := a.2.draw
  let c := b.2.draw
  let d := c.2.draw
  let sk := some (c.1.setWidth 128)
  let k : Keys := if w = 0 then { memory := some b.1, sealKey := sk }
    else { pair := some (BitVec.ofNat 256 (a.1.toNat % (sm2N - 2) + 1)), memory := some b.1, sealKey := sk
           image := some (d.1.setWidth 128) }
  d.2.modAssay fun y => { y with keys := tput y.keys w k }

/-- The public half of a world's key pair, x then y. -/
def State.publicKey (s : State) (w : Nat) : List Byte :=
  match (tget {} s.assay.keys w).pair with
  | none => []
  | some d =>
    match sm2Mul d.toNat sm2G with
    | some (x, y) => beBytes 32 x ++ beBytes 32 y
    | none => []

/-- WORLD_CREATE (R367). -/
def execWorldCreate (rq : AssayReq) (s : State) : Out :=
  s.serve cmdWorldCreate rq fun b s =>
    let w := (rqWorld rq)
    let s1 := ((s.writeEntry w b).modWorld w fun x => { x with state := 1 }).makeKeys w
    let pub := s1.publicKey w
    let s2 := ((s1.setHallmark (2 * w) 0).setHallmark (2 * w + 1) 0).extendHallmark (2 * w + 1) (sm3 (b.drop 1))
    (codeDone, pub, s2.extendHallmark (2 * w + 1) (sm3 pub))

/-- WORLD_CONFIG (R367, R405). -/
def execWorldConfig (rq : AssayReq) (s : State) : Out :=
  s.serve cmdWorldConfig rq fun b s =>
    if (rqWorld rq) = 0 then (codeDone, [], s.writeEntry0 b)
    else (codeDone, [], (s.writeEntry (rqWorld rq) b).extendHallmark (2 * (rqWorld rq) + 1) (sm3 (b.drop 1)))

/-- KEY_IMPORT (R369): once per world; a ciphertext that does not verify gives SIGNATURE_INVALID. -/
def execKeyImport (rq : AssayReq) (s : State) : Out :=
  s.serve cmdKeyImport rq fun b s =>
    let k := tget {} s.assay.keys (rqWorld rq)
    if k.sectionKey.isSome then (codeNotPermitted, [], s)
    else match k.pair.bind (fun d => sm2Decrypt d.toNat b) with
      | none => (codeSignatureInvalid, [], s)
      | some m =>
        (codeDone, [], s.modAssay fun y =>
          { y with keys := tput y.keys (rqWorld rq) { k with sectionKey := some (BitVec.ofNat 128 (leNat m)) } })

/-! ### Images (16 R367, R371) -/

/-- IMAGE_LOAD (R371). -/
def execImageLoad (rq : AssayReq) (s : State) : Out :=
  s.serve cmdImageLoad rq fun b s =>
    if !s.placementAccepted (rqWorld rq) (mapPairs b) then (codePlacementRefused, [], s)
    else s.loadImage (rqWorld rq) (field rq.bytes 16 2) (field rq.bytes 20 8) (rq.seq % 2 ^ 32) b

/-- IMAGE_UNLOAD (R367): an unknown handle gives IMAGE_INVALID. -/
def execImageUnload (rq : AssayReq) (s : State) : Out :=
  s.serve cmdImageUnload rq fun _ s =>
    let h := field rq.bytes 16 4
    let mine := fun (i : Image) => i.handle == h && i.world == (rqWorld rq)
    if s.images.any mine then
      (codeDone, [], (s.images.filter mine).foldl (fun u i => u.retime i.world i.timetable)
        { s with images := s.images.filter (fun i => !mine i) })
    else (codeImageInvalid, [], s)

/-! ### REPORT (16 R374) -/

/-- The distinguishing identifier `Burcon-YK9`. -/
def burconId : List Byte := [0x42, 0x75, 0x72, 0x63, 0x6F, 0x6E, 0x2D, 0x59, 0x4B, 0x39]

/-- A report's entry of an image. -/
def imageEntry (i : Image) : List Byte :=
  digestBytes i.digest ++ digestBytes (i.rewritten.getD 0) ++ leBytes 4 i.handle ++ leBytes 1 (hdrFlags i.header % 4)
    ++ leBytes 1 (hdrStepping i.header) ++ zeros 2

/-- Bytes 0 to 831 of a report. -/
def State.reportBody (s : State) (w seq : Nat) (user : List Byte) : List Byte :=
  let hm := fun (n : Nat) => digestBytes (s.hallmark n)
  let own := if w = 0 then zeros 64 else hm (2 * w) ++ hm (2 * w + 1)
  let imgs := (s.images.filter (fun i => i.world == w)).take 8
  leBytes 4 0x52414B59 ++ leBytes 2 1 ++ leBytes 1 s.assay.lifecycle ++ leBytes 1 w ++ leBytes 8 s.assay.deviceId.toNat
    ++ leBytes 8 seq ++ leBytes 8 s.tick.toNat ++ padTo 32 user ++ hm 0 ++ hm 1 ++ own ++ leBytes 1 (s.world w).flags
    ++ leBytes 1 imgs.length ++ zeros 62 ++ padTo 576 (imgs.flatMap imageEntry)

/-- REPORT (R374), signed with the device attestation key. -/
def execReport (rq : AssayReq) (s : State) : Out :=
  s.serve cmdReport rq fun _ s =>
    let b := s.reportBody (rqWorld rq) rq.seq ((rq.bytes.drop 32).take 32)
    let r := s.draw
    let sig := match s.assay.attestKey with
      | some d => sm2Sign burconId (d.toNat % (sm2N - 2) + 1) (r.1.toNat % (sm2N - 1) + 1) b
      | none => zeros 64
    (codeDone, b ++ sig, r.2)

/-! ### Departure (16 R378) -/

/-- Step 1: RESETTING; the world's tasks are to end as a kill, its queues are empty, its imports invalid and its rings
detached. -/
def State.beginDeparture (w : Nat) (s : State) : State :=
  let s1 := s.modWorld w fun x => { x with state := 2, puntBase := 0, mgmtBase := 0 }
  let s2 := (List.range 8).foldl (fun s p => s.modQueue w p (fun _ => [])) s1
  let mine := (s.world w).clusters
  let s3 := { s2 with
    imports := s2.imports.map fun p => (p.1, if p.2.exporter = w ∨ p.2.importer = w then
      { p.2 with flags := p.2.flags / 2 * 2 } else p.2)
    cairns := s2.cairns.filter (fun c => !mine.getLsbD (c.core / 48)) }
  (s.tasks.filter (fun t => t.world == w)).foldl (fun s t =>
    if t.clusters.any (fun g => (s.cluster g).streaming.isSome) then
      { s.killTask t with restores := s.restores.filter (fun r => r.clusters != t.clusters) }
    else s.preempt t.id 2) s3

/-- Whether the tasks of every RESETTING world have ended. -/
def State.departed (s : State) : Bool := s.tasks.all (fun t => (s.world t.world).state != 2)

/-- A frame of 64 KiB that holds an address. -/
def frameOf (a : Nat) : Nat := a / 65536

/-- The leaf frames, then the table frames, of the table at `tbl`, d levels above the leaves (R378): of the entries that a walk takes
(11 R251). -/
def State.treeFrames : Nat → Nat → State → List Nat × List Nat
  | 0, _, _ => ([], [])
  | d + 1, tbl, s =>
    (List.range 512).foldl (fun acc i =>
      let e := s.phys (tbl + 8 * i) 8
      let a := bits e 40 12 * 4096
      if bits e 0 0 = 0 ∨ bits e 63 41 ≠ 0 ∨ bits e 11 4 ≠ 0 ∨ (bits e 1 1 = 1 ∧ d ≠ 1) ∨ poolTop ≤ a then acc
      else if bits e 1 1 = 1 then
        if a % largePage ≠ 0 then acc else (acc.1 ++ (List.range 512).map (fun j => frameOf a + j), acc.2)
      else if d = 0 then if a % 65536 ≠ 0 then acc else (acc.1 ++ [frameOf a], acc.2)
      else
        let r := s.treeFrames d a
        (acc.1 ++ r.1, acc.2 ++ r.2)) ([], [frameOf tbl])

/-- The scrub list of a world: every leaf frame, the page-table frames, and the segment-table frame. -/
def State.scrubList (w : Nat) (s : State) : List Nat :=
  let x := s.world w
  let r := s.treeFrames 4 (x.pageRoot * 4096)
  (r.1 ++ r.2 ++ [x.segments]).eraseDups

/-- The bytes of a scrub list: four for each frame, its number. -/
def listBytes (l : List Nat) : List Byte := l.flatMap (leBytes 4)

/-- The frames of a list's bytes. -/
def listFrames (b : List Byte) : List Nat := (List.range (b.length / 4)).map fun i => field b (4 * i) 4

/-- Writes a scrub list at an address of world 0's, whole lines in plain (16 R378). -/
def State.storeList (a : Nat) (b : List Byte) (s : State) : State :=
  (List.range ((b.length + 63) / 64)).foldl (fun s n =>
    s.writeHbm 0 (a / 64 + n) false (Line.ofBytes (padTo 64 ((b.drop (64 * n)).take 64)) 0 false)) s

/-- Steps 2 to 4: keys destroyed, clusters returned, the scrub list written into a frame of world 0's and recorded. DESIGN CHOICE
(log entry 46): the spec gives neither the frame nor the width of the list's entries. -/
def State.finishDeparture (w : Nat) (s : State) : State :=
  let s1 := (s.modAssay fun y => { y with keys := tput y.keys w {} }).modFunc w fun f => { f with resetting := false }
  let l := s1.scrubList w
  let gs := (List.range 96).filter (fun g => (s.world w).clusters.getLsbD g)
  let s2 := gs.foldl (fun s g => (s.dropAbsorbs g).passCluster g 0) s1
  let b := listBytes l
  let a := Config.scrubFrame w * 65536
  let s3 := (s2.storeList a b).modAssay fun y =>
    { y with scrubs := y.scrubs ++ [{ world := w, address := a, length := b.length, frames := l, pointer := 0, digest := digestOf b }] }
  { s3.modWorld w (fun x => { x with state := 3 }) with
    images := s3.images.filter (fun i => i.world != w)
    imageSets := s3.imageSets.filter (fun i => i.world != w)
    parks := s3.parks.filter (fun p => !s3.imageSets.any (fun i => i.world == w && i.seq == p.seq)) }

/-- WORLD_RESET (R378), a command or a function-level reset (17 R389): first the world's tasks end; then its keys are destroyed
and its clusters return, and the reply is written as it reaches SCRUBBING. -/
def execWorldReset (rq : AssayReq) (s : State) : Out :=
  match s.assay.queue with
  | [] => .next s
  | h :: rest =>
    if h ≠ rq ∨ (rqCode rq) ≠ cmdWorldReset ∨ s.assay.serving = false then .next s
    else if (s.world (rqWorld rq)).state = 2 ∧ 1 ≤ (rqWorld rq) then
      if s.departed then
        .next (((s.finishDeparture (rqWorld rq)).modAssay fun y => { y with queue := rest }).answer rq codeDone [])
      else .next s
    else
      let s1 := s.modAssay fun y => { y with queue := rest }
      if rq.fromHost then
        if (s.world (rqWorld rq)).state = 1 then .next (s.beginDeparture (rqWorld rq))
        else .next (s1.modFunc (rqWorld rq) fun f => { f with resetting := false })
      else if (s.world rq.world).state ≠ 1 then .next s1
      else match assayCmd cmdWorldReset with
        | none => .next s1
        | some c =>
          let st := s.refusal c rq []
          if st ≠ codeDone then .next (s1.answer rq st []) else .next (s.beginDeparture (rqWorld rq))

/-! ### Debug unlock (16 R376, R377) -/

/-- The checks of a debug token: DONE, or the refusal. -/
def State.tokenStatus (s : State) (t : List Byte) : Nat :=
  let key := (t.drop 128).take 64
  let good := digestOf key == s.assay.authority
    && sm2Verify burconId (beNat (key.take 32)) (beNat (key.drop 32)) (t.take 64) ((t.drop 64).take 64)
    && field t 0 8 == s.assay.deviceId.toNat && s.assay.nonceOut == some (BitVec.ofNat 256 (field t 16 32))
    && decide (s.tick.toNat ≤ field t 48 8)
  if !good then codeSignatureInvalid
  else if byteAt t 8 = s.assay.lifecycle ∧ (s.assay.lifecycle = 1 ∨ s.assay.lifecycle = 2) then codeDone
  else codeLifecycleIllegal

/-- The tenant worlds in a state. -/
def State.tenants (s : State) (st : Nat) : List Nat := ((List.range 16).map (· + 1)).filter (fun w => (s.world w).state == st)

/-- Steps 2 to 4 of R377 once the worlds' tasks have ended. -/
def State.unlock (q : AssayReq) (rest : List AssayReq) (d : BitVec 256) (s : State) : State :=
  let s1 := (s.tenants 2).foldl (fun s w =>
    (s.finishDeparture w).mgmtCairnOn 0 w 10 codeDebugUnlock s.tick.toNat 0 0) s
  let s2 := (s1.extendHallmark 1 (4 :: digestBytes d)).modAssay fun y =>
    { y with queue := rest, unlock := none, lifecycle := 4, debugOpen := true }
  s2.answer q codeDone []

/-- DEBUG_TOKEN (R376, R377): every tenant world departs before the debug port opens. -/
def execDebugToken (rq : AssayReq) (s : State) : Out :=
  match s.assay.queue, assayCmd cmdDebugToken, s.assay.unlock with
  | h :: rest, some c, none =>
    if h ≠ rq ∨ (rqCode rq) ≠ cmdDebugToken ∨ s.assay.serving = false then .next s
    else
      let s1 := s.modAssay fun y => { y with queue := rest }
      if (s.world rq.world).state ≠ 1 then .next s1
      else
        let r := s.buffer rq (12, 192)
        let st := s.refusal c rq r.1
        if st ≠ codeDone then .next (s1.answer rq st [])
        else
          let ts := s.tokenStatus r.1
          if ts ≠ codeDone then .next ((s1.modAssay fun y => { y with nonceOut := none }).answer rq ts [])
          else
            let s2 := r.2.modAssay fun y =>
              { y with nonceOut := none, lifecycle := 3, debugScope := byteAt r.1 9, unlock := some (digestOf (r.1.take 128)) }
            .next ((s.tenants 1).foldl (fun s w => s.beginDeparture w) s2)
  | h :: rest, _, some d =>
    if h ≠ rq ∨ s.departed = false then .next s else .next (s.unlock rq rest d)
  | _, _, _ => .next s

/-! ### The queue (16 R366) -/

/-- The outcome of the command that the controller executes next, once it is serving and its reply can be written; a command
that waits for tasks to end waits here. -/
def State.assayDue (s : State) : Option Out :=
  match s.assay.queue with
  | [] => none
  | q :: _ =>
    let waits := (s.assay.unlock.isSome || ((rqCode q) == cmdWorldReset && (s.world (rqWorld q)).state == 2)) && !s.departed
    if s.assay.serving = false ∨ waits = true ∨ s.replyOpen q = false then none
    else if (rqCode q) = cmdNonce then some (execNonce q s)
    else if (rqCode q) = cmdDebugToken then some (execDebugToken q s)
    else if (rqCode q) = cmdWorldCreate then some (execWorldCreate q s)
    else if (rqCode q) = cmdWorldConfig then some (execWorldConfig q s)
    else if (rqCode q) = cmdKeyImport then some (execKeyImport q s)
    else if (rqCode q) = cmdImageLoad then some (execImageLoad q s)
    else if (rqCode q) = cmdImageUnload then some (execImageUnload q s)
    else if (rqCode q) = cmdWorldReset then some (execWorldReset q s)
    else if (rqCode q) = cmdReport then some (execReport q s)
    else if (rqCode q) = cmdExtend then some (execExtend q s)
    else if (rqCode q) = cmdDeploy then some (execDeploy q s)
    else if (rqCode q) = cmdRetire then some (execRetire q s)
    else if (rqCode q) = cmdFuseRead then some (execFuseRead q s)
    else none

/-- A request whose code R367 does not list is refused with OPERAND_ILLEGAL (R368, step 3). -/
def State.refuseUnknown (s : State) : State :=
  match s.assay.queue with
  | [] => s
  | q :: rest =>
    if s.assay.serving = false ∨ (assayCmd (rqCode q)).isSome = true ∨ s.replyOpen q = false then s
    else
      let s1 := s.modAssay fun y => { y with queue := rest }
      if (s.world q.world).state ≠ 1 then s1 else s1.answer q codeOperandIllegal []

/-! ### Scrub (16 R379, R380) and provisioning (16 R375) -/

/-- Scrubs one frame: plain zeros with no encryption and no owner. -/
def State.scrubFrame (f : Nat) (s : State) : State :=
  { s with hbm := (List.range pageLines).foldl (fun h i => h.put (f * pageLines + i) (zeros 64) {}) s.hbm }

/-- A frame's die has its HBM (17 R390): frame f lies in stack f mod 24 (08 R189), and each die has two. -/
def State.frameUp (s : State) (f : Nat) : Bool := s.bring.getLsbD (f % 24 / 2)

/-- One frame of the first scrub that has one left; the persistent pointer advances after every 512 frames. -/
def State.scrubStep (s : State) : State :=
  match s.assay.scrubs.find? (fun x => decide (x.done < x.frames.length)) with
  | none => s
  | some x =>
    let f := x.frames.getD x.done 0
    if !s.frameUp f then s
    else (s.scrubFrame f).modAssay fun y =>
      { y with scrubs := y.scrubs.map fun z => if z.world = x.world then
          { z with done := z.done + 1, pointer := (z.done + 1) / 512 * 512 } else z }

/-- SCRUB_COMPLETE (R379): the list is done; the record is cleared and the world is FREE. -/
def execScrubComplete (wd : Nat) (s : State) : Out :=
  match s.assay.scrubs.find? (fun x => x.world == wd) with
  | none => .next s
  | some x =>
    if x.done < x.frames.length then .next s
    else
      let s1 := (s.modAssay fun y => { y with scrubs := y.scrubs.filter (fun z => z.world != wd) }).modWorld wd fun _ => {}
      .next (s1.mgmtCairnOn 0 wd 10 codeDone s.tick.toNat 0 0)

/-- PROVISIONING (R375): on the factory interface, from BLANK, the device attestation key is fused. -/
def execProvisioning (ky : BitVec 256) (s : State) : Out :=
  if s.assay.fused = 0 then .next (s.modAssay fun y => { y with fused := 1, lifecycle := 1, attestKey := some ky })
  else .next s

end Sys2Proof.Machine
end

