-- ==== Sys2Proof/Machine/Memory.lean ====
section
/-! DEFINITION. The memory group 0x40 to 0x5B (09 R201 to R212). A scratchpad access performs on cycle issue + 1, which
nothing of the core side separates from its dispatch (08 R181), so its effect is made at dispatch. -/

namespace Sys2Proof.Machine

/-- A scalar load of `n` bytes at [cA, d]; `f` widens the value read. -/
def State.loadS (d a : BitVec 5) (im : BitVec 9) (n : Nat) (f : Nat → Word) (s : State) : Out :=
  s.legal .notExchange fun s =>
    s.load (aliasClass a) (s.addrC a im.toInt) n n none fun bs s =>
      .next (s.emitS s.hereCore.loadLat d (f (leNat bs)))

/-- LD.s8 to LD.32 (R204). -/
def execLdS8 (d a : BitVec 5) (im : BitVec 9) (s : State) : Out := s.loadS d a im 1 (fun v => wrap32 (sext v 8))
def execLdZ8 (d a : BitVec 5) (im : BitVec 9) (s : State) : Out := s.loadS d a im 1 (BitVec.ofNat 32)
def execLdS16 (d a : BitVec 5) (im : BitVec 9) (s : State) : Out := s.loadS d a im 2 (fun v => wrap32 (sext v 16))
def execLdZ16 (d a : BitVec 5) (im : BitVec 9) (s : State) : Out := s.loadS d a im 2 (BitVec.ofNat 32)
def execLd32 (d a : BitVec 5) (im : BitVec 9) (s : State) : Out := s.loadS d a im 4 (BitVec.ofNat 32)

/-- A scalar store of the low `n` bytes of sD. -/
def State.storeS (d a : BitVec 5) (im : BitVec 9) (n : Nat) (s : State) : Out :=
  s.legal .notExchange fun s => s.store (aliasClass a) (s.addrC a im.toInt) n (leBytes n (s.rs d).toNat)

/-- ST.8 to ST.32 (R204). -/
def execSt8 (d a : BitVec 5) (im : BitVec 9) (s : State) : Out := s.storeS d a im 1
def execSt16 (d a : BitVec 5) (im : BitVec 9) (s : State) : Out := s.storeS d a im 2
def execSt32 (d a : BitVec 5) (im : BitVec 9) (s : State) : Out := s.storeS d a im 4

/-- LD2 and ST2 (R204). -/
def execLd2 (d a : BitVec 5) (im : BitVec 9) (s : State) : Out :=
  s.limit (isEven d) fun s => s.legal .notExchange fun s =>
    s.load (aliasClass a) (s.addrC a im.toInt) 8 8 none fun bs s =>
      .next ((s.emitS s.hereCore.loadLat d (BitVec.ofNat 32 (leNat (bs.take 4)))).emitS s.hereCore.loadLat (d + 1)
        (BitVec.ofNat 32 (leNat (bs.drop 4))))
def execSt2 (d a : BitVec 5) (im : BitVec 9) (s : State) : Out :=
  s.limit (isEven d) fun s => s.legal .notExchange fun s =>
    s.store (aliasClass a) (s.addrC a im.toInt) 8 (leBytes 4 (s.rs d).toNat ++ leBytes 4 (s.rs (d + 1)).toNat)

/-- A part loaded from bytes (R205). -/
def State.landPart (d : BitVec 5) (w h : BitVec 2) (bs : List Byte) (s : State) : Out :=
  .next (s.emitPart s.hereCore.loadLat d w h (widthBits w) [leNat bs] 0)

/-- LDV and STV (R205). -/
def execLdv (d a : BitVec 5) (w h : BitVec 2) (im : BitVec 5) (s : State) : Out :=
  s.legal .notExchange fun s =>
    s.load (aliasClass a) (s.addrC a (32 * im.toInt)) (widthBits w / 8) (widthBits w / 8) none (State.landPart d w h)
def execStv (d a : BitVec 5) (w h : BitVec 2) (im : BitVec 5) (s : State) : Out :=
  s.legal .notExchange fun s =>
    s.store (aliasClass a) (s.addrC a (32 * im.toInt)) (widthBits w / 8) (leBytes (widthBits w / 8) (partOf (s.rv d) w h))

/-- The tag operand of LDT and LDVT (R206): bits 31..12 must be zero. -/
def State.okTag (s : State) (b : BitVec 5) : Bool := decide ((s.rs b).toNat < 4096)

/-- LDT and LDVT (R206). -/
def execLdt (d a b : BitVec 5) (s : State) : Out :=
  s.limit (s.okTag b) fun s => s.legal .notExchange fun s =>
    s.load (aliasClass a) (s.addrS a) 4 4 (some (s.rs b).toNat) fun bs s =>
      .next (s.emitS s.hereCore.loadLat d (BitVec.ofNat 32 (leNat bs)))
def execLdvt (d a b : BitVec 5) (w h : BitVec 2) (s : State) : Out :=
  s.limit (s.okTag b) fun s => s.legal .notExchange fun s =>
    s.load (aliasClass a) (s.addrS a) (widthBits w / 8) (widthBits w / 8) (some (s.rs b).toNat) (State.landPart d w h)

/-! ### Tensor accesses (R207, R208) -/

/-- A tensor load: lanes out of bounds are zero. -/
def State.tensorLoad (cls : Nat) (t : Tensor) (tag : Option Nat) (d : BitVec 5) (w h : BitVec 2) (s : State) : Out :=
  s.check t.rangeFault [] fun s =>
    let as := t.addrs
    let x : Touch := { lines := distinct (as.map lineOf), reads := distinct (as.flatMap (fun a => wordsOf a t.e)), tag := tag }
    s.check (s.hereCore.touchFault x) x.reads fun s =>
      s.usePort x.lines fun s =>
        let bytes := as.flatMap (fun a => span a t.e)
        let vs := s.loadBytes (cls % 4) bytes
        let vals := t.lanes.foldl (fun (acc : List Nat × List Byte) l =>
          match l with
          | some _ => (acc.1 ++ [leNat (acc.2.take t.e)], acc.2.drop t.e)
          | none => (acc.1 ++ [0], acc.2)) ([], vs)
        let s1 := ((s.spendOpen (cls % 4) bytes).readWords x.reads).loadHold
        .next (s1.emitPart s1.hereCore.loadLat d w h (8 * t.e) vals.1 0)

/-- TLD (R207). -/
def execTld (d : BitVec 5) (k : BitVec 4) (b : BitVec 5) (w h : BitVec 2) (s : State) : Out :=
  match s.tensor k b w 0 with
  | none => .next (s.takeTrap codeOperandIllegal)
  | some t => s.legal .notExchange fun s => s.tensorLoad (aliasClass k) t none d w h

/-- TLDT (R207): the tag stands in the register after the coordinates. -/
def execTldt (d : BitVec 5) (k : BitVec 4) (b : BitVec 5) (w h : BitVec 2) (s : State) : Out :=
  match s.tensor k b w 1 with
  | none => .next (s.takeTrap codeOperandIllegal)
  | some t =>
    let r := shapeRank (tget 0 s.hereCore.shapes k.toNat)
    s.legal .notExchange fun s =>
      s.tensorLoad (aliasClass k) t (some ((s.here.rc (b.toNat + r)).toNat % 4096)) d w h

/-- The bytes of a tensor store. Where lanes share a byte the spec names no winner: a free choice picks one. -/
def State.scatter (ws : List (Nat × Byte)) (s : State) : List (Nat × Byte) :=
  let as := distinct (ws.map (·.1))
  (List.zip (List.range as.length) as).map fun p =>
    let vs := (ws.filter (fun q => q.1 == p.2)).map (·.2)
    (p.2, if vs.length ≤ 1 then vs.headD 0 else vs.getD (Config.freeChoice (s.fresh + p.1) % vs.length) 0)

/-- TST (R207). Elements in two lines of one bank conflict, though a store takes no port. -/
def execTst (d : BitVec 5) (k : BitVec 4) (b : BitVec 5) (w h : BitVec 2) (s : State) : Out :=
  match s.tensor k b w 0 with
  | none => .next (s.takeTrap codeOperandIllegal)
  | some t =>
    s.legal .notExchange fun s =>
      s.check t.rangeFault [] fun s =>
        let as := t.addrs
        let bytes := as.flatMap (fun a => span a t.e)
        let words := distinct (as.flatMap (fun a => wordsOf a t.e))
        let x : Touch := {
          lines := distinct (as.map lineOf)
          parts := words.filter (fun q => !(span (8 * q) 8).all bytes.contains) }
        s.check (s.hereCore.touchFault x) x.parts fun s =>
          if selfConflict (x.lines.map (fun l => (s.t + 1, l))) then .next s.bankConflict
          else
            let ls := lanesOf (s.rv d) w h (8 * t.e)
            let ws := (List.zip t.lanes ls).flatMap (fun p =>
              match p.1 with
              | some a => List.zip (span a.toNat t.e) (leBytes t.e p.2)
              | none => [])
            let cells := s.scatter ws
            let s1 := if cells.length = ws.length then s else { s with fresh := s.fresh + cells.length }
            s1.withhold (aliasClass k) cells .next

/-! ### Local atomics (R209, R210) -/

/-- A local atomic at [sA]: `f old` is the new word, if a write is made, with the flags of the result. -/
def State.atomic (d a : BitVec 5) (f : Nat → State → Option Nat × Nat) (s : State) : Out :=
  s.legal .notExchange fun s =>
    s.load (aliasClass a) (s.addrS a) 4 4 none fun bs s =>
      let old := leNat bs
      let r := f old s
      let land (s : State) : State :=
        s.emit s.hereCore.loadLat (.s d.toNat) mask32 (BitVec.ofNat 1024 old) (BitVec.ofNat 32 r.2)
      match r.1 with
      | none => .next (land s)
      | some v => s.withhold (aliasClass a) (List.zip (span (s.rs a).toNat 4) (leBytes 4 v)) (fun s => .next (land s))

/-- The signed or unsigned order of F (R209). -/
def atomicLess (f : BitVec 4) (x y : Nat) : Bool :=
  if f = 0 then decide (sext x 32 < sext y 32) else decide (x < y)

def execAadd (d a b : BitVec 5) (f : BitVec 4) (s : State) : Out :=
  s.limit (f == 0) fun s => s.atomic d a (fun old s => (some ((old + (s.rs b).toNat) % 2 ^ 32), 0))
def execAmin (d a b : BitVec 5) (f : BitVec 4) (s : State) : Out :=
  s.limit (f.toNat ≤ 1) fun s =>
    s.atomic d a (fun old s => (some (if atomicLess f (s.rs b).toNat old then (s.rs b).toNat else old), 0))
def execAmax (d a b : BitVec 5) (f : BitVec 4) (s : State) : Out :=
  s.limit (f.toNat ≤ 1) fun s =>
    s.atomic d a (fun old s => (some (if atomicLess f old (s.rs b).toNat then (s.rs b).toNat else old), 0))
def execAswp (d a b : BitVec 5) (f : BitVec 4) (s : State) : Out :=
  s.limit (f == 0) fun s => s.atomic d a (fun _ s => (some (s.rs b).toNat, 0))
def execAcas (d a b : BitVec 5) (f : BitVec 4) (s : State) : Out :=
  s.limit (f == 0) fun s =>
    s.atomic d a (fun old s => (if old = (s.rs d).toNat then some (s.rs b).toNat else none, 0))
def execAfadd (d a b : BitVec 5) (f : BitVec 4) (s : State) : Out :=
  s.limit (f == 0) fun s =>
    s.atomic d a (fun old s => let r := fAdd fp32 s.rm false old (s.rs b).toNat; (some r.1, r.2))

/-! ### Line metadata (R211) and SFNC (R212) -/

/-- An access to the metadata of the line that holds [cA, d]: checks 1 to 3 and 7 of R202 (no form, no poison). -/
def State.metaLine (a : BitVec 5) (im : BitVec 9) (al : Nat) (s : State) (k : Nat → State → Out) : Out :=
  s.check (rangeFault (s.addrC a im.toInt) al al) [] fun s =>
    let l := lineOf (s.addrC a im.toInt).toNat
    s.check (s.hereCore.touchFault { lines := [l], form := false }) [] fun s => s.usePort [l] (k l)

/-- The value limit of TAGW (R211). -/
def State.okTagw (s : State) (d : BitVec 5) : Bool := decide ((s.rs d).toNat < 0xFFF)

def execTagw (d a : BitVec 5) (im : BitVec 9) (s : State) : Out :=
  s.limit (s.okTagw d) fun s =>
    s.metaLine a im 64 fun l s =>
      .next (s.modHereCore fun c =>
        let c := c.keepOld l
        { c with tags := tset 0 c.tags l ((s.rs d).setWidth 12), fieldErrs := tset false c.fieldErrs l false })
def execTagr (d a : BitVec 5) (im : BitVec 9) (s : State) : Out :=
  s.metaLine a im 1 fun l s =>
    .next ((s.modHereCore (Core.passField l)).loadHold.emitS s.hereCore.loadLat d ((s.hereCore.tag l).setWidth 32))
def execFormr (d a : BitVec 5) (im : BitVec 9) (s : State) : Out :=
  s.legal .notExchange fun s =>
    s.metaLine a im 1 fun l s =>
      let c := s.hereCore
      .next ((s.modHereCore (Core.passField l)).loadHold.emitS c.loadLat d
        (BitVec.ofNat 32 ((if c.form l then 2 else 0) + (if c.poi l then 1 else 0))))

/-- SFNC (R212): every byte that the context holds in the buffer becomes visible to every class. -/
def execSfnc (s : State) : Out :=
  .next (s.modHereCore fun c =>
    { c with wbuf := c.wbuf.map fun e =>
        if e.ctx = s.cur.x then e.show else e })

def execZline (a : BitVec 5) (im : BitVec 9) (s : State) : Out :=
  s.legal .notExchange fun s =>
    s.metaLine a im 64 fun l s => .next (s.modHereCore fun c => (c.keepOld l).putLine l {})

end Sys2Proof.Machine
end

