-- ==== Sys2Proof/Machine/Platform.lean ====
section
/-! DEFINITION. The host link, bring-up, the self-test, and supply and clock (17 R381, R382, R386, R389 to R393, 12 R298, 16
R380, 01 R6). -/

namespace Sys2Proof.Machine

/-! ### BRING (17 R390) -/

/-- What BRING records of the steps that have completed. DESIGN CHOICE (log entry 47): service grows in the order of 17 R390's table, so
a step that completes before its turn is recorded when its turn comes: the host link after the Assay controller, the dies after the
host link, the calibration after every die, and the pipelines after the calibration; the steps of single dies keep no order. -/
def bringOf (d : Word) : Word :=
  let host := d.getLsbD 13 && d.getLsbD 12
  let tick := host && d.getLsbD 14 && d.extractLsb' 0 12 == 0xFFF
  let bit := fun (b : Bool) (n : Nat) => if b then BitVec.twoPow 32 n else 0
  (if host then d &&& 0xFFF else 0) ||| bit (d.getLsbD 13) 13 ||| bit host 12 ||| bit tick 14 ||| bit (tick && d.getLsbD 15) 15

/-- Steps of bring-up complete; vector 9 announces a change of BRING. -/
def State.setBring (m : Word) (s : State) : State :=
  let d := s.bringDone ||| m
  if bringOf d = s.bring then { s with bringDone := d }
  else { s with bring := bringOf d, bringDone := d }.interrupt 0 0 9

/-! ### Function registers (17 R382, R386) -/

/-- Vectors of a function. -/
def vectorsOf (fn : Nat) : Nat := if fn = 0 then 16 else 8

/-- Sends a vector that is pending and no longer masked. -/
def State.sendPending (fn v : Nat) (s : State) : State :=
  let f := s.func fn
  if f.pendingBits.getLsbD v && !f.masked.getLsbD v && !f.allMasked then
    (s.modFunc fn fun f => { f with pendingBits := f.pendingBits &&& ~~~(BitVec.twoPow 16 v) }).interrupt fn fn v
  else s

/-- A vector is masked or unmasked; one that is unmasked while pending is sent. -/
def State.maskVector (fn v : Nat) (m : Bool) (s : State) : State :=
  let b := BitVec.twoPow 16 v
  if m then s.modFunc fn fun f => { f with masked := f.masked ||| b }
  else (s.modFunc fn fun f => { f with masked := f.masked &&& ~~~b }).sendPending fn v

/-- A write of the MSI-X table: bytes 0 to 11 of an entry are its address and data, and bit 0 of bytes 12 to 15 masks it. -/
def State.writeMsix (fn o wd : Nat) (x : Nat) (s : State) : State :=
  let v := o / 16
  let at0 := o % 16
  let low := Nat.min wd (12 - at0)
  let s1 := s.modFunc fn fun f =>
    let e := leBytes 12 (tget 0 f.msix v).toNat
    { f with msix := tset 0 f.msix v (BitVec.ofNat 96 (leNat ((patch e at0 (leBytes low x)).take 12))) }
  if at0 + wd = 16 then s1.maskVector fn v (x / 2 ^ (8 * (wd - 4)) % 2 == 1) else s1

/-- The first offset by which the host reaches a function's configuration space (17 R381), past its register page, and its size.
DESIGN CHOICE (log entry 64): the spec names no event of a configuration access, so REGISTER_WRITE and the reads carry them too. -/
abbrev configBase : Nat := 0x1000
abbrev configBytes : Nat := 0x1000

/-- A configuration write (17 R381): its bytes, and the vectors that it unmasks. -/
def State.writeConfig (fn o wd x : Nat) (s : State) : State :=
  let s1 := s.modFunc fn fun f =>
    { f with config := (List.range wd).foldl (fun t i => tset 0 t (o + i) (x / 2 ^ (8 * i) % 256)) f.config }
  (List.range (vectorsOf fn)).foldl (fun s v => s.sendPending fn v) s1

/-- Whether an access is one of a function's configuration space: 1, 2 or 4 bytes, aligned. -/
def configAccess (off wd : Nat) : Bool :=
  decide (configBase ≤ off) && decide (off + wd ≤ configBase + configBytes) && (wd == 1 || wd == 2 || wd == 4) && off % wd == 0

/-- FSTAT (R384): the state of the function's world, 1 for the physical function, and the lifecycle. -/
def State.fstat (fn : Nat) (s : State) : Nat :=
  (if fn = 0 then 1 else (s.world fn).state % 8) + s.assay.lifecycle % 16 * 2 ^ 8

/-- What a read of exactly a register's width answers (R382, R386): a write-only register, an offset that the table does not list and a
register that a virtual function does not have read as zero. -/
def State.readRegister (fn off wd : Nat) (s : State) : Nat :=
  let f := s.func fn
  let pf := fun (x : Nat) => if fn = 0 then x else 0
  if off = 0x008 ∧ wd = 4 then f.lstat.toNat
  else if off = 0x00C ∧ wd = 4 then s.fstat fn
  else if off = 0x030 ∧ wd = 4 then pf s.bring.toNat
  else if off = 0x038 ∧ wd = 8 then pf s.bports.toNat
  else if off = 0x040 ∧ wd = 4 then pf s.selft.toNat
  else if 0x800 ≤ off ∧ off < 0x800 + 16 * vectorsOf fn ∧ (wd = 4 ∨ wd = 8) ∧ off % wd = 0 then
    let v := (off - 0x800) / 16
    let e := (tget 0 f.msix v).toNat + (if f.masked.getLsbD v then 2 ^ 96 else 0)
    e / 2 ^ (8 * (off % 16)) % 2 ^ (8 * wd)
  else if off = 0xC00 ∧ wd = 8 then f.pendingBits.toNat
  else if configAccess off wd then leNat ((List.range wd).map fun i => BitVec.ofNat 8 (tget 0 f.config (off - configBase + i)))
  else 0

/-- SELFT_GO (R391): the test accepts a fenced cluster of world 0 and takes 2^23 cycles; GO for any other sets RES to 3 at
once. DESIGN CHOICE (log entry 65): during a test a GO that the test would accept starts none. -/
def execSelftGo (v : Word) (s : State) : Out :=
  let g := bits v.toNat 6 0
  let put := fun (res : Nat) => { s with selft := BitVec.ofNat 32 (res * 2 ^ 29 + g) }
  let old := bits s.selft.toNat 30 29
  if v.getLsbD 31 = false then .next (put old)
  else if 96 ≤ g ∨ (s.cluster g).fenced = false ∨ (s.cluster g).world ≠ 0 then .next (put 3)
  else if s.selftDone.isSome = true then .next (put old)
  else .next { put 1 with selftDone := some (s.now + 2 ^ 23, g) }

/-- A core whose self-test has passed (R391): its memories are zero with reset metadata, those of lent banks too, and its registers stand
as the fence left them. DESIGN CHOICE (log entry 65): no context is launched there and nothing that the fence stopped goes on. -/
def Core.lifted (c : Core) : Core :=
  { c with
    spad := [], tags := [], forms := [], errs := [], fieldErrs := [], fixes := [], imem := [], imemErrs := [], wbuf := [], pending := []
    heads := [], sideOld := []
    ctxs := c.ctxs.map fun p => (p.1, { p.2 with status := .never, flight := [] }) }

/-- A cluster whose self-test has passed: its fence is lifted, and its instruction memories hold no image. -/
def Cluster.lifted (cl : Cluster) : Cluster :=
  { cl with
    fenced := false, fenceCode := 0, image := none, triggers := [], trap := none, side := [], reads := [], bumps := []
    cores := cl.cores.map fun p => (p.1, p.2.lifted) }

/-- A memory as a test that fails leaves it: every byte a free value. -/
def freeCells (n k : Nat) (im : Bool) (size : Nat) : List Host.Cell :=
  (List.range size).foldl (fun m a => Memory.write m a (Config.selfTestByte n k im a)) []

/-- A core whose memories a failing test has written (R391): every word whole, so that it holds fresh check bits (08 R175). -/
def Core.tested (n k : Nat) (c : Core) : Core :=
  { c with
    spad := freeCells n k false spadBytes, imem := freeCells n k true imemBytes
    errs := [], imemErrs := [], fixes := c.fixes.filter (fun x => x.field) }

/-- A cluster whose self-test has failed: every word of its memories has been written, and its fence stands. DESIGN CHOICE (log entry
65): what stands in them then is free, as 17 R391 says what only a pass leaves. -/
def State.testFailed (g : Nat) (s : State) : State :=
  { (List.range 48).foldl (fun s k => s.modCore g k (Core.tested s.fresh k)) s with fresh := s.fresh + 1 }

/-- SELFT_COMPLETE (R391) on the cycle on which the test finishes; vector 10 is sent. -/
def execSelftComplete (pass : Bool) (s : State) : Out :=
  match s.selftDone with
  | none => .next s
  | some (c, g) =>
    if s.now < c then .next s
    else
      let s1 := if pass then s.modCluster g Cluster.lifted else s.testFailed g
      .next ({ s1 with
        selftDone := none, selft := BitVec.ofNat 32 ((if pass then 2 else 3) * 2 ^ 29 + bits s.selft.toNat 6 0) }.interrupt 0 0 10)

/-- REGISTER_WRITE (R382): one aligned access of exactly a register's width; any other is ignored, and so is one to a register
that the function does not have. Past the register page it is an access to configuration space (R381). -/
def execRegisterWrite (fn off wd : Nat) (v : BitVec 64) (s : State) : Out :=
  if 17 ≤ fn then .fault .noSuchInput
  else if off = 0x000 ∧ wd = 8 then execLaunch fn v s
  else if off = 0x010 ∧ wd = 4 then execPtchg fn (v.setWidth 32) s
  else if off = 0x014 ∧ wd = 4 ∧ fn = 0 then execShootw (v.setWidth 32) s
  else if off = 0x018 ∧ wd = 8 ∧ fn = 0 then .next (s.modFunc 0 fun f => { f with shootVa := v })
  else if off = 0x020 ∧ wd = 8 ∧ fn = 0 then .next (s.modFunc 0 fun f => { f with shootLen := v })
  else if off = 0x040 ∧ wd = 4 ∧ fn = 0 then execSelftGo (v.setWidth 32) s
  else if 0x800 ≤ off ∧ off < 0x800 + 16 * vectorsOf fn ∧ (wd = 4 ∨ wd = 8) ∧ off % wd = 0 then
    .next (s.writeMsix fn (off - 0x800) wd v.toNat)
  else if configAccess off wd then .next (s.writeConfig fn (off - configBase) wd v.toNat)
  else .next s

/-! ### Resets of functions and of the link (17 R381, R389) -/

/-- FUNCTION_LEVEL_RESET (R389): the configuration space, the register page and the vectors return to reset at once, and the reset
of the world enters the Assay controller's order (16 R366); one of a world in RESETTING or SCRUBBING changes nothing. -/
def execFunctionLevelReset (fn : Nat) (s : State) : Out :=
  if fn = 0 ∨ 17 ≤ fn then .fault .noSuchInput
  else if (s.world fn).state = 2 ∨ (s.world fn).state = 3 then .next s
  else
    let q : AssayReq := {
      world := 0, cluster := 0, core := 0, fromHost := true, seq := s.assay.seq
      bytes := leBytes 2 cmdWorldReset ++ zeros 10 ++ leBytes 1 fn ++ zeros 51 }
    .next ((s.modFunc fn fun _ => { resetting := true }).modAssay fun y => { y with queue := y.queue ++ [q], seq := y.seq + 1 })

/-- PF_FUNCTION_LEVEL_RESET (R389): the register page, the vectors, and world 0's launch queues. A self-test under way goes on. -/
def execPfFunctionLevelReset (s : State) : Out :=
  let s1 := (List.range 8).foldl (fun s p => s.modQueue 0 p (fun _ => [])) s
  .next { s1.modFunc 0 (fun _ => {}) with selft := 0 }

/-- PCIE_HOT_RESET (R381): the configuration space of every function is reset and every vector masked; no world, task, queue or
table changes. -/
def execPcieHotReset (s : State) : Out :=
  .next ((List.range 17).foldl (fun s n => s.modFunc n fun f => { f with masked := BitVec.allOnes 16, msix := [], config := [] }) s)

/-! ### Bring-up (17 R390, 16 R373, R380, R405) -/

/-- A scrub record that survives a reset: where its list in HBM still verifies against its digest the scrub goes on from the
pointer; otherwise every frame below the carve-out is scrubbed (R380). -/
def Scrub.resume (h : Hbm) (x : Scrub) : Scrub :=
  let b := Memory.readN h.cells x.address x.length
  if digestOf b = x.digest then { x with frames := listFrames b, done := x.pointer, resumed := true }
  else { x with frames := List.range (poolTop / 65536), pointer := 0, done := 0, resumed := true }

/-- HBM after a reset: contents stand after a warm one, and the tree's root is new, so every protected line fails integrity
(R380). -/
def Hbm.rebooted (cold : Bool) (h : Hbm) : Hbm :=
  let bare := h.lines.map fun (p : Nat × HbmLine) => (p.1, { p.2 with owner := none, ctr := 0, mac := 0, key := 0 })
  if cold then {} else { h with lines := bare.filter (fun p => p.2 != {}) }

/-- Power-on or a module reset, and step 1 of bring-up: every item takes its reset value but for the fuses, the scrub records
and, after a warm reset, HBM; the boot ROM measures the firmware, and the Assay controller serves. -/
def State.reboot (cold : Bool) (s : State) : State :=
  let a := s.assay
  let hbm := s.hbm.rebooted cold
  let scrubs := a.scrubs.map (Scrub.resume hbm)
  let s1 : State := { State.reset with
    moduleId := s.moduleId, hbm := hbm
    worlds := scrubs.foldl (fun t x => tput t x.world { state := 3 }) State.reset.worlds
    assay := {
      serving := true, fused := a.fused, lifecycle := a.fused, attestKey := a.attestKey
      deviceId := a.deviceId, authority := a.authority, scrubs := scrubs, draws := a.draws }
    stopSeq := s.stopSeq, fresh := s.fresh, inputs := s.inputs, irqs := s.irqs, sent := s.sent }
  (((s1.extendHallmark 0 Config.bootMeasurement).extendHallmark 1 (leBytes 1 a.fused)).makeKeys 0).setBring (BitVec.twoPow 32 13)

/-- POWER_ON (R390). -/
def execPowerOn (cold : Bool) (s : State) : Out := .next (s.reboot cold)

/-- POWER_FAULT_RESET (R393): the module resets and behaves as after power loss. -/
def execPowerFaultReset (s : State) : Out := .next (s.reboot true)

/-- PCIE_LINK_UP (R390). -/
def execPcieLinkUp (s : State) : Out := .next (s.setBring (BitVec.twoPow 32 12))

/-- HBM_TRAIN (R390). -/
def execHbmTrain (die : Nat) (s : State) : Out :=
  if 12 ≤ die then .fault .noSuchInput else .next (s.setBring (BitVec.twoPow 32 die))

/-- TICK_CALIBRATION (R390). -/
def execTickCalibration (s : State) : Out := .next (s.setBring (BitVec.twoPow 32 14))

/-- PIPELINE_READY (12 R298, R390): world 0 marks a pipeline ready, and sets the owner worlds of bundles of its action memory
(12 R286); BRING records when all are ready. -/
def execPipelineReady (p : ReadyInput) (s : State) : Out :=
  if 36 ≤ p.pipe then .fault .noSuchInput
  else
    let s1 := s.modPipe p.pipe fun x => { x with
      ready := true, owners := p.owners.foldl (fun t q => tset 0 t (q.1 % 1024) q.2) x.owners }
    .next (if (List.range 36).all (fun q => (s1.pipe q).ready) then s1.setBring (BitVec.twoPow 32 15) else s1)

/-! ### Supply (17 R393) -/

/-- SUPPLY_SAG (R393): the clock generator begins to skip core cycles, within 2 ticks. -/
def execSupplySag (s : State) : Out :=
  .next (if s.sagging then s else
    { s with
      sagging := true, stretchEvents := satAdd s.stretchEvents 1, skipWait := if Config.freeBit s.fresh then 1 else 0
      fresh := s.fresh + 1 })

/-- SUPPLY_RECOVERY (R393). -/
def execSupplyRecovery (s : State) : Out := .next { s with sagging := false }

/-- Whether the clock generator skips the core cycle of this tick: at most one in any eight, and again and again while a sensor reads
low. Which cycles it skips the spec leaves open. -/
def State.skips (s : State) : Bool := s.sagging && s.skipWait == 0 && decide (7 ≤ s.skipPhase)

end Sys2Proof.Machine
end

