-- ==== Sys2Proof/Machine/Scalar.lean ====
section
/-! DEFINITION. The scalar, coordinate and control instructions 0x00 to 0x37 (05 R104 to R126). -/

namespace Sys2Proof.Machine

/-- A scalar result at issue + 1, or at issue + 3 for the multiplies (04 R102). -/
def State.scalar (d : BitVec 5) (v : Word) (s : State) : Out := .next (s.emitS 1 d v)
def State.product (d : BitVec 5) (v : Word) (s : State) : Out := .next (s.emitS 3 d v)

/-- A predicate result. -/
def State.predicate (d : BitVec 5) (v : Bool) (s : State) : Out := .next (s.emitP 1 d.toNat v)

/-- A shift of R60 at width 32. -/
def shift32 (f : Nat → Nat → Nat → Nat) (a : Word) (n : Nat) : Word := BitVec.ofNat 32 (f 32 a.toNat (n % 256))

/-- NOP (R125). -/
def execNop (s : State) : Out := .next s

/-- R106. -/
def execAdd (d a b : BitVec 5) (s : State) : Out := s.scalar d (s.rs a + s.rs b)
def execAddi (d a : BitVec 5) (im : BitVec 9) (s : State) : Out := s.scalar d (s.rs a + imm 9 im)
def execSub (d a b : BitVec 5) (s : State) : Out := s.scalar d (s.rs a - s.rs b)
def execMul (d a b : BitVec 5) (s : State) : Out := s.product d (s.rs a * s.rs b)
def execMulh (d a b : BitVec 5) (s : State) : Out :=
  s.product d (BitVec.ofInt 32 ((s.rs a).toInt * (s.rs b).toInt / 2 ^ 32))
def execMulhz (d a b : BitVec 5) (s : State) : Out :=
  s.product d (BitVec.ofNat 32 ((s.rs a).toNat * (s.rs b).toNat / 2 ^ 32))
def execAnd (d a b : BitVec 5) (s : State) : Out := s.scalar d (s.rs a &&& s.rs b)
def execAndi (d a : BitVec 5) (im : BitVec 9) (s : State) : Out := s.scalar d (s.rs a &&& imm 9 im)
def execOr (d a b : BitVec 5) (s : State) : Out := s.scalar d (s.rs a ||| s.rs b)
def execOri (d a : BitVec 5) (im : BitVec 9) (s : State) : Out := s.scalar d (s.rs a ||| imm 9 im)
def execXor (d a b : BitVec 5) (s : State) : Out := s.scalar d (s.rs a ^^^ s.rs b)
def execXori (d a : BitVec 5) (im : BitVec 9) (s : State) : Out := s.scalar d (s.rs a ^^^ imm 9 im)
def execShl (d a b : BitVec 5) (s : State) : Out := s.scalar d (shift32 shlN (s.rs a) (s.rs b).toNat)
def execShli (d a : BitVec 5) (im : BitVec 8) (s : State) : Out := s.scalar d (shift32 shlN (s.rs a) im.toNat)
def execShr (d a b : BitVec 5) (s : State) : Out := s.scalar d (shift32 shrN (s.rs a) (s.rs b).toNat)
def execShri (d a : BitVec 5) (im : BitVec 8) (s : State) : Out := s.scalar d (shift32 shrN (s.rs a) im.toNat)
def execSra (d a b : BitVec 5) (s : State) : Out := s.scalar d (shift32 sraN (s.rs a) (s.rs b).toNat)
def execSrai (d a : BitVec 5) (im : BitVec 8) (s : State) : Out := s.scalar d (shift32 sraN (s.rs a) im.toNat)
def execRot (d a b : BitVec 5) (s : State) : Out := s.scalar d (shift32 rotN (s.rs a) (s.rs b).toNat)
def execRoti (d a : BitVec 5) (im : BitVec 8) (s : State) : Out := s.scalar d (shift32 rotN (s.rs a) im.toNat)
def execMin (d a b : BitVec 5) (s : State) : Out :=
  s.scalar d (if (s.rs b).toInt < (s.rs a).toInt then s.rs b else s.rs a)
def execMax (d a b : BitVec 5) (s : State) : Out :=
  s.scalar d (if (s.rs a).toInt < (s.rs b).toInt then s.rs b else s.rs a)
def execMinz (d a b : BitVec 5) (s : State) : Out :=
  s.scalar d (if (s.rs b).toNat < (s.rs a).toNat then s.rs b else s.rs a)
def execMaxz (d a b : BitVec 5) (s : State) : Out :=
  s.scalar d (if (s.rs a).toNat < (s.rs b).toNat then s.rs b else s.rs a)
def execAbs (d a : BitVec 5) (s : State) : Out := s.scalar d (wrap32 (s.rs a).toInt.natAbs)
def execClz (d a : BitVec 5) (s : State) : Out := s.scalar d (BitVec.ofNat 32 (clzN 32 (s.rs a).toNat))
def execPopc (d a : BitVec 5) (s : State) : Out := s.scalar d (BitVec.ofNat 32 (popN 32 (s.rs a).toNat))
def execSxb (d a : BitVec 5) (s : State) : Out := s.scalar d (((s.rs a).setWidth 8).signExtend 32)
def execSxh (d a : BitVec 5) (s : State) : Out := s.scalar d (((s.rs a).setWidth 16).signExtend 32)
def execZxb (d a : BitVec 5) (s : State) : Out := s.scalar d (((s.rs a).setWidth 8).setWidth 32)
def execZxh (d a : BitVec 5) (s : State) : Out := s.scalar d (((s.rs a).setWidth 16).setWidth 32)

/-- R108. -/
def execSetl (d : BitVec 5) (im : BitVec 14) (s : State) : Out := s.scalar d (imm 14 im)
def execSeth (d : BitVec 5) (im : BitVec 14) (s : State) : Out := s.scalar d (s.rs d * 16384 + im.setWidth 32)

/-- p15..p0 as bits (R109). -/
def Ctx.pmask (c : Ctx) : Word := (c.p ||| 1).setWidth 32

/-- MOV (R109). -/
def execMov (d a : BitVec 5) (f : BitVec 4) (s : State) : Out :=
  s.limit (f.toNat ≤ 2) fun s =>
    s.scalar d (if f = 0 then s.rs a else if f = 1 then s.rc a else s.here.pmask)

/-- MOVS and MOVT (R110). -/
def execMovs (d a : BitVec 5) (s : State) : Out := s.limit (isSr a) fun s => s.scalar d (s.sr a.toNat)

/-- The bits of a special register that a MOVT writes (R9, R90, R92): none of a read-only one. -/
def srMask (n : Nat) : Word :=
  match n with
  | 0 => 0xFFFFFFFF
  | 1 => 0x000000FF
  | 2 => 0xFFFFFFFF
  | 3 => 0x0001FFC0
  | 4 => 0x0000003F
  | 5 => 0x0000000F
  | _ => 0

def execMovt (d a : BitVec 5) (s : State) : Out :=
  s.limit (isSr d) fun s =>
    s.require (!(d.toNat ≤ 2 && !s.here.hnd)) codeContextIllegal fun s =>
      if srMask d.toNat = 0 then .next s else .next (s.emitSr 1 d (srMask d.toNat) (s.rs a))

/-- The conditions of R111; `sgn` compares as two's complement. -/
def condition (n : BitVec 3) (sgn : Bool) (a b : Word) : Bool :=
  let lt := if sgn then decide (a.toInt < b.toInt) else decide (a.toNat < b.toNat)
  match n.toNat with
  | 0 => a == b
  | 1 => a != b
  | 2 => lt
  | 3 => !lt
  | 4 => lt || a == b
  | 5 => !(lt || a == b)
  | 6 => (a &&& b) != 0
  | _ => (a &&& b) == 0

/-- A compare's predicate, and its complement with C (R112). -/
def State.compare (d : BitVec 5) (c : BitVec 1) (v : Bool) (s : State) : Out :=
  let s1 := s.emitP 1 d.toNat v
  .next (if c = 1 then s1.emitP 1 (d.toNat + 1) (!v) else s1)

def execCmp (d a b : BitVec 5) (c : BitVec 1) (n : BitVec 3) (s : State) : Out :=
  s.limit (c == 0 || isEven d) fun s => s.compare d c (condition n true (s.rs a) (s.rs b))
def execCmpi (d a : BitVec 5) (n : BitVec 3) (im : BitVec 6) (s : State) : Out :=
  s.compare d 0 (condition n true (s.rs a) (imm 6 im))
def execCmpz (d a b : BitVec 5) (c : BitVec 1) (n : BitVec 3) (s : State) : Out :=
  s.limit (c == 0 || isEven d) fun s => s.compare d c (condition n false (s.rs a) (s.rs b))

/-- The inversions of R114: NA of pA, NB of pB, NR of the result. -/
def State.combine (d a b : BitVec 5) (nr nb na : BitVec 1) (f : Bool → Bool → Bool) (s : State) : Out :=
  s.predicate d (f (s.rp a != (na == 1)) (s.rp b != (nb == 1)) != (nr == 1))

def execPand (d a b : BitVec 5) (t u v : BitVec 1) (s : State) : Out := s.combine d a b t u v (fun x y => x && y)
def execPor (d a b : BitVec 5) (t u v : BitVec 1) (s : State) : Out := s.combine d a b t u v (fun x y => x || y)
def execPxor (d a b : BitVec 5) (t u v : BitVec 1) (s : State) : Out := s.combine d a b t u v (fun x y => x != y)

/-- PSET (R115): one predicate, or p1..p15 as one result each. -/
def execPset (d a : BitVec 5) (f : BitVec 4) (s : State) : Out :=
  s.limit (f.toNat ≤ 1) fun s =>
    if f = 0 then s.predicate d (s.rs a != 0)
    else .next ((List.range 15).foldl (fun t i => t.emitP 1 (i + 1) ((s.rs a).getLsbD (i + 1))) s)

/-- Coordinates (R117). -/
def execCadd (d a b : BitVec 5) (f : BitVec 4) (s : State) : Out :=
  s.limit (f.toNat ≤ 1) fun s => .next (s.emitC 1 d (s.rc a + (if f = 0 then s.rc b else s.rs b)))
def execCaddi (d a : BitVec 5) (im : BitVec 9) (s : State) : Out := .next (s.emitC 1 d (s.rc a + imm 9 im))
def execCset (d : BitVec 5) (im : BitVec 14) (s : State) : Out := .next (s.emitC 1 d (imm 14 im))
def execCmov (d a : BitVec 5) (f : BitVec 4) (s : State) : Out :=
  s.limit (f.toNat ≤ 1) fun s => .next (s.emitC 1 d (if f = 0 then s.rs a else s.rc a))

/-- Takes a transfer (R119): its shadow and its target are recorded; in the shadow of another taken transfer it raises
SHADOW_ILLEGAL (01 R28). -/
def State.transfer (dest : Nat) (s : State) (f : State → State) : Out :=
  s.require (s.here.shadow.isNone) codeShadowIllegal fun s =>
    .next ((f s).modHere fun c => { c with shadow := some ⟨s.t, dest⟩ })

def execBr (a : BitVec 5) (im : BitVec 9) (s : State) : Out :=
  s.transfer (target (s.rs a + 4 * imm 9 im).toNat) id
def execBri (im : BitVec 14) (s : State) : Out := s.transfer (s.relTarget (imm 14 im)) id
/-- CALL (R120): the link lands at t + 1. -/
def execCall (d : BitVec 5) (im : BitVec 14) (s : State) : Out :=
  s.transfer (s.relTarget (imm 14 im)) (fun s => s.emitS 1 d (BitVec.ofNat 32 s.cur.link))
def execRet (a : BitVec 5) (s : State) : Out := s.transfer (target (s.rs a).toNat) id
/-- LOOP (R122). -/
def execLoop (d a : BitVec 5) (im : BitVec 9) (s : State) : Out :=
  if (s.rs d).toInt + 1 < (s.rs a).toInt then s.transfer (s.relTarget (imm 9 im)) id else .next s
/-- MARK (R123): the next bundle begins a region with base t + 1; no effect in serial issue mode. -/
def execMark (s : State) : Out :=
  if s.here.ser then .next s
  else .next (s.modHere fun c =>
    { c with base := (s.t : Int) + 1, refc := (s.t : Int) + 1, regionE := none, lastOfs := none })

/-- SEL (R116). -/
def execSel (d a b : BitVec 5) (f : BitVec 4) (s : State) : Out :=
  s.scalar d (if s.rp (f.setWidth 5) then s.rs a else s.rs b)

/-- CHK (R126). -/
def execChk (a b : BitVec 5) (f : BitVec 4) (s : State) : Out :=
  s.limit (f.toNat ≤ 1) fun s =>
    if (if f = 0 then s.rs a == s.rs b else s.rc a == s.rc b) then .next s
    else .next (s.takeTrap codeDupMismatch)

end Sys2Proof.Machine
end

