-- ==== Sys2Proof/Machine/Vector.lean ====
section
/-! DEFINITION. The vector, special-function, shuffle and conversion instructions 0x80 to 0xDB (06 R127 to R151). Every
one raises PHASE_ILLEGAL in an exchange pitch (01 R21). -/

namespace Sys2Proof.Machine

/-- Runs a vector meaning that cannot fault beyond R21. -/
def State.vector (s : State) (f : State → State) : Out := s.legal .notExchange fun s => .next (f s)

/-- Plain lanes, which set no flag. -/
def quiet (xs : List Nat) : List Lane := xs.map (fun x => (x, 0))

/-- Wraps a sum, difference or product to a lane of `e` bits (02 R45). -/
def wrapAdd (e a b : Nat) : Nat := (a + b) % 2 ^ e
def wrapSub (e a b : Nat) : Nat := (a + 2 ^ e - b % 2 ^ e) % 2 ^ e
def wrapMul (e a b : Nat) : Nat := a * b % 2 ^ e

/-- One of a pair by signed or unsigned order (02 R61). -/
def minS (e a b : Nat) : Nat := if sext b e < sext a e then b else a
def maxS (e a b : Nat) : Nat := if sext a e < sext b e then b else a

/-! ### Lane shapes -/

/-- A two-source lane map that sets no flag. -/
def State.int2 (lat : Nat) (d a b : BitVec 5) (w h : BitVec 2) (e : Nat) (f : Nat → Nat → Nat) (s : State) : State :=
  s.emitLanes lat d w h e (s.lanes2 a b w h e (fun x y => (f x y, 0)))

/-- A one-source lane map that sets no flag. -/
def State.int1 (lat : Nat) (d a : BitVec 5) (w h : BitVec 2) (e : Nat) (f : Nat → Nat) (s : State) : State :=
  s.emitLanes lat d w h e (s.lanes1 a w h e (fun x => (f x, 0)))

/-- The pairwise tree of R62 with the flags of every level; each round halves the list. -/
def treeRound (f : Nat → Nat → Lane) : List Nat → List Lane
  | x :: y :: t => f x y :: treeRound f t
  | [x] => [(x, 0)]
  | [] => []

def treeReduce (f : Nat → Nat → Lane) : Nat → List Nat → Nat → Lane
  | 0, xs, fl => (xs.headD 0, fl)
  | n + 1, xs, fl =>
    if xs.length ≤ 1 then (xs.headD 0, fl)
    else
      let r := treeRound f xs
      treeReduce f n (r.map (·.1)) (Nat.lor fl (orFlags r))

/-- A reduction's result in every lane of the part (06 R140). -/
def State.reduce (d a : BitVec 5) (w h : BitVec 2) (f : Nat → Nat → Lane) (s : State) : State :=
  let xs := lanesOf (s.rv a) w h 32
  let r := treeReduce f 5 xs 0
  s.emitPart 6 d w h 32 (xs.map (fun _ => r.1)) r.2

/-- A narrowing conversion (06 R147): results packed from the bottom of the part. -/
def State.narrow (f : Fmt) (d a : BitVec 5) (r : BitVec 3) (w h : BitVec 2) (s : State) : State :=
  s.emitLanes 4 d w h f.width (s.lanes1 a w h 32 (cvtNarrow f (s.roundCode r) s.dz s.satf))

/-- A widening conversion: the source lanes packed at the bottom of the part. -/
def State.widen (f : Fmt) (d a : BitVec 5) (w h : BitVec 2) (s : State) : State :=
  s.emitLanes 4 d w h 32 (((lanesOf (s.rv a) w h f.width).take (lanes w 32)).map (cvtWiden f s.dz))

/-- Integer pack and unpack (06 R148): `e` source bits, `g` destination bits. -/
def State.repack (d a : BitVec 5) (w h : BitVec 2) (e g : Nat) (f : Nat → Nat) (s : State) : State :=
  s.emitLanes 4 d w h g (quiet (((lanesOf (s.rv a) w h e).take (widthBits w / max e g)).map f))

/-! ### Floating arithmetic (06 R131, R132) -/

/-- VADD.f32 (R131). -/
def execVaddF32 (d a b : BitVec 5) (w h : BitVec 2) (s : State) : Out :=
  s.vector fun s => s.emitLanes 5 d w h 32 (s.lanes2 a b w h 32 (fAdd fp32 s.rm s.dz))

/-- VSUB.f32 (R131). -/
def execVsubF32 (d a b : BitVec 5) (w h : BitVec 2) (s : State) : Out :=
  s.vector fun s => s.emitLanes 5 d w h 32 (s.lanes2 a b w h 32 (fSub fp32 s.rm s.dz))

/-- VMUL.f32 (R131). -/
def execVmulF32 (d a b : BitVec 5) (w h : BitVec 2) (s : State) : Out :=
  s.vector fun s => s.emitLanes 5 d w h 32 (s.lanes2 a b w h 32 (fMul fp32 s.rm s.dz))

/-- VFMA.f32 (R131). -/
def execVfmaF32 (d a b : BitVec 5) (w h : BitVec 2) (s : State) : Out :=
  s.vector fun s => s.emitLanes 5 d w h 32 (s.lanes3 d a b w h 32 (fFma fp32 s.rm s.dz false))

/-- VFMS.f32 (R131). -/
def execVfmsF32 (d a b : BitVec 5) (w h : BitVec 2) (s : State) : Out :=
  s.vector fun s => s.emitLanes 5 d w h 32 (s.lanes3 d a b w h 32 (fFma fp32 s.rm s.dz true))

/-- VMIN.f32 (R61). -/
def execVminF32 (d a b : BitVec 5) (w h : BitVec 2) (s : State) : Out :=
  s.vector fun s => s.emitLanes 5 d w h 32 (s.lanes2 a b w h 32 (fMinNum fp32 false s.dz))

/-- VMAX.f32 (R61). -/
def execVmaxF32 (d a b : BitVec 5) (w h : BitVec 2) (s : State) : Out :=
  s.vector fun s => s.emitLanes 5 d w h 32 (s.lanes2 a b w h 32 (fMinNum fp32 true s.dz))

/-- VMINP.f32 (R61). -/
def execVminpF32 (d a b : BitVec 5) (w h : BitVec 2) (s : State) : Out :=
  s.vector fun s => s.emitLanes 5 d w h 32 (s.lanes2 a b w h 32 (fMinProp fp32 false))

/-- VMAXP.f32 (R61). -/
def execVmaxpF32 (d a b : BitVec 5) (w h : BitVec 2) (s : State) : Out :=
  s.vector fun s => s.emitLanes 5 d w h 32 (s.lanes2 a b w h 32 (fMinProp fp32 true))

/-- VABS.f32 (R131). -/
def execVabsF32 (d a : BitVec 5) (w h : BitVec 2) (s : State) : Out :=
  s.vector fun s => s.int1 5 d a w h 32 (fun x => x % 2 ^ 31)

/-- VNEG.f32 (R131). -/
def execVnegF32 (d a : BitVec 5) (w h : BitVec 2) (s : State) : Out :=
  s.vector fun s => s.int1 5 d a w h 32 (fun x => (x + 2 ^ 31) % 2 ^ 32)

/-- VCMP.f32 (R132). -/
def execVcmpF32 (d a b : BitVec 5) (w h : BitVec 2) (s : State) : Out :=
  s.vector fun s => s.emitLanes 5 d w h 32 (s.lanes2 a b w h 32 fCmp)

/-- VADD.bf16 (R131). -/
def execVaddBf16 (d a b : BitVec 5) (w h : BitVec 2) (s : State) : Out :=
  s.vector fun s => s.emitLanes 5 d w h 16 (s.lanes2 a b w h 16 (fAdd bf16 s.rm s.dz))

/-- VMUL.bf16 (R131). -/
def execVmulBf16 (d a b : BitVec 5) (w h : BitVec 2) (s : State) : Out :=
  s.vector fun s => s.emitLanes 5 d w h 16 (s.lanes2 a b w h 16 (fMul bf16 s.rm s.dz))

/-- VFMA.bf16 (R131). -/
def execVfmaBf16 (d a b : BitVec 5) (w h : BitVec 2) (s : State) : Out :=
  s.vector fun s => s.emitLanes 5 d w h 16 (s.lanes3 d a b w h 16 (fFma bf16 s.rm s.dz false))

/-- VMIN.bf16 (R61). -/
def execVminBf16 (d a b : BitVec 5) (w h : BitVec 2) (s : State) : Out :=
  s.vector fun s => s.emitLanes 5 d w h 16 (s.lanes2 a b w h 16 (fMinNum bf16 false s.dz))

/-- VMAX.bf16 (R61). -/
def execVmaxBf16 (d a b : BitVec 5) (w h : BitVec 2) (s : State) : Out :=
  s.vector fun s => s.emitLanes 5 d w h 16 (s.lanes2 a b w h 16 (fMinNum bf16 true s.dz))

/-! ### Integer arithmetic and logic (06 R134) -/

/-- VADD.i32 (R134). -/
def execVaddI32 (d a b : BitVec 5) (w h : BitVec 2) (s : State) : Out :=
  s.vector fun s => s.int2 3 d a b w h 32 (wrapAdd 32)

/-- VSUB.i32 (R134). -/
def execVsubI32 (d a b : BitVec 5) (w h : BitVec 2) (s : State) : Out :=
  s.vector fun s => s.int2 3 d a b w h 32 (wrapSub 32)

/-- VMUL.i32 (R134). -/
def execVmulI32 (d a b : BitVec 5) (w h : BitVec 2) (s : State) : Out :=
  s.vector fun s => s.int2 3 d a b w h 32 (wrapMul 32)

/-- VMIN.s32 (R134). -/
def execVminS32 (d a b : BitVec 5) (w h : BitVec 2) (s : State) : Out :=
  s.vector fun s => s.int2 3 d a b w h 32 (minS 32)

/-- VMAX.s32 (R134). -/
def execVmaxS32 (d a b : BitVec 5) (w h : BitVec 2) (s : State) : Out :=
  s.vector fun s => s.int2 3 d a b w h 32 (maxS 32)

/-- VMIN.z32 (R134). -/
def execVminZ32 (d a b : BitVec 5) (w h : BitVec 2) (s : State) : Out :=
  s.vector fun s => s.int2 3 d a b w h 32 Nat.min

/-- VMAX.z32 (R134). -/
def execVmaxZ32 (d a b : BitVec 5) (w h : BitVec 2) (s : State) : Out :=
  s.vector fun s => s.int2 3 d a b w h 32 Nat.max

/-- VADD.i16 (R134). -/
def execVaddI16 (d a b : BitVec 5) (w h : BitVec 2) (s : State) : Out :=
  s.vector fun s => s.int2 3 d a b w h 16 (wrapAdd 16)

/-- VSUB.i16 (R134). -/
def execVsubI16 (d a b : BitVec 5) (w h : BitVec 2) (s : State) : Out :=
  s.vector fun s => s.int2 3 d a b w h 16 (wrapSub 16)

/-- VADDS.s16 (R134). -/
def execVaddsS16 (d a b : BitVec 5) (w h : BitVec 2) (s : State) : Out :=
  s.vector fun s => s.emitLanes 3 d w h 16 (s.lanes2 a b w h 16 (satS 16))

/-- VMUL.i16 (R134). -/
def execVmulI16 (d a b : BitVec 5) (w h : BitVec 2) (s : State) : Out :=
  s.vector fun s => s.int2 3 d a b w h 16 (wrapMul 16)

/-- VADD.i8 (R134). -/
def execVaddI8 (d a b : BitVec 5) (w h : BitVec 2) (s : State) : Out :=
  s.vector fun s => s.int2 3 d a b w h 8 (wrapAdd 8)

/-- VSUB.i8 (R134). -/
def execVsubI8 (d a b : BitVec 5) (w h : BitVec 2) (s : State) : Out :=
  s.vector fun s => s.int2 3 d a b w h 8 (wrapSub 8)

/-- VADDS.s8 (R134). -/
def execVaddsS8 (d a b : BitVec 5) (w h : BitVec 2) (s : State) : Out :=
  s.vector fun s => s.emitLanes 3 d w h 8 (s.lanes2 a b w h 8 (satS 8))

/-- VADDS.z8 (R134). -/
def execVaddsZ8 (d a b : BitVec 5) (w h : BitVec 2) (s : State) : Out :=
  s.vector fun s => s.emitLanes 3 d w h 8 (s.lanes2 a b w h 8 (satZ 8))

/-- VAND (R134). -/
def execVand (d a b : BitVec 5) (w h : BitVec 2) (s : State) : Out :=
  s.vector fun s => s.int2 3 d a b w h 32 Nat.land

/-- VOR (R134). -/
def execVor (d a b : BitVec 5) (w h : BitVec 2) (s : State) : Out :=
  s.vector fun s => s.int2 3 d a b w h 32 Nat.lor

/-- VXOR (R134). -/
def execVxor (d a b : BitVec 5) (w h : BitVec 2) (s : State) : Out :=
  s.vector fun s => s.int2 3 d a b w h 32 Nat.xor

/-- VANDN (R134). -/
def execVandn (d a b : BitVec 5) (w h : BitVec 2) (s : State) : Out :=
  s.vector fun s => s.int2 3 d a b w h 32 (fun x y => Nat.land x (2 ^ 32 - 1 - y))

/-! ### Shifts (06 R135) -/

/-- VSHL (R135): each lane of vD by the amount in bits 7..0 of the same lane of vB. -/
def execVshl (d : BitVec 5) (c : BitVec 2) (b : BitVec 5) (w h : BitVec 2) (s : State) : Out :=
  s.vector fun s => s.int2 3 d d b w h (laneBits c) (fun x n => shlN (laneBits c) x (n % 256))

/-- VSHR (R135): each lane of vD by the amount in bits 7..0 of the same lane of vB. -/
def execVshr (d : BitVec 5) (c : BitVec 2) (b : BitVec 5) (w h : BitVec 2) (s : State) : Out :=
  s.vector fun s => s.int2 3 d d b w h (laneBits c) (fun x n => shrN (laneBits c) x (n % 256))

/-- VSRA (R135): each lane of vD by the amount in bits 7..0 of the same lane of vB. -/
def execVsra (d : BitVec 5) (c : BitVec 2) (b : BitVec 5) (w h : BitVec 2) (s : State) : Out :=
  s.vector fun s => s.int2 3 d d b w h (laneBits c) (fun x n => sraN (laneBits c) x (n % 256))

/-- VROT (R135): each lane of vD by the amount in bits 7..0 of the same lane of vB. -/
def execVrot (d : BitVec 5) (c : BitVec 2) (b : BitVec 5) (w h : BitVec 2) (s : State) : Out :=
  s.vector fun s => s.int2 3 d d b w h (laneBits c) (fun x n => rotN (laneBits c) x (n % 256))

/-- VSHLI (R135): every lane of vD by n, whose bits 7..5 and 4..0 the fields hold. -/
def execVshli (d : BitVec 5) (c : BitVec 2) (n : BitVec 3) (m : BitVec 5) (w h : BitVec 2) (s : State) : Out :=
  s.vector fun s => s.int1 3 d d w h (laneBits c) (fun x => shlN (laneBits c) x (n.toNat * 32 + m.toNat))

/-- VSHRI (R135): every lane of vD by n, whose bits 7..5 and 4..0 the fields hold. -/
def execVshri (d : BitVec 5) (c : BitVec 2) (n : BitVec 3) (m : BitVec 5) (w h : BitVec 2) (s : State) : Out :=
  s.vector fun s => s.int1 3 d d w h (laneBits c) (fun x => shrN (laneBits c) x (n.toNat * 32 + m.toNat))

/-- VSRAI (R135): every lane of vD by n, whose bits 7..5 and 4..0 the fields hold. -/
def execVsrai (d : BitVec 5) (c : BitVec 2) (n : BitVec 3) (m : BitVec 5) (w h : BitVec 2) (s : State) : Out :=
  s.vector fun s => s.int1 3 d d w h (laneBits c) (fun x => sraN (laneBits c) x (n.toNat * 32 + m.toNat))

/-! ### Lane movement and masks (06 R136 to R139) -/

/-- VSEL (R136). -/
def execVsel (d a b : BitVec 5) (w h : BitVec 2) (s : State) : Out :=
  s.vector fun s => s.emitLanes 3 d w h 32 (s.lanes3 d a b w h 32 (fun c x y => (if c = 0 then y else x, 0)))

/-- VMOV (R136). -/
def execVmov (d a : BitVec 5) (w h : BitVec 2) (s : State) : Out := s.vector fun s => s.int1 3 d a w h 32 id

/-- VBCST (R136). -/
def execVbcst (d a : BitVec 5) (c w h : BitVec 2) (s : State) : Out :=
  s.vector fun s =>
    s.emitLanes 3 d w h (laneBits c)
      (quiet ((List.range (lanes w (laneBits c))).map (fun _ => (s.rs a).toNat % 2 ^ laneBits c)))

/-- VEXT (R136). -/
def execVext (d a l : BitVec 5) (w h : BitVec 2) (s : State) : Out :=
  s.limit (l.toNat < lanes w 32) fun s =>
    s.vector fun s => s.emitS 3 d (BitVec.ofNat 32 ((lanesOf (s.rv a) w h 32).getD l.toNat 0))

/-- VINS (R136): writes the one lane. -/
def execVins (d a l : BitVec 5) (w h : BitVec 2) (s : State) : Out :=
  s.limit (l.toNat < lanes w 32) fun s =>
    s.vector fun s =>
      let k := partBase w h + 32 * l.toNat
      s.emit 3 (.v d.toNat) (mask32 <<< k) ((s.rs a).setWidth 1024 <<< k) 0

/-- VIOTA (R136). -/
def execViota (d a : BitVec 5) (c w h : BitVec 2) (s : State) : Out :=
  s.vector fun s =>
    s.emitLanes 3 d w h (laneBits c)
      (quiet ((List.range (lanes w (laneBits c))).map (fun i => ((s.rs a).toNat + i) % 2 ^ laneBits c)))

/-- VMASKP (R137). -/
def execVmaskp (d a : BitVec 5) (k y : BitVec 1) (c w h : BitVec 2) (s : State) : Out :=
  s.limit (k == 0 || isEven d) fun s =>
    s.vector fun s =>
      let xs := lanesOf (s.rv a) w h (laneBits c)
      let v := if y = 1 then xs.all (fun x => x != 0) else xs.any (fun x => x != 0)
      let s1 := s.emitP 3 d.toNat v
      if k = 1 then s1.emitP 3 (d.toNat + 1) (!v) else s1

/-- VPTOM (R137). -/
def execVptom (d a : BitVec 5) (u c w h : BitVec 2) (s : State) : Out :=
  s.limit (32 * u.toNat < lanes w (laneBits c)) fun s =>
    s.vector fun s =>
      let xs := ((lanesOf (s.rv a) w h (laneBits c)).drop (32 * u.toNat)).take 32
      s.emitS 3 d (BitVec.ofNat 32 (packLanes 1 (xs.map (fun x => if x = 0 then 0 else 1))))

/-- VCMPI (R132). -/
def execVcmpi (d a b : BitVec 5) (w h : BitVec 2) (s : State) : Out :=
  s.vector fun s => s.int2 3 d a b w h 32 relCode

/-- VCNT and VCLZ (R138). -/
def execVcnt (d a : BitVec 5) (c w h : BitVec 2) (s : State) : Out :=
  s.vector fun s => s.int1 3 d a w h (laneBits c) (popN (laneBits c))
def execVclz (d a : BitVec 5) (c w h : BitVec 2) (s : State) : Out :=
  s.vector fun s => s.int1 3 d a w h (laneBits c) (clzN (laneBits c))

/-- VSCL.f32 (R133). -/
def execVsclF32 (d a b : BitVec 5) (w h : BitVec 2) (s : State) : Out :=
  s.vector fun s => s.emitLanes 3 d w h 32 (s.lanes2 a b w h 32 (fun x k => fScale s.rm x (sext k 32)))

/-- VCHK (R139). -/
def execVchk (a b : BitVec 5) (w h : BitVec 2) (s : State) : Out :=
  s.vector fun s =>
    if partOf (s.rv a) w h = partOf (s.rv b) w h then s else s.takeTrap codeDupMismatch

/-! ### Reductions (06 R140, R141) -/

/-- VRADD.f32 (R140). -/
def execVraddF32 (d a : BitVec 5) (w h : BitVec 2) (s : State) : Out :=
  s.vector fun s => s.reduce d a w h (fAdd fp32 s.rm false)
/-- VRMAX.f32 (R140). -/
def execVrmaxF32 (d a : BitVec 5) (w h : BitVec 2) (s : State) : Out :=
  s.vector fun s => s.reduce d a w h (fMinNum fp32 true false)
/-- VRADD.i32 (R140). -/
def execVraddI32 (d a : BitVec 5) (w h : BitVec 2) (s : State) : Out :=
  s.vector fun s => s.reduce d a w h (fun x y => (wrapAdd 32 x y, 0))

/-- VDOT.bf16 (R141): the two BF16 lanes of each 32-bit lane. -/
def execVdotBf16 (d a b : BitVec 5) (w h : BitVec 2) (s : State) : Out :=
  s.vector fun s =>
    s.emitLanes 6 d w h 32 (s.lanes3 d a b w h 32 (fun z x y =>
      fDot s.rm s.dz z (x % 65536) (y % 65536) (x / 65536) (y / 65536)))

/-! ### Special functions (06 R142, R143) -/

/-- VRSQE (R142). -/
def execVrsqe (d a : BitVec 5) (w h : BitVec 2) (s : State) : Out :=
  s.vector fun s => s.emitLanes 8 d w h 32 (s.lanes1 a w h 32 fRsqe)

/-- VRCPE (R142). -/
def execVrcpe (d a : BitVec 5) (w h : BitVec 2) (s : State) : Out :=
  s.vector fun s => s.emitLanes 8 d w h 32 (s.lanes1 a w h 32 fRcpe)

/-- VEXP2 (R143). -/
def execVexp2 (d a : BitVec 5) (w h : BitVec 2) (s : State) : Out :=
  s.vector fun s => s.emitLanes 8 d w h 32 (s.lanes1 a w h 32 fExp2)

/-- VLOG2 (R143). -/
def execVlog2 (d a : BitVec 5) (w h : BitVec 2) (s : State) : Out :=
  s.vector fun s => s.emitLanes 8 d w h 32 (s.lanes1 a w h 32 fLog2)

/-- VTANH (R143). -/
def execVtanh (d a : BitVec 5) (w h : BitVec 2) (s : State) : Out :=
  s.vector fun s => s.emitLanes 8 d w h 32 (s.lanes1 a w h 32 fTanh)

/-- VSIG (R143). -/
def execVsig (d a : BitVec 5) (w h : BitVec 2) (s : State) : Out :=
  s.vector fun s => s.emitLanes 8 d w h 32 (s.lanes1 a w h 32 fSig)

/-! ### Shuffles (06 R145, R146) -/

/-- The pattern entry of the active bank (04 R98). -/
def Core.patEntry (c : Core) (k : Nat) : Vec := tget 0 c.patterns (64 * c.patSel + k)

/-- VSHUF (R145). -/
def execVshuf (d : BitVec 5) (p : BitVec 4) (x : BitVec 1) (k : BitVec 5) (s : State) : Out :=
  s.vector fun s =>
    let lo := s.here.rv (2 * p.toNat)
    let hi := s.here.rv (2 * p.toNat + 1)
    let src := lo.toNat + 2 ^ 1024 * hi.toNat
    let e := (s.hereCore.patEntry (32 * x.toNat + k.toNat)).toNat
    s.emitPart 4 d 2 0 8 ((List.range 128).map (fun i => src / 2 ^ (8 * (e / 2 ^ (8 * i) % 256)) % 256)) 0

/-- VSWZ (R146). -/
def execVswz (d a b : BitVec 5) (w h : BitVec 2) (s : State) : Out :=
  s.vector fun s =>
    let xs := lanesOf (s.rv a) w h 32
    s.int1 4 d b w h 32 (fun j => xs.getD (j % lanes w 32) 0)

/-- VROTL (R146). -/
def execVrotl (d a b : BitVec 5) (w h : BitVec 2) (s : State) : Out :=
  s.vector fun s =>
    let xs := lanesOf (s.rv a) w h 32
    let l := lanes w 32
    let n := (s.rs b).toNat % 256 % l
    s.emitPart 4 d w h 32 ((List.range l).map (fun i => xs.getD ((i + l - n) % l) 0)) 0

/-- VCMPR (R146). -/
def execVcmpr (d a b : BitVec 5) (w h : BitVec 2) (s : State) : Out :=
  s.vector fun s =>
    s.emitPart 4 d w h 32
      (((lanesOf (s.rv a) w h 32).zip (lanesOf (s.rv b) w h 32)).filterMap (fun p => if p.2 = 0 then none else some p.1)) 0

/-- Fills the marked lanes with the sources in order. -/
def expandLanes : List Nat → List Nat → List Nat
  | _, [] => []
  | xs, m :: t => if m = 0 then 0 :: expandLanes xs t else xs.headD 0 :: expandLanes xs.tail t

/-- VEXPD (R146). -/
def execVexpd (d a b : BitVec 5) (w h : BitVec 2) (s : State) : Out :=
  s.vector fun s => s.emitPart 4 d w h 32 (expandLanes (lanesOf (s.rv a) w h 32) (lanesOf (s.rv b) w h 32)) 0

/-! ### Conversions and packing (06 R147, R148) -/

/-- VCVT.bf16.f32 (R147). -/
def execVcvtBf16F32 (d a : BitVec 5) (r : BitVec 3) (w h : BitVec 2) (s : State) : Out :=
  s.limit (okRound r) fun s => s.vector fun s => s.narrow bf16 d a r w h

/-- VCVT.f32.bf16 (R147). -/
def execVcvtF32Bf16 (d a : BitVec 5) (r : BitVec 3) (w h : BitVec 2) (s : State) : Out :=
  s.limit (okRound r) fun s => s.vector fun s => s.widen bf16 d a w h

/-- VCVT.e4m3.f32 (R147). -/
def execVcvtE4m3F32 (d a : BitVec 5) (r : BitVec 3) (w h : BitVec 2) (s : State) : Out :=
  s.limit (okRound r) fun s => s.vector fun s => s.narrow e4m3 d a r w h

/-- VCVT.f32.e4m3 (R147). -/
def execVcvtF32E4m3 (d a : BitVec 5) (r : BitVec 3) (w h : BitVec 2) (s : State) : Out :=
  s.limit (okRound r) fun s => s.vector fun s => s.widen e4m3 d a w h

/-- VCVT.e5m2.f32 (R147). -/
def execVcvtE5m2F32 (d a : BitVec 5) (r : BitVec 3) (w h : BitVec 2) (s : State) : Out :=
  s.limit (okRound r) fun s => s.vector fun s => s.narrow e5m2 d a r w h

/-- VCVT.f32.e5m2 (R147). -/
def execVcvtF32E5m2 (d a : BitVec 5) (r : BitVec 3) (w h : BitVec 2) (s : State) : Out :=
  s.limit (okRound r) fun s => s.vector fun s => s.widen e5m2 d a w h

/-- VCVT.f16.f32 (R147). -/
def execVcvtF16F32 (d a : BitVec 5) (r : BitVec 3) (w h : BitVec 2) (s : State) : Out :=
  s.limit (okRound r) fun s => s.vector fun s => s.narrow fp16 d a r w h

/-- VCVT.f32.f16 (R147). -/
def execVcvtF32F16 (d a : BitVec 5) (r : BitVec 3) (w h : BitVec 2) (s : State) : Out :=
  s.limit (okRound r) fun s => s.vector fun s => s.widen fp16 d a w h

/-- VCVT.s32.f32 (R147). -/
def execVcvtS32F32 (d a : BitVec 5) (r : BitVec 3) (w h : BitVec 2) (s : State) : Out :=
  s.limit (okRound r) fun s => s.vector fun s => s.emitLanes 4 d w h 32 (s.lanes1 a w h 32 (cvtToInt (s.roundCode r)))

/-- VCVT.f32.s32 (R147). -/
def execVcvtF32S32 (d a : BitVec 5) (r : BitVec 3) (w h : BitVec 2) (s : State) : Out :=
  s.limit (okRound r) fun s => s.vector fun s => s.emitLanes 4 d w h 32 (s.lanes1 a w h 32 (cvtFromInt (s.roundCode r)))

/-- VPACK (R148). -/
def execVpack (d a : BitVec 5) (m : BitVec 3) (w h : BitVec 2) (s : State) : Out :=
  s.limit (m.toNat ≤ 4) fun s => s.vector fun s =>
    match m.toNat with
    | 0 => s.repack d a w h 32 16 (fun x => x % 2 ^ 16)
    | 1 => s.repack d a w h 32 16 (fun x => clampS 16 (sext x 32))
    | 2 => s.repack d a w h 16 8 (fun x => x % 2 ^ 8)
    | 3 => s.repack d a w h 16 8 (fun x => clampS 8 (sext x 16))
    | _ => s.repack d a w h 16 8 (fun x => clampZ 8 (sext x 16))

/-- A lane sign-extended from `e` bits to `g`. -/
def signTo (e g x : Nat) : Nat := (sext x e % (2 ^ g : Nat)).toNat

/-- VUNPK (R148). -/
def execVunpk (d a : BitVec 5) (m : BitVec 3) (w h : BitVec 2) (s : State) : Out :=
  s.limit (m.toNat ≤ 5) fun s => s.vector fun s =>
    match m.toNat with
    | 0 => s.repack d a w h 16 32 (signTo 16 32)
    | 1 => s.repack d a w h 16 32 id
    | 2 => s.repack d a w h 8 16 (signTo 8 16)
    | 3 => s.repack d a w h 8 16 id
    | 4 => s.repack d a w h 8 32 (signTo 8 32)
    | _ => s.repack d a w h 8 32 id

/-! ### Block quantisation (06 R149, R150) -/

/-- Writes quantised blocks: elements from byte 32k, scale at byte 120 + k; TS10's conditions are readable at
issue + 12 (04 R99). -/
def State.quantise (d : BitVec 5) (c : Nat) (bs : List QBlock) (s : State) : State :=
  let v := (List.zip (List.range bs.length) bs).foldl (fun n p =>
    n + packLanes (mxBits c) p.2.els * 2 ^ (256 * p.1) + p.2.scale * 2 ^ (8 * (120 + p.1))) 0
  let fl := bs.foldl (fun f b => Nat.lor f b.flags) 0
  let ts : BitVec 4 := (if bs.any (fun b => b.scale == 0xFF) then 1 else 0) ||| (if bs.any (fun b => b.inf) then 2 else 0)
  (s.emit 6 (.v d.toNat) (BitVec.allOnes 1024) (BitVec.ofNat 1024 v) (BitVec.ofNat 32 fl)).update 12
    (.tsCond 10 ts (bs.foldl (fun n b => n + b.sat) 0))

/-- QBLK (R149). -/
def execQblk (d a : BitVec 5) (f : BitVec 2) (s : State) : Out :=
  s.limit (f != 3) fun s => s.vector fun s =>
    s.quantise d f.toNat [qblock f.toNat ((lanesOf (s.rv a) 2 0 32).map fp32.decode)]

/-- QBLKB (R149). -/
def execQblkb (d a : BitVec 5) (f : BitVec 2) (s : State) : Out :=
  s.limit (f != 3) fun s => s.vector fun s =>
    let xs := (lanesOf (s.rv a) 2 0 16).map (bf16.read s.dz)
    s.quantise d f.toNat [qblock f.toNat (xs.take 32), qblock f.toNat (xs.drop 32)]

/-- DQBLK (R150). -/
def execDqblk (d a : BitVec 5) (f : BitVec 2) (s : State) : Out :=
  s.limit (f != 3) fun s => s.vector fun s =>
    let x := (s.rv a).toNat
    let e := mxBits f.toNat
    s.emitLanes 4 d 2 0 32 ((List.range 32).map (fun i =>
      dqElem f.toNat (x / 2 ^ (e * i) % 2 ^ e) (x / 2 ^ 960 % 256)))

/-! ### Counting and prefix sums (06 R151) -/

/-- VCNTEQ (R151). -/
def execVcnteq (d a b : BitVec 5) (w h : BitVec 2) (s : State) : Out :=
  s.vector fun s =>
    let xs := lanesOf (s.rv a) w h 32
    s.int1 6 d b w h 32 (fun y => (xs.filter (fun x => x == y)).length)

/-- Prefix sums modulo 2^32; `inc` includes the lane itself. -/
def scanLanes (inc : Bool) : Nat → List Nat → List Nat
  | _, [] => []
  | acc, x :: t => let n := (acc + x) % 2 ^ 32; (if inc then n else acc) :: scanLanes inc n t

/-- VSCAN (R151). -/
def execVscan (d a : BitVec 5) (n : BitVec 1) (w h : BitVec 2) (s : State) : Out :=
  s.vector fun s => s.emitPart 6 d w h 32 (scanLanes (n == 1) 0 (lanesOf (s.rv a) w h 32)) 0

end Sys2Proof.Machine
end

