-- ==== Sys2Proof/Machine/Dispatch.lean ====
section
/-! DEFINITION. The meaning of each instruction and event: one arm per constructor of Instr, in the order of
spec/opcode_table.json. -/

namespace Sys2Proof.Machine

/-- The meaning of one instruction of the issuing slot, or of one event. -/
def exec (i : Instr) (s : State) : Host.Outcome State Fault Refusal :=
  match i with
  | .nop => Sys2Proof.Machine.execNop s
  | .add d a b => Sys2Proof.Machine.execAdd d a b s
  | .addi d a im => Sys2Proof.Machine.execAddi d a im s
  | .sub d a b => Sys2Proof.Machine.execSub d a b s
  | .mul d a b => Sys2Proof.Machine.execMul d a b s
  | .mulh d a b => Sys2Proof.Machine.execMulh d a b s
  | .mulhz d a b => Sys2Proof.Machine.execMulhz d a b s
  | .and d a b => Sys2Proof.Machine.execAnd d a b s
  | .andi d a im => Sys2Proof.Machine.execAndi d a im s
  | .or d a b => Sys2Proof.Machine.execOr d a b s
  | .ori d a im => Sys2Proof.Machine.execOri d a im s
  | .xor d a b => Sys2Proof.Machine.execXor d a b s
  | .xori d a im => Sys2Proof.Machine.execXori d a im s
  | .shl d a b => Sys2Proof.Machine.execShl d a b s
  | .shli d a im => Sys2Proof.Machine.execShli d a im s
  | .shr d a b => Sys2Proof.Machine.execShr d a b s
  | .shri d a im => Sys2Proof.Machine.execShri d a im s
  | .sra d a b => Sys2Proof.Machine.execSra d a b s
  | .srai d a im => Sys2Proof.Machine.execSrai d a im s
  | .rot d a b => Sys2Proof.Machine.execRot d a b s
  | .roti d a im => Sys2Proof.Machine.execRoti d a im s
  | .min d a b => Sys2Proof.Machine.execMin d a b s
  | .max d a b => Sys2Proof.Machine.execMax d a b s
  | .minz d a b => Sys2Proof.Machine.execMinz d a b s
  | .maxz d a b => Sys2Proof.Machine.execMaxz d a b s
  | .abs d a => Sys2Proof.Machine.execAbs d a s
  | .clz d a => Sys2Proof.Machine.execClz d a s
  | .popc d a => Sys2Proof.Machine.execPopc d a s
  | .sxb d a => Sys2Proof.Machine.execSxb d a s
  | .sxh d a => Sys2Proof.Machine.execSxh d a s
  | .zxb d a => Sys2Proof.Machine.execZxb d a s
  | .zxh d a => Sys2Proof.Machine.execZxh d a s
  | .setl d im => Sys2Proof.Machine.execSetl d im s
  | .seth d im => Sys2Proof.Machine.execSeth d im s
  | .mov d a f => Sys2Proof.Machine.execMov d a f s
  | .movs d a => Sys2Proof.Machine.execMovs d a s
  | .movt d a => Sys2Proof.Machine.execMovt d a s
  | .cmp d a b c n => Sys2Proof.Machine.execCmp d a b c n s
  | .cmpi d a n im => Sys2Proof.Machine.execCmpi d a n im s
  | .cmpz d a b c n => Sys2Proof.Machine.execCmpz d a b c n s
  | .pand d a b t u v => Sys2Proof.Machine.execPand d a b t u v s
  | .por d a b t u v => Sys2Proof.Machine.execPor d a b t u v s
  | .pxor d a b t u v => Sys2Proof.Machine.execPxor d a b t u v s
  | .pset d a f => Sys2Proof.Machine.execPset d a f s
  | .cadd d a b f => Sys2Proof.Machine.execCadd d a b f s
  | .caddi d a im => Sys2Proof.Machine.execCaddi d a im s
  | .cset d im => Sys2Proof.Machine.execCset d im s
  | .cmov d a f => Sys2Proof.Machine.execCmov d a f s
  | .br a im => Sys2Proof.Machine.execBr a im s
  | .bri im => Sys2Proof.Machine.execBri im s
  | .call d im => Sys2Proof.Machine.execCall d im s
  | .ret a => Sys2Proof.Machine.execRet a s
  | .loop d a im => Sys2Proof.Machine.execLoop d a im s
  | .mark => Sys2Proof.Machine.execMark s
  | .sel d a b f => Sys2Proof.Machine.execSel d a b f s
  | .chk a b f => Sys2Proof.Machine.execChk a b f s
  | .ldS8 d a im => Sys2Proof.Machine.execLdS8 d a im s
  | .ldZ8 d a im => Sys2Proof.Machine.execLdZ8 d a im s
  | .ldS16 d a im => Sys2Proof.Machine.execLdS16 d a im s
  | .ldZ16 d a im => Sys2Proof.Machine.execLdZ16 d a im s
  | .ld32 d a im => Sys2Proof.Machine.execLd32 d a im s
  | .st8 d a im => Sys2Proof.Machine.execSt8 d a im s
  | .st16 d a im => Sys2Proof.Machine.execSt16 d a im s
  | .st32 d a im => Sys2Proof.Machine.execSt32 d a im s
  | .ld2 d a im => Sys2Proof.Machine.execLd2 d a im s
  | .st2 d a im => Sys2Proof.Machine.execSt2 d a im s
  | .ldv d a w h im => Sys2Proof.Machine.execLdv d a w h im s
  | .stv d a w h im => Sys2Proof.Machine.execStv d a w h im s
  | .ldt d a b => Sys2Proof.Machine.execLdt d a b s
  | .ldvt d a b w h => Sys2Proof.Machine.execLdvt d a b w h s
  | .tld d k b w h => Sys2Proof.Machine.execTld d k b w h s
  | .tst d k b w h => Sys2Proof.Machine.execTst d k b w h s
  | .tldt d k b w h => Sys2Proof.Machine.execTldt d k b w h s
  | .aadd d a b f => Sys2Proof.Machine.execAadd d a b f s
  | .amin d a b f => Sys2Proof.Machine.execAmin d a b f s
  | .amax d a b f => Sys2Proof.Machine.execAmax d a b f s
  | .aswp d a b f => Sys2Proof.Machine.execAswp d a b f s
  | .acas d a b f => Sys2Proof.Machine.execAcas d a b f s
  | .afadd d a b f => Sys2Proof.Machine.execAfadd d a b f s
  | .tagw d a im => Sys2Proof.Machine.execTagw d a im s
  | .tagr d a im => Sys2Proof.Machine.execTagr d a im s
  | .formr d a im => Sys2Proof.Machine.execFormr d a im s
  | .sfnc => Sys2Proof.Machine.execSfnc s
  | .zline a im => Sys2Proof.Machine.execZline a im s
  | .mma e n a b y x => Sys2Proof.Machine.execMma e n a b y x s
  | .mmaz e n a b y x => Sys2Proof.Machine.execMmaz e n a b y x s
  | .scac d a b k j => Sys2Proof.Machine.execScac d a b k j s
  | .scacz d a b k j => Sys2Proof.Machine.execScacz d a b k j s
  | .accrd d a k h => Sys2Proof.Machine.execAccrd d a k h s
  | .accz k => Sys2Proof.Machine.execAccz k s
  | .mts c e a im => Sys2Proof.Machine.execMts c e a im s
  | .rset q a b => Sys2Proof.Machine.execRset q a b s
  | .radv q im => Sys2Proof.Machine.execRadv q im s
  | .rpop q im => Sys2Proof.Machine.execRpop q im s
  | .cpy d a b => Sys2Proof.Machine.execCpy d a b s
  | .cpyHbm d a b e => Sys2Proof.Machine.execCpyHbm d a b e s
  | .hget d a b e => Sys2Proof.Machine.execHget d a b e s
  | .hput d a b e => Sys2Proof.Machine.execHput d a b e s
  | .gth d a b e => Sys2Proof.Machine.execGth d a b e s
  | .sct d a b e => Sys2Proof.Machine.execSct d a b e s
  | .xsnd d a b => Sys2Proof.Machine.execXsnd d a b s
  | .xrcv d a b => Sys2Proof.Machine.execXrcv d a b s
  | .fput a => Sys2Proof.Machine.execFput a s
  | .fget a => Sys2Proof.Machine.execFget a s
  | .fatm a => Sys2Proof.Machine.execFatm a s
  | .fflr a => Sys2Proof.Machine.execFflr a s
  | .pinj a => Sys2Proof.Machine.execPinj a s
  | .seal a b => Sys2Proof.Machine.execSeal a b s
  | .unseal a b => Sys2Proof.Machine.execUnseal a b s
  | .cairn a b => Sys2Proof.Machine.execCairn a b s
  | .ufnc => Sys2Proof.Machine.execUfnc s
  | .tblw a => Sys2Proof.Machine.execTblw a s
  | .tblr d a b => Sys2Proof.Machine.execTblr d a b s
  | .spld a b w => Sys2Proof.Machine.execSpld a b w s
  | .shape k a => Sys2Proof.Machine.execShape k a s
  | .vaddF32 d a b w h => Sys2Proof.Machine.execVaddF32 d a b w h s
  | .vsubF32 d a b w h => Sys2Proof.Machine.execVsubF32 d a b w h s
  | .vmulF32 d a b w h => Sys2Proof.Machine.execVmulF32 d a b w h s
  | .vfmaF32 d a b w h => Sys2Proof.Machine.execVfmaF32 d a b w h s
  | .vfmsF32 d a b w h => Sys2Proof.Machine.execVfmsF32 d a b w h s
  | .vminF32 d a b w h => Sys2Proof.Machine.execVminF32 d a b w h s
  | .vmaxF32 d a b w h => Sys2Proof.Machine.execVmaxF32 d a b w h s
  | .vminpF32 d a b w h => Sys2Proof.Machine.execVminpF32 d a b w h s
  | .vmaxpF32 d a b w h => Sys2Proof.Machine.execVmaxpF32 d a b w h s
  | .vabsF32 d a w h => Sys2Proof.Machine.execVabsF32 d a w h s
  | .vnegF32 d a w h => Sys2Proof.Machine.execVnegF32 d a w h s
  | .vcmpF32 d a b w h => Sys2Proof.Machine.execVcmpF32 d a b w h s
  | .vaddBf16 d a b w h => Sys2Proof.Machine.execVaddBf16 d a b w h s
  | .vmulBf16 d a b w h => Sys2Proof.Machine.execVmulBf16 d a b w h s
  | .vfmaBf16 d a b w h => Sys2Proof.Machine.execVfmaBf16 d a b w h s
  | .vminBf16 d a b w h => Sys2Proof.Machine.execVminBf16 d a b w h s
  | .vmaxBf16 d a b w h => Sys2Proof.Machine.execVmaxBf16 d a b w h s
  | .vaddI32 d a b w h => Sys2Proof.Machine.execVaddI32 d a b w h s
  | .vsubI32 d a b w h => Sys2Proof.Machine.execVsubI32 d a b w h s
  | .vmulI32 d a b w h => Sys2Proof.Machine.execVmulI32 d a b w h s
  | .vminS32 d a b w h => Sys2Proof.Machine.execVminS32 d a b w h s
  | .vmaxS32 d a b w h => Sys2Proof.Machine.execVmaxS32 d a b w h s
  | .vminZ32 d a b w h => Sys2Proof.Machine.execVminZ32 d a b w h s
  | .vmaxZ32 d a b w h => Sys2Proof.Machine.execVmaxZ32 d a b w h s
  | .vaddI16 d a b w h => Sys2Proof.Machine.execVaddI16 d a b w h s
  | .vsubI16 d a b w h => Sys2Proof.Machine.execVsubI16 d a b w h s
  | .vaddsS16 d a b w h => Sys2Proof.Machine.execVaddsS16 d a b w h s
  | .vmulI16 d a b w h => Sys2Proof.Machine.execVmulI16 d a b w h s
  | .vaddI8 d a b w h => Sys2Proof.Machine.execVaddI8 d a b w h s
  | .vsubI8 d a b w h => Sys2Proof.Machine.execVsubI8 d a b w h s
  | .vaddsS8 d a b w h => Sys2Proof.Machine.execVaddsS8 d a b w h s
  | .vaddsZ8 d a b w h => Sys2Proof.Machine.execVaddsZ8 d a b w h s
  | .vand d a b w h => Sys2Proof.Machine.execVand d a b w h s
  | .vor d a b w h => Sys2Proof.Machine.execVor d a b w h s
  | .vxor d a b w h => Sys2Proof.Machine.execVxor d a b w h s
  | .vandn d a b w h => Sys2Proof.Machine.execVandn d a b w h s
  | .vshl d c b w h => Sys2Proof.Machine.execVshl d c b w h s
  | .vshr d c b w h => Sys2Proof.Machine.execVshr d c b w h s
  | .vsra d c b w h => Sys2Proof.Machine.execVsra d c b w h s
  | .vrot d c b w h => Sys2Proof.Machine.execVrot d c b w h s
  | .vshli d c n m w h => Sys2Proof.Machine.execVshli d c n m w h s
  | .vshri d c n m w h => Sys2Proof.Machine.execVshri d c n m w h s
  | .vsrai d c n m w h => Sys2Proof.Machine.execVsrai d c n m w h s
  | .vsel d a b w h => Sys2Proof.Machine.execVsel d a b w h s
  | .vmov d a w h => Sys2Proof.Machine.execVmov d a w h s
  | .vbcst d a c w h => Sys2Proof.Machine.execVbcst d a c w h s
  | .vext d a l w h => Sys2Proof.Machine.execVext d a l w h s
  | .vins d a l w h => Sys2Proof.Machine.execVins d a l w h s
  | .viota d a c w h => Sys2Proof.Machine.execViota d a c w h s
  | .vraddF32 d a w h => Sys2Proof.Machine.execVraddF32 d a w h s
  | .vrmaxF32 d a w h => Sys2Proof.Machine.execVrmaxF32 d a w h s
  | .vraddI32 d a w h => Sys2Proof.Machine.execVraddI32 d a w h s
  | .vdotBf16 d a b w h => Sys2Proof.Machine.execVdotBf16 d a b w h s
  | .vcmpi d a b w h => Sys2Proof.Machine.execVcmpi d a b w h s
  | .vcnt d a c w h => Sys2Proof.Machine.execVcnt d a c w h s
  | .vclz d a c w h => Sys2Proof.Machine.execVclz d a c w h s
  | .vmaskp d a k y c w h => Sys2Proof.Machine.execVmaskp d a k y c w h s
  | .vptom d a u c w h => Sys2Proof.Machine.execVptom d a u c w h s
  | .vsclF32 d a b w h => Sys2Proof.Machine.execVsclF32 d a b w h s
  | .vchk a b w h => Sys2Proof.Machine.execVchk a b w h s
  | .vrsqe d a w h => Sys2Proof.Machine.execVrsqe d a w h s
  | .vrcpe d a w h => Sys2Proof.Machine.execVrcpe d a w h s
  | .vexp2 d a w h => Sys2Proof.Machine.execVexp2 d a w h s
  | .vlog2 d a w h => Sys2Proof.Machine.execVlog2 d a w h s
  | .vtanh d a w h => Sys2Proof.Machine.execVtanh d a w h s
  | .vsig d a w h => Sys2Proof.Machine.execVsig d a w h s
  | .vshuf d p x k => Sys2Proof.Machine.execVshuf d p x k s
  | .vswz d a b w h => Sys2Proof.Machine.execVswz d a b w h s
  | .vrotl d a b w h => Sys2Proof.Machine.execVrotl d a b w h s
  | .vcmpr d a b w h => Sys2Proof.Machine.execVcmpr d a b w h s
  | .vexpd d a b w h => Sys2Proof.Machine.execVexpd d a b w h s
  | .vcvtBf16F32 d a r w h => Sys2Proof.Machine.execVcvtBf16F32 d a r w h s
  | .vcvtF32Bf16 d a r w h => Sys2Proof.Machine.execVcvtF32Bf16 d a r w h s
  | .vcvtS32F32 d a r w h => Sys2Proof.Machine.execVcvtS32F32 d a r w h s
  | .vcvtF32S32 d a r w h => Sys2Proof.Machine.execVcvtF32S32 d a r w h s
  | .vcvtE4m3F32 d a r w h => Sys2Proof.Machine.execVcvtE4m3F32 d a r w h s
  | .vcvtF32E4m3 d a r w h => Sys2Proof.Machine.execVcvtF32E4m3 d a r w h s
  | .vcvtE5m2F32 d a r w h => Sys2Proof.Machine.execVcvtE5m2F32 d a r w h s
  | .vcvtF32E5m2 d a r w h => Sys2Proof.Machine.execVcvtF32E5m2 d a r w h s
  | .vcvtF16F32 d a r w h => Sys2Proof.Machine.execVcvtF16F32 d a r w h s
  | .vcvtF32F16 d a r w h => Sys2Proof.Machine.execVcvtF32F16 d a r w h s
  | .qblk d a f => Sys2Proof.Machine.execQblk d a f s
  | .qblkb d a f => Sys2Proof.Machine.execQblkb d a f s
  | .dqblk d a f => Sys2Proof.Machine.execDqblk d a f s
  | .vpack d a m w h => Sys2Proof.Machine.execVpack d a m w h s
  | .vunpk d a m w h => Sys2Proof.Machine.execVunpk d a m w h s
  | .vcnteq d a b w h => Sys2Proof.Machine.execVcnteq d a b w h s
  | .vscan d a n w h => Sys2Proof.Machine.execVscan d a n w h s
  | .aSet x w im => Sys2Proof.Machine.execASet x w im s
  | .aAdd x w y v q => Sys2Proof.Machine.execAAdd x w y v q s
  | .aCopy x w y v q => Sys2Proof.Machine.execACopy x w y v q s
  | .aHash x w y v => Sys2Proof.Machine.execAHash x w y v s
  | .aAbsorb x w y v q => Sys2Proof.Machine.execAAbsorb x w y v q s
  | .aCount x w im => Sys2Proof.Machine.execACount x w im s
  | .aFwd k p => Sys2Proof.Machine.execAFwd k p s
  | .aRoute => Sys2Proof.Machine.execARoute s
  | .aDrop => Sys2Proof.Machine.execADrop s
  | .aMirror im => Sys2Proof.Machine.execAMirror im s
  | .aMeter x w y v q => Sys2Proof.Machine.execAMeter x w y v q s
  | .aRegadd x w y v q => Sys2Proof.Machine.execARegadd x w y v q s
  | .aPunt im => Sys2Proof.Machine.execAPunt im s
  | .aTrunc im => Sys2Proof.Machine.execATrunc im s
  | .trap im => Sys2Proof.Machine.execTrap im s
  | .tret => Sys2Proof.Machine.execTret s
  | .assay d a => Sys2Proof.Machine.execAssay d a s
  | .halt => Sys2Proof.Machine.execHalt s
  | .bar => Sys2Proof.Machine.execBar s
  | .pitch => Sys2Proof.Machine.execPitch s
  | .wait a b c => Sys2Proof.Machine.execWait a b c s
  | .cnt d a b m => Sys2Proof.Machine.execCnt d a b m s
  | .rollback g => Sys2Proof.Machine.execRollback g s
  | .resultLand g k => Sys2Proof.Machine.execResultLand g k s
  | .contextResume g k x => Sys2Proof.Machine.execContextResume g k x s
  | .withholdDrain g k => Sys2Proof.Machine.execWithholdDrain g k s
  | .arrivalCounterUpdate g => Sys2Proof.Machine.execArrivalCounterUpdate g s
  | .contextLaunch g k => Sys2Proof.Machine.execContextLaunch g k s
  | .barRelease g => Sys2Proof.Machine.execBarRelease g s
  | .pitchComplete g k => Sys2Proof.Machine.execPitchComplete g k s
  | .localBoundary m => Sys2Proof.Machine.execLocalBoundary m s
  | .pitchStart m => Sys2Proof.Machine.execPitchStart m s
  | .syncIdle m p fr => Sys2Proof.Machine.execSyncIdle m p fr s
  | .syncReady m p fr => Sys2Proof.Machine.execSyncReady m p fr s
  | .syncPending m p fr => Sys2Proof.Machine.execSyncPending m p fr s
  | .syncGo m p fr => Sys2Proof.Machine.execSyncGo m p fr s
  | .syncStop m p fr => Sys2Proof.Machine.execSyncStop m p fr s
  | .syncReplay m p fr => Sys2Proof.Machine.execSyncReplay m p fr s
  | .syncLoss m p => Sys2Proof.Machine.execSyncLoss m p s
  | .goTimeout m => Sys2Proof.Machine.execGoTimeout m s
  | .straggler m => Sys2Proof.Machine.execStraggler m s
  | .mmaStart g k => Sys2Proof.Machine.execMmaStart g k s
  | .mmaRetire g k => Sys2Proof.Machine.execMmaRetire g k s
  | .mmaLand g k => Sys2Proof.Machine.execMmaLand g k s
  | .foldStart g k => Sys2Proof.Machine.execFoldStart g k s
  | .foldComplete g k => Sys2Proof.Machine.execFoldComplete g k s
  | .localCopyComplete g k => Sys2Proof.Machine.execLocalCopyComplete g k s
  | .copyEngineComplete g e => Sys2Proof.Machine.execCopyEngineComplete g e s
  | .xsndDelivery g k => Sys2Proof.Machine.execXsndDelivery g k s
  | .xrcvComplete g k => Sys2Proof.Machine.execXrcvComplete g k s
  | .sealComplete g k => Sys2Proof.Machine.execSealComplete g k s
  | .openComplete g k => Sys2Proof.Machine.execOpenComplete g k s
  | .spldSwitch g k => Sys2Proof.Machine.execSpldSwitch g k s
  | .fabricDepart g k => Sys2Proof.Machine.execFabricDepart g k s
  | .untimedComplete g k x => Sys2Proof.Machine.execUntimedComplete g k x s
  | .cairnWrite r b => Sys2Proof.Machine.execCairnWrite r b s
  | .cairnRetry r b => Sys2Proof.Machine.execCairnRetry r b s
  | .responseTimeout g k x => Sys2Proof.Machine.execResponseTimeout g k x s
  | .packetIngress p pk => Sys2Proof.Machine.execPacketIngress p pk s
  | .importRequest p => Sys2Proof.Machine.execImportRequest p s
  | .absorbLineWrite g k bk => Sys2Proof.Machine.execAbsorbLineWrite g k bk s
  | .absorbAbandon p => Sys2Proof.Machine.execAbsorbAbandon p s
  | .puntDelivery p => Sys2Proof.Machine.execPuntDelivery p s
  | .tableWriteApply p => Sys2Proof.Machine.execTableWriteApply p s
  | .packetEgress p => Sys2Proof.Machine.execPacketEgress p s
  | .frameIdle p fr => Sys2Proof.Machine.execFrameIdle p fr s
  | .framePacket p fr => Sys2Proof.Machine.execFramePacket p fr s
  | .frameScheduled p fr => Sys2Proof.Machine.execFrameScheduled p fr s
  | .frameCalibration p fr => Sys2Proof.Machine.execFrameCalibration p fr s
  | .linkSilenceTimeout p => Sys2Proof.Machine.execLinkSilenceTimeout p s
  | .linkTrain p ln => Sys2Proof.Machine.execLinkTrain p ln s
  | .scheduledDeparture m r => Sys2Proof.Machine.execScheduledDeparture m r s
  | .scheduledLanding p => Sys2Proof.Machine.execScheduledLanding p s
  | .clusterExchange m r => Sys2Proof.Machine.execClusterExchange m r s
  | .reductionStep m r => Sys2Proof.Machine.execReductionStep m r s
  | .migration mq => Sys2Proof.Machine.execMigration mq s
  | .rekey n => Sys2Proof.Machine.execRekey n s
  | .admission w pr => Sys2Proof.Machine.execAdmission w pr s
  | .capture t => Sys2Proof.Machine.execCapture t s
  | .captureEnd q => Sys2Proof.Machine.execCaptureEnd q s
  | .restoreRelease q => Sys2Proof.Machine.execRestoreRelease q s
  | .domainPartEnd m => Sys2Proof.Machine.execDomainPartEnd m s
  | .triggerTaskEnd t => Sys2Proof.Machine.execTriggerTaskEnd t s
  | .fuseRead rq => Sys2Proof.Machine.execFuseRead rq s
  | .nonce rq => Sys2Proof.Machine.execNonce rq s
  | .debugToken rq => Sys2Proof.Machine.execDebugToken rq s
  | .worldCreate rq => Sys2Proof.Machine.execWorldCreate rq s
  | .worldConfig rq => Sys2Proof.Machine.execWorldConfig rq s
  | .keyImport rq => Sys2Proof.Machine.execKeyImport rq s
  | .imageLoad rq => Sys2Proof.Machine.execImageLoad rq s
  | .imageUnload rq => Sys2Proof.Machine.execImageUnload rq s
  | .worldReset rq => Sys2Proof.Machine.execWorldReset rq s
  | .report rq => Sys2Proof.Machine.execReport rq s
  | .extend rq => Sys2Proof.Machine.execExtend rq s
  | .deploy rq => Sys2Proof.Machine.execDeploy rq s
  | .retire rq => Sys2Proof.Machine.execRetire rq s
  | .scrubComplete wd => Sys2Proof.Machine.execScrubComplete wd s
  | .launch fn v => Sys2Proof.Machine.execLaunch fn v s
  | .ptchg fn v => Sys2Proof.Machine.execPtchg fn v s
  | .shootw v => Sys2Proof.Machine.execShootw v s
  | .selftGo v => Sys2Proof.Machine.execSelftGo v s
  | .selftComplete pass => Sys2Proof.Machine.execSelftComplete pass s
  | .registerWrite fn off wd v => Sys2Proof.Machine.execRegisterWrite fn off wd v s
  | .functionLevelReset fn => Sys2Proof.Machine.execFunctionLevelReset fn s
  | .pfFunctionLevelReset => Sys2Proof.Machine.execPfFunctionLevelReset s
  | .pcieHotReset => Sys2Proof.Machine.execPcieHotReset s
  | .powerOn cold => Sys2Proof.Machine.execPowerOn cold s
  | .pcieLinkUp => Sys2Proof.Machine.execPcieLinkUp s
  | .hbmTrain die => Sys2Proof.Machine.execHbmTrain die s
  | .tickCalibration => Sys2Proof.Machine.execTickCalibration s
  | .pipelineReady p => Sys2Proof.Machine.execPipelineReady p s
  | .supplySag => Sys2Proof.Machine.execSupplySag s
  | .powerFaultReset => Sys2Proof.Machine.execPowerFaultReset s
  | .tokenRefill => Sys2Proof.Machine.execTokenRefill s
  | .supplyRecovery => Sys2Proof.Machine.execSupplyRecovery s
  | .syncTick m p => Sys2Proof.Machine.execSyncTick m p s
  | .provisioning ky => Sys2Proof.Machine.execProvisioning ky s
  | .launchWithdrawal wd pr ix => Sys2Proof.Machine.execLaunchWithdrawal wd pr ix s

end Sys2Proof.Machine
end

