-- ==== Sys2Proof/Machine/Checks.lean ====
section
/-! DEFINITION. Bundles in instruction memory (03 R64 to R66) and the checks of the decoder (03 R73) in their order. -/

namespace Sys2Proof.Machine

/-! ### Bundles (R64, R65) -/

/-- A bundle as it stands in instruction memory: its address, its head, its present slots with their unit positions, and the
address of the next bundle in program order. -/
structure Bundle where
  addr : Nat
  head : Word
  slots : List (Nat × Word)
  next : Nat
  deriving DecidableEq, Repr

/-- The 32-bit word at an address of instruction memory. -/
def Core.code (c : Core) (a : Nat) : Word := BitVec.ofNat 32 (leNat (Memory.readN c.imem a 4))

/-- Fields of a head: its present positions in unit order, E, OFS, B. -/
def headPositions (h : Word) : List Nat := (List.range 8).filter (fun p => h.getLsbD (31 - p))
def headE (h : Word) : Bool := h.getLsbD 23
def headOfs (h : Word) : Nat := bits h.toNat 22 8
def headB (h : Word) : Bool := h.getLsbD 2

/-- The bundle guard as a context's registers stand (R65, 01 R29). -/
def Ctx.headGuard (c : Ctx) (h : Word) : Bool := c.rp (bits h.toNat 7 4) != h.getLsbD 3

/-- The bundle at an address, if it lies within instruction memory. -/
def Core.bundle (c : Core) (a : Nat) : Option Bundle :=
  if imemBytes < a + 4 then none
  else
    let h := c.code a
    let ps := headPositions h
    let next := a + 4 + 4 * ps.length
    if imemBytes < next then none
    else some { addr := a, head := h, slots := ((List.range ps.length).zip ps).map (fun q => (q.2, c.code (a + 4 + 4 * q.1))), next := next }

/-- The words that a fetch of the bundle at an address reads. -/
def Core.fetchWords (c : Core) (a : Nat) : List Nat :=
  let last := match c.bundle a with
    | some b => b.next - 1
    | none => Nat.min (a + 3) (imemBytes - 1)
  if a < imemBytes then (List.range (last / 8 + 1 - a / 8)).map (fun i => a / 8 + i) else []

/-- Whether a fetch of the bundle at an address meets an uncorrectable word (08 R188). -/
def Core.fetchBad (c : Core) (a : Nat) : Bool :=
  (c.fetchWords a).any (fun w => tget .sound c.imemErrs w == .uncorrectable || tget .sound c.imemErrs w == .poison)

/-- The fetch of the bundle at an address: a correctable error is corrected with no change of timing, counted and written back
(08 R188). -/
def Core.fetched (a : Nat) (c : Core) : Core :=
  (c.fetchWords a).foldl (fun c w =>
    if tget .sound c.imemErrs w == .correctable then
      { c with imemErrs := tset .sound c.imemErrs w .sound, ceCount := satAdd c.ceCount 1 }
    else c) c

/-! ### Checks 1 to 7 -/

/-- The stop bits agree with the mask (R69): S stands on the last present slot and on no other. -/
def stopsOk : List (Nat × Word) → Bool
  | [] => true
  | [(_, w)] => stopOf w
  | (_, w) :: t => !stopOf w && stopsOk t

/-- Check 5: the offset or delta is out of order, or E differs within the region (01 R24, R30). -/
def Ctx.outOfOrder (c : Ctx) (h : Word) : Bool :=
  match c.regionE with
  | none => false
  | some e =>
    headE h != e || (if e then headOfs h == 0 else
      match c.lastOfs with
      | some o => decide (headOfs h ≤ o)
      | none => false)

/-- The opcodes that no elastic bundle holds (01 R31): XSND, XRCV, HGET, HPUT, GTH and SCT. -/
def notElastic (w : Word) : Bool :=
  let o := (opcodeOf w).toNat
  o == 0x6F || o == 0x70 || (decide (0x6B ≤ o) && decide (o ≤ 0x6E))

/-- Whether head bit B takes a belay (R72, 14 R326): not in serial issue mode and not in an exchange pitch. -/
def Bundle.belays (b : Bundle) (ser exchange : Bool) : Bool := headB b.head && !ser && !exchange

/-- The first failing check of 2 to 7; check 1 is `Core.bundle`. -/
def Bundle.early (b : Bundle) (c : Ctx) (exchange : Bool) : Option Nat :=
  if bits b.head.toNat 1 0 ≠ 0 then some codeBundleMalformed
  else if b.slots.length < 3 ∨ 7 < b.slots.length then some codeBundleMalformed
  else if stopsOk b.slots = false then some codeBundleMalformed
  else if c.ser = false ∧ c.outOfOrder b.head = true then some codeBundleMalformed
  else if b.belays c.ser exchange = true ∧ (bits b.head.toNat 7 3 ≠ 0 ∨ headE b.head = true) then some codeBundleMalformed
  else if c.ser = false ∧ headE b.head = true ∧ b.slots.any (fun q => notElastic q.2) = true then some codeElasticIllegal
  else none

/-! ### Checks 8 to 12 -/

/-- The operand limits that an entry puts on the values of registers, for check 11; the limits on the fields themselves are
in `Instr.wf`. -/
def State.valuesOk (s : State) (i : Instr) : Bool :=
  match i with
  | .mma _ _ a b y x => s.okMma a.toNat b.toNat x.toNat y.toNat
  | .mmaz _ _ a b y x => s.okMma a.toNat b.toNat x.toNat y.toNat
  | .scac d a b _ _ => okFold (s.rs d) (s.rs a) (s.rs b)
  | .scacz d a b _ _ => okFold (s.rs d) (s.rs a) (s.rs b)
  | .mts _ _ a im => s.okMts a im
  | .cpy d a b => okCpy (s.rs d) (s.rs a) (s.rs b)
  | .hget d a b _ => okHget (s.rs d) (s.rs a) (s.rs b)
  | .hput d a b _ => okHget (s.rs d) (s.rs a) (s.rs b)
  | .cpyHbm d a b _ => okCpyHbm (s.rs d) (s.rs a) (s.rs b)
  | .gth d a b _ => okGth (s.rs d) (s.rs a) (s.rs b)
  | .sct d a b _ => okGth (s.rs d) (s.rs a) (s.rs b)
  | .xsnd d a b => okSend s.cur.k (s.rs d) (s.rs a) (s.rs b)
  | .xrcv d a b => okSend s.cur.k (s.rs d) (s.rs a) (s.rs b)
  | .seal a b => okSeal (s.rs a) (s.rs b)
  | .unseal a b => okSeal (s.rs a) (s.rs b)
  | .spld a b _ => okSpld (s.rs a) (s.rs b)
  | .ldt _ _ b => s.okTag b
  | .ldvt _ _ b _ _ => s.okTag b
  | .tld _ k b w _ => (s.tensor k b w 0).isSome
  | .tst _ k b w _ => (s.tensor k b w 0).isSome
  | .tldt _ k b w _ => (s.tensor k b w 1).isSome
  | .tagw d _ _ => s.okTagw d
  | .fput a => s.okDescriptor a
  | .fget a => s.okDescriptor a
  | .fatm a => s.okDescriptor a
  | .fflr a => s.okDescriptor a
  | .pinj a => s.okDescriptor a
  | .tblw a => s.okDescriptor a
  | .cairn a _ => s.okCairn a
  | .wait a _ _ => decide ((s.rs a).toNat < 256)
  | .cnt d a _ m => s.okCnt d a m
  | _ => true

/-- The row of R21 that an opcode stands in; CPY.hbm shares its opcode with the local form. -/
def rowOf (i : Instr) (o : Nat) : Row :=
  match i with
  | .cpyHbm .. => .hbm
  | _ =>
    if o ≤ 0x37 ∨ o = 0x57 ∨ o = 0x58 ∨ o = 0x5A then .anywhere
    else if o ≤ 0x69 then .notExchange
    else if o = 0x6A then .anywhere
    else if o ≤ 0x6E then .hbm
    else if o ≤ 0x70 then .send
    else if o ≤ 0x75 ∨ o = 0x78 ∨ o = 0x79 ∨ o = 0x7A then .untimed
    else if o ≤ 0x7D then .anywhere
    else if o ≤ 0xDB then .notExchange
    else if o = 0xF4 ∨ o = 0xF5 then .barrier
    else if o = 0xF2 ∨ o = 0xF6 then .wait
    else .anywhere

/-- Whether a slot takes a transfer where its guard is true (05 R119, R122), or is a TRET. -/
def State.takes (s : State) (i : Instr) : Bool :=
  match i with
  | .br .. => true
  | .bri _ => true
  | .call .. => true
  | .ret _ => true
  | .tret => true
  | .loop d a _ => decide ((s.rs d).toInt + 1 < (s.rs a).toInt)
  | _ => false

/-- The instruction of a slot word, judged by R67 and R68. -/
def slotInstr (w : Word) : Option Instr :=
  match decodeSlot w with
  | .ok sl => some sl.instr
  | .error _ => none

/-- Check 11 of one slot. -/
def State.operandFault (s : State) (w : Word) : Option Nat :=
  match slotInstr w with
  | some i => if s.valuesOk i then none else some codeOperandIllegal
  | none => some codeOperandIllegal

/-- Check 12 of one slot: R28, then R21. -/
def State.placeFault (s : State) (w : Word) : Option Nat :=
  match slotInstr w with
  | some i =>
    if s.here.shadow.isSome && s.takes i then some codeShadowIllegal else s.illegal (rowOf i (opcodeOf w).toNat)
  | none => none

/-- The first fault of a check over slots, with the position and the opcode that TSR takes. -/
def firstFault (f : Word → Option Nat) : List (Nat × Word) → Option (Nat × Nat × Nat)
  | [] => none
  | (p, w) :: t =>
    match f w with
    | some c => some (c, p, (opcodeOf w).toNat)
    | none => firstFault f t

/-- The slots of a bundle whose guards are true on the issue cycle (01 R29). -/
def State.liveSlots (s : State) (b : Bundle) : List (Nat × Word) := b.slots.filter (fun q => s.here.rp (guardOf q.2).toNat)

/-- Checks 8 to 12 of the bundle being issued: the cause, the position and the opcode of the first fault. -/
def State.judge (b : Bundle) (s : State) : Option (Nat × Nat × Nat) :=
  let live := s.liveSlots b
  (firstFault (fun w => if opcodeDefined (opcodeOf w) then none else some codeOpcodeUndefined) b.slots).orElse fun _ =>
  (b.slots.findSome? fun q => if legalPosition (opcodeOf q.2) q.1 then none else some (codeUnitIllegal, q.1, (opcodeOf q.2).toNat)).orElse fun _ =>
  (if 8 < (b.slots.map (fun q => laneGroups q.2)).sum ∨ 2 < (b.slots.filter (fun q => isSpecial q.2)).length
    then some (codeBundleIllegal, 0, 0) else none).orElse fun _ =>
  (firstFault s.operandFault live).orElse fun _ => firstFault s.placeFault live

end Sys2Proof.Machine
end

