-- ==== Sys2Proof/Machine/Issue.lean ====
section
/-! DEFINITION. The dispatcher: the candidate release cycle of a context's next bundle and the look-ahead nullifier (01 R23 to
R34), the issue of one bundle whole (03 R73), and the bundles that a cluster issues on one cycle (14 R321). -/

namespace Sys2Proof.Machine

/-! ### Candidate cycles (01 R23, R27, R29, R30) -/

/-- Whether a head is timed as a delta: its region is elastic, or it begins one. -/
def Ctx.elastic (c : Ctx) (h : Word) : Bool := c.regionE.getD (headE h)

/-- The candidate release cycle of the bundle with a head. -/
def Ctx.candidate (c : Ctx) (h : Word) : Int := (if c.elastic h then c.refc else c.base) + headOfs h

/-- The bundle guard as it reads on cycle t (01 R29). -/
def Ctx.guardAt (c : Ctx) (h : Word) (t : Nat) : Bool := (c.land t).1.headGuard h

/-- Whether a bundle that comes after a taken transfer lies in its shadow (01 R27). -/
def Ctx.inShadow (c : Ctx) (sh : Shadow) (h : Word) : Bool :=
  let x := c.candidate h
  decide ((sh.issue : Int) < x) && decide (x ≤ (sh.issue : Int) + 2)

/-- What the dispatcher does with a context's next bundle on this cycle. -/
inductive Turn where
  /-- Nothing yet. -/
  | idle
  /-- The target of a taken transfer takes over. -/
  | target (sh : Shadow)
  /-- The nullifier skips the bundle. -/
  | skip (b : Bundle)
  /-- In serial issue mode the guard has been read, and the bundle waits for the last one that issued (01 R34). -/
  | pass
  /-- The bundle issues, or faults. -/
  | issue
  deriving DecidableEq, Repr

/-- Whether the last bundle of a context in serial issue mode still has a result or operation outstanding (01 R34). -/
def Cluster.serialWaits (k x t : Nat) (cl : Cluster) : Bool :=
  match ((cl.core k).ctx x).lastIssue with
  | some n => cl.outstanding k x n t
  | none => false

/-- The turn of context x of core n by its next bundle, with t the cycle and `ex` whether the pitch is an exchange pitch. In an
elastic region a bundle that the guard skips on its later candidate cycle is skipped as soon as it is reached, in the shadow of a
taken transfer too: it spends no delta and can bring a later bundle into the shadow (05 R119). In serial issue mode a guard is read
once, on the first cycle after the bundle before (01 R34). -/
def Cluster.turn (cl : Cluster) (n x t : Nat) (ex : Bool) : Turn :=
  let k := cl.core n
  let c := k.ctx x
  if t < c.notBefore then .idle
  else
    let due := fun (b : Bundle) (n : Nat) => !k.fetchBad c.pc && (b.early c ex).isNone && !c.guardAt b.head n
    if c.ser then
      let waits := cl.serialWaits n x t
      match c.guarded, k.bundle c.pc with
      | false, some b => if due b t then .skip b else if waits then .pass else .issue
      | _, _ => if waits then .idle else .issue
    else
      let own := match k.bundle c.pc with
        | none => .issue
        | some b =>
          let n := if c.held then t else (c.candidate b.head).toNat
          if n ≤ t then (if due b n then .skip b else .issue)
          else if c.elastic b.head && due b n then .skip b
          else .idle
      match c.shadow with
      | none => own
      | some sh =>
        let inside := c.held || (match k.bundle c.pc with
          | some b => c.inShadow sh b.head
          | none => false)
        if inside then own
        else if sh.issue + 3 ≤ t then .target sh
        else match k.bundle c.pc with
          | some b => if c.elastic b.head && due b (c.candidate b.head).toNat then .skip b else .idle
          | none => .idle

/-! ### Moving past a bundle -/

/-- A held bundle that goes on this cycle keeps its region's spacing: the sync base, or the reference cycle, moves with it (01 R37),
and a shadow that it lies in moves too. -/
def Ctx.rebased (h : Word) (t : Nat) (c : Ctx) : Ctx :=
  if c.held && !c.ser then
    let late := ((t : Int) - c.candidate h).toNat
    { c with
      base := if c.elastic h then c.base else (t : Int) - headOfs h
      refc := if c.elastic h then (t : Int) - headOfs h else c.refc
      shadow := c.shadow.map fun sh => { sh with issue := sh.issue + late } }
  else c

/-- The place of a context after the bundle: the next one in program order, in the same region. -/
def Ctx.past (b : Bundle) (c : Ctx) : Ctx :=
  { c with
    pc := b.next, held := false, guarded := false, fresh := false, regionE := some (c.elastic b.head)
    lastOfs := if c.ser then c.lastOfs else some (headOfs b.head) }

/-- A nullified bundle (01 R29, R30, R34): it spends its cycle where offsets name cycles, and in serial issue mode. -/
def Ctx.skipped (b : Bundle) (t : Nat) (c : Ctx) : Ctx :=
  let y := (c.rebased b.head t).past b
  if c.elastic b.head && !c.ser then y else { y with notBefore := t + 1 }

/-- A bundle that issues: in an elastic region the reference cycle becomes its own. -/
def Ctx.advanced (b : Bundle) (t : Nat) (c : Ctx) : Ctx :=
  let r := c.rebased b.head t
  { r.past b with
    refc := if c.elastic b.head then r.candidate b.head else r.refc, notBefore := t + 1, lastIssue := some t }

/-- The target of a transfer takes over (01 R25, R27): its region has the sync base t + 3. -/
def Ctx.redirect (sh : Shadow) (c : Ctx) : Ctx :=
  { c with
    pc := sh.target, shadow := none, guarded := false, base := (sh.issue : Int) + 3, refc := (sh.issue : Int) + 3, regionE := none, lastOfs := none
    notBefore := Nat.max c.notBefore (sh.issue + 3) }

/-- The link of a CALL (05 R120): the first bundle after it that its offset, or the sum of the deltas, puts past t + 2. DESIGN CHOICE
(log entry 69): a MARK in the shadow is passed over like any slot, though 05 R123 puts what follows it past the shadow; R120 speaks
of the offsets and deltas alone. -/
def Core.linkFrom (k : Core) (c : Ctx) (t : Nat) : Nat → Nat → Nat
  | 0, a => a
  | n + 1, a =>
    match k.bundle a with
    | none => a
    | some b =>
      if c.inShadow ⟨t, 0⟩ b.head then k.linkFrom { c with refc := if c.elastic b.head then c.candidate b.head else c.refc } t n b.next
      else a

/-! ### One bundle (03 R73) -/

/-- Opcodes that serial issue mode holds until the core's released stores have drained (08 R186): the untimed operations and
ASSAY. -/
def drainsFirst (w : Word) : Bool :=
  let o := (opcodeOf w).toNat
  (decide (0x71 ≤ o) && decide (o ≤ 0x75)) || o == 0x78 || o == 0x7A || o == 0xF2

/-- Runs the slots of a bundle in unit order until one traps, blocks or is held. -/
def State.runSlots : List (Nat × Word) → State → Out
  | [], s => .next s
  | (p, w) :: t, s =>
    match slotInstr w with
    | none => s.runSlots t
    | some i =>
      match exec i { s with cur := { s.cur with pos := p, opc := (opcodeOf w).toNat } } with
      | .next s1 => if s1.cur.trapped.isSome || s1.cur.blocked || s1.cur.held then .next s1 else s1.runSlots t
      | r => r

/-- After the slots: in serial issue mode a taken transfer goes straight to its target (05 R124), and a MARK in a shadow ends it
(05 R123). DESIGN CHOICE (log entry 69): a first bundle of the target that is nullified takes the cycle t + 3 in serial issue mode
too; R124 speaks of its issue alone. -/
def Ctx.settle (t : Nat) (ser : Bool) (c : Ctx) : Ctx :=
  match c.shadow with
  | none => c
  | some sh =>
    if ser then { c with pc := sh.target, shadow := none, notBefore := Nat.max c.notBefore (t + 3) }
    else if c.regionE.isNone then c.redirect sh
    else c

/-- The slot state at a context's next bundle. -/
def State.atBundle (g k x : Nat) (s : State) : State := { s with cur := { g := g, k := k, x := x, addr := (s.ctx g k x).pc } }

/-- The issue of a context's next bundle: its checks, its belay and its slots. What it answers says whether the bundle trapped, was
held or blocked; its caller then keeps nothing else of it. -/
def State.tryIssue (g k x : Nat) (s : State) : Out :=
  let core := s.core g k
  let c := core.ctx x
  let t := (s.cluster g).run
  let s0 := s.atBundle g k x
  if core.fetchBad c.pc then .next (s0.fence g codeFetchUncorrectable)
  else
    match core.bundle c.pc with
    | none => .next (s0.takeTrap codeBundleMalformed)
    | some b =>
      match b.early c (s.inExchange g) with
      | some f => .next (s0.takeTrap f)
      | none =>
        let s1 := s0.modHere (Ctx.advanced b t)
        let s2 := { s1 with cur := { s1.cur with
          nextAddr := b.next, link := if c.ser then b.next else core.linkFrom s1.here t 3 b.next } }
        match s2.judge b with
        | some (f, p, o) => .next ({ s2 with cur := { s2.cur with pos := p, opc := o } }.takeTrap f)
        | none =>
          if c.ser && b.slots.any (fun q => drainsFirst q.2) && core.wbuf.any (fun e => e.released) then .next s2.holdBundle
          else
            let s3 := if b.belays c.ser (s.inExchange g) then s2.takeBelay g k x b.addr false else s2
            match s3.runSlots (s3.liveSlots b) with
            | .next s4 => .next (s4.modCtx g k x (Ctx.settle t c.ser))
            | r => r

/-! ### The bundles of a cycle (14 R321, R322) -/

/-- The trap of a bundle whose trial answered `r`, taken on the state `s` in which nothing of the bundle has been done; in an exchange
pitch the core goes on with the next bundle (14 R334). DESIGN CHOICE (log entry 54): a bundle that would extend past 0x1_FFFF
(03 R73, check 1) has no next bundle, and 14 R334 does not say how the core goes on from it; here the core stands there and
meets the same fault on every following cycle of the pitch. -/
def State.retake (s r : State) (cause : Nat) (tva : Word) : State :=
  let g := r.cur.g
  let k := r.cur.k
  let x := r.cur.x
  let core := s.core g k
  let s1 := if s.inExchange g then
      s.modCtx g k x fun c => match core.bundle c.pc with
        | some b => c.advanced b (s.cluster g).run
        | none => { c with notBefore := (s.cluster g).run + 1 }
    else s
  let s2 := s1.modCore g k fun c => c.meetAll (r.cur.found.filter (fun w => c.err w == .uncorrectable))
  { s2 with fresh := r.fresh, cur := { r.cur with trapped := none } }.takeTrapWith cause tva

/-- A bundle that the trial `r` held or blocked (01 R37, 08 R181): its context waits with nothing done; a blocked one gives up its core
and its pages are asked of the walker (11 R252). -/
def State.wait (s r : State) : State :=
  let g := r.cur.g
  let k := r.cur.k
  let x := r.cur.x
  let t := (s.cluster g).run
  if r.cur.blocked then
    let s1 := s.modCore g k fun c =>
      { c.modCtx x (fun y => { y with status := .blocked, held := true, guarded := y.ser, fresh := false }) with choosing := some t }
    r.cur.walks.foldl (fun s w => s.fillPage g w.1 (s.cluster g).world w.2.1 w.2.2) s1
  else s.modCtx g k x fun y => { y with held := true, guarded := y.ser, fresh := false, notBefore := t + 1 }

/-- A bundle whose trial `r` faulted on a cycle on which the cluster has taken a trap already (14 R321): nothing of it is done, and it is
dispatched again on the next cycle. -/
def State.faultAgain (s r : State) : State :=
  s.modCtx r.cur.g r.cur.k r.cur.x fun y => { y with guarded := y.ser, notBefore := (s.cluster r.cur.g).run + 1 }

/-- The contexts of a cluster, in ascending core order, each with whether it may issue: it holds its core, and a trap in progress
lets only handlers issue. -/
def Cluster.issuers (cl : Cluster) : List (Nat × Nat) :=
  if cl.fenced || cl.frozen || cl.streaming.isSome || cl.holding.isSome then []
  else
    cl.cores.filterMap fun (p : Nat × Core) =>
      let x := if cl.trigger then p.2.running else 0
      if (p.2.ctx x).status == .ready && !(cl.trigger && p.2.choosing.isSome)
          && (match cl.trap with
            | none => true
            | some tr => tr.handlers.contains (p.1, x))
      then some (p.1, x) else none

/-- Issues the bundles of contexts of a cluster, in ascending core order, one after another on one cycle. `s0` is the state before any
of them: a trap that stops the cluster is taken on it, and no other bundle of the cycle issues. Outside an exchange pitch one trap is
taken, the first (14 R321), and `taken` says that it has been: of a context in serial issue mode, which stops no other. -/
def State.issueAll (g : Nat) (s0 : State) : List (Nat × Nat) → Bool → State → Out
  | [], _, s => .next s
  | (k, x) :: t, taken, s =>
    match s.tryIssue g k x with
    | .next r =>
      match r.cur.trapped with
      | some (cause, tva) =>
        if taken then s0.issueAll g t true (s.faultAgain r)
        else
          let u := s.retake r cause tva
          let stops := (u.cluster g).fenced || ((u.cluster g).trap.isSome && (s.cluster g).trap.isNone)
          if stops then .next (s0.retake r cause tva) else s0.issueAll g t (!s.inExchange g) u
      | none =>
        if r.cur.blocked || r.cur.held then s0.issueAll g t taken (s.wait r)
        else if (r.cluster g).fenced then .next r
        else s0.issueAll g t taken r
    | r => r

/-- Marks that the drains of this cycle are over: what a bundle of the cycle releases drains later (08 R185). -/
def Cluster.closeDrains (ks : List (Nat × Nat)) (cl : Cluster) : Cluster :=
  ks.foldl (fun cl q => cl.modCore q.1 fun c => { c with drained := cl.run }) cl

/-- The fetches of contexts' next bundles (08 R188). -/
def State.fetchAll (g : Nat) (qs : List (Nat × Nat)) (s : State) : State :=
  qs.foldl (fun s q => s.modCore g q.1 (fun c => c.fetched (c.ctx q.2).pc)) s

/-- What the dispatcher of a cluster does next on this cycle: a target takes over or a bundle is skipped, one after another; then every
bundle that is due issues. -/
def State.dispatch (g : Nat) (s : State) : Option Out :=
  let cl := s.cluster g
  let t := cl.run
  let ex := s.inExchange g
  let turns := cl.issuers.map fun (q : Nat × Nat) => (q, cl.turn q.1 q.2 t ex)
  let move := turns.findSome? fun q => match q.2 with
    | .target sh => some (s.modCtx g q.1.1 q.1.2 (Ctx.redirect sh))
    | .skip b => some ((s.fetchAll g [q.1]).modCtx g q.1.1 q.1.2 (Ctx.skipped b t))
    | .pass => some (s.modCtx g q.1.1 q.1.2 fun c => { c with guarded := true })
    | _ => none
  match move with
  | some u => some (.next u)
  | none =>
    let due := (turns.filter (fun q => q.2 == .issue)).map (·.1)
    if due.isEmpty then none
    else
      let s1 := (s.modCluster g (Cluster.closeDrains due)).fetchAll g due
      some (s1.issueAll g due false s1)

/-! ### The next context of a core (01 R37, R38) -/

/-- Whether a blocked bundle would block again on this cycle. -/
def State.stillBlocked (g k x : Nat) (s : State) : Bool :=
  match s.tryIssue g k x with
  | .next r => r.cur.blocked
  | _ => false

/-- Whether a context is ready to take its core. -/
def State.contextReady (g k x : Nat) (s : State) : Bool :=
  let c := s.ctx g k x
  let free := match (s.cluster g).trap with
    | none => true
    | some tr => tr.handlers.contains (k, x)
  free && (c.status == .ready || (c.status == .blocked && !s.stillBlocked g k x))

/-- The context that a vacant core takes: the next ready one after the one that blocked or halted; that one itself three cycles on,
when no other is ready (R38). -/
def State.nextContext (g k : Nat) (s : State) : Option Nat :=
  let cl := s.cluster g
  let c := cl.core k
  if !cl.trigger || !c.vacant then none
  else
    ([1, 2, 3].map (fun i => (c.running + i) % 4) ++ [c.running]).find? fun x =>
      (x != c.running || (match c.choosing with
        | some n => decide (n + 3 ≤ cl.run)
        | none => true)) && s.contextReady g k x

end Sys2Proof.Machine
end

