-- ==== Sys2Proof/Machine/Schedule.lean ====
section
/-! DEFINITION. The events of the module in the order in which they fall within a core cycle, each with the condition on which it
falls, and the passing of a core cycle. -/

namespace Sys2Proof.Machine

/-- The first answer that a test over a list gives. -/
def firstOut {α : Type} (l : List α) (f : α → Option Out) : Option Out := l.findSome? f

/-- The first answer of several events, in their order. -/
def anyOf (l : List (Unit → Option Out)) : Option Out := l.findSome? fun f => f ()

/-- An event that falls when a condition holds. -/
def whenDue (b : Bool) (o : Unit → Out) : Option Out := if b then some (o ()) else none

/-- Clusters whose running cycle is under way: neither fenced, nor frozen, nor held. -/
def Cluster.live (cl : Cluster) : Bool := !cl.fenced && !cl.frozen && cl.streaming.isNone && cl.holding.isNone

/-- The cores of live clusters. -/
def State.liveCores (s : State) : List (Nat × Nat × Cluster × Core) :=
  s.clusters.flatMap fun (q : Nat × Cluster) =>
    if q.2.live then q.2.cores.map (fun p => (q.1, p.1, q.2, p.2)) else []

/-! ### Inputs -/

/-- Whether an input waits for its step of bring-up (17 R390): a link trains once the Assay controller serves and the host link is up,
and a pipeline is marked ready once the calibration is complete. DESIGN CHOICE (log entry 47): service grows in the order of 17 R390's
table, so what comes before its turn takes effect when its turn comes. -/
def State.tooEarly (s : State) : Instr → Bool
  | .linkTrain _ ln => ln.up && !(s.bring.getLsbD 13 && s.bring.getLsbD 12)
  | .pipelineReady _ => !s.bring.getLsbD 14
  | _ => false

/-- The first input whose tick has come, and the inputs without it. Only events come from outside. -/
def State.inputDue (s : State) : Option Out :=
  match takeFirst (fun (q : Nat × Instr) => decide (q.1 ≤ s.tick.toNat) && !s.tooEarly q.2) s.inputs with
  | none => none
  | some (q, rest) => some (if q.2.isEvent then exec q.2 { s with inputs := rest } else .fault .noSuchInput)

/-! ### Engines (07 R160, R166, 09 R214 to R222, 15 R351 to R361) -/

/-- The reads of an exchange pitch's records that fall on this cycle, which may lie past the pitch's local boundary. -/
def State.recordReads (s : State) : Option Out :=
  firstOut s.domains fun d =>
    if d.exchange = true then
      firstOut d.records fun x => match x.kind with
        | 1 => whenDue (s.readDue d x x.chunks) fun _ => execClusterExchange d.id x.index s
        | 2 => whenDue (s.departReadDue d x) fun _ => execScheduledDeparture d.id x.index s
        | 4 => whenDue (s.readDue d x (x.count / 128)) fun _ => execReductionStep d.id x.index s
        | _ => none
    else none

/-- The core-side writes of reduction steps that fall on this cycle. -/
def State.stepWrites (s : State) : Option Out :=
  firstOut s.domains fun d =>
    if d.writes.any s.stepWriteDue then
      (d.records.find? (fun x => x.kind == 4)).map fun x => execReductionStep d.id x.index s
    else none

/-- Whether the anvil's first MMA retires by cycle t, or waits for a start that has come. -/
def Core.retires (t : Nat) (c : Core) : Bool :=
  match c.anvil with
  | m :: _ => (match m.start with
    | some st => decide (m.retireAt st ≤ t)
    | none => false)
  | [] => false
def Core.mmaStarts (t : Nat) (c : Core) : Bool :=
  match c.anvil with
  | m :: _ => m.start.isNone && decide (m.planned ≤ t)
  | [] => false

/-- Whether an update of a kind has come due. -/
def Core.updateDue (sel : CoreUpdate → Bool) (t : Nat) (c : Core) : Bool := c.pending.any (fun p => decide (p.due ≤ t) && sel p.upd)

/-- The engines' events of one core on cycle t. -/
def State.engineDue (s : State) (q : Nat × Nat × Cluster × Core) : Option Out :=
  let g := q.1
  let k := q.2.1
  let t := q.2.2.1.run
  let c := q.2.2.2
  (whenDue (c.retires t) fun _ => execMmaRetire g k s).orElse fun _ =>
  (whenDue (c.updateDue CoreUpdate.isBank t) fun _ => execMmaLand g k s).orElse fun _ =>
  (whenDue (c.mmaStarts t) fun _ => execMmaStart g k s).orElse fun _ =>
  (whenDue (c.fold.any (fun f => f.start.isNone && decide (f.planned ≤ t))) fun _ => execFoldStart g k s).orElse fun _ =>
  (whenDue (c.cmds.any (fun m => m.kind == .cpy && decide (m.done ≤ t))) fun _ => execLocalCopyComplete g k s).orElse fun _ =>
  (whenDue (c.cmds.any (s.copyDue 0 t)) fun _ => execCopyEngineComplete g 0 s).orElse fun _ =>
  (whenDue (c.cmds.any (s.copyDue 1 t)) fun _ => execCopyEngineComplete g 1 s).orElse fun _ =>
  (whenDue (c.cmds.any (fun m => m.kind == .sealOp && decide (m.done ≤ t))) fun _ => execSealComplete g k s).orElse fun _ =>
  whenDue (c.cmds.any (Cmd.openDue t)) fun _ => execOpenComplete g k s

/-- Drains of cycle t that have not been made (08 R185). -/
def State.drainDue (s : State) (q : Nat × Nat × Cluster × Core) : Option Out :=
  whenDue (decide (q.2.2.2.drained < q.2.2.1.run) && !(q.2.2.2.drainable q.2.2.1.run).isEmpty) fun _ => execWithholdDrain q.1 q.2.1 s

/-! ### The side port (08 R182 to R184) -/

/-- Pulls and sends of one core on this cycle. -/
def State.transferDue (s : State) (q : Nat × Nat × Cluster × Core) : Option Out :=
  let g := q.1
  let k := q.2.1
  let cl := q.2.2.1
  let now := fun (a : SideAcc) => a.due == cl.run && !a.done
  (whenDue (cl.side.any (fun a => now a && (a.kind == .pullRead || a.kind == .pull) && a.source == k)
      || q.2.2.2.cmds.any (fun m => m.kind == .xrcv && decide (m.done ≤ cl.run))) fun _ => execXrcvComplete g k s).orElse fun _ =>
  whenDue (cl.side.any (fun a => now a && a.kind == .send && a.core == k)) fun _ => execXsndDelivery g k s

/-- Sends that are complete. -/
def State.sendOver (s : State) (q : Nat × Nat × Cluster × Core) : Option Out :=
  (q.2.2.2.cmds.find? (fun m => m.kind == .xsnd && decide (m.done ≤ q.2.2.1.run))).map fun m => execXsndDelivery q.1 m.other s

/-- Sends' lines to cores that no table lists. -/
def State.sendLines (s : State) : Option Out :=
  firstOut s.clusters fun (q : Nat × Cluster) =>
    if q.2.live then
      (q.2.side.find? (fun a => a.due == q.2.run && !a.done && a.kind == .send)).map fun a => execXsndDelivery q.1 a.core s
    else none

/-- The exchange writes and the landings of this cycle. -/
def State.lineWrites (s : State) : Option Out :=
  (firstOut s.domains fun d => firstOut d.records fun x =>
    if x.kind = 1 then whenDue (s.exchangeWrites d x) fun _ => execClusterExchange d.id x.index s else none).orElse fun _ =>
  firstOut s.domains fun d => firstOut d.records fun x =>
    if x.kind = 3 then whenDue (!(s.landingsDue x.port).isEmpty) fun _ => execScheduledLanding x.port s else none

/-- Whether a line of a bank's absorb queue may be written: its bank's side port is free and its cluster is not being captured. -/
def State.absorbDue (s : State) (q : Nat × List AbsorbLine) : Option Out :=
  match q.2 with
  | [] => none
  | l :: _ =>
    let g := q.1 / 32 / 48
    let k := q.1 / 32 % 48
    whenDue (!(s.cluster g).frozen && s.sideOpen g k (lineOf l.addr)) fun _ => execAbsorbLineWrite g k (q.1 % 32) s

/-- Whether a counter bump is still to be made before a cairn: that of its operation, or for a software cairn those of its context's
earlier operations (09 R227, R228). -/
def Cluster.bumpFirst (cl : Cluster) (q : CairnReq) : Bool :=
  match q.op with
  | none => false
  | some r => cl.bumps.any fun b =>
    match b.op with
    | some o => o.core == r.core && o.ctx == r.ctx && (o.id == r.id || (q.kind == 7 && decide (o.id < r.id)))
    | none => false

/-- What the first cairn of a ring comes to on this cycle (10 R242). -/
def State.cairnDue (s : State) (q : CairnReq) : Option Out :=
  let g := q.core / 48
  let k := q.core % 48
  let go := fun (_ : Unit) => execCairnWrite q.core q.base s
  if s.firstCairn q.core q.base ≠ some q then none
  else if (s.cluster g).fenced = true then some (go ())
  else if (s.cluster g).bumpFirst q = true then none
  else if q.base = 0 then some (go ())
  else if (s.cluster g).frozen = true ∨ s.sideOpen g k (lineOf q.base) = false then none
  else
    let w := (s.ringWords g k q.base).1
    let slot := lineOf (q.base + 64 + 32 * (w.tail % w.slots))
    if (s.core g k).ringValid q.base w.slots 32 = false then some (go ())
    else match q.wrote with
      | some n => whenDue (decide (n < s.now)) go
      | none =>
        let free := !w.room || s.sideOpen g k slot
        if q.stalled then whenDue ((s.core g k).headWritten q.base && free) fun _ => execCairnRetry q.core q.base s
        else whenDue free go

/-- Whether another pipeline has written a slot of a world's punt ring and is still to write its TAIL. -/
def State.puntBusy (s : State) (p : Nat) (w : World) : Bool :=
  s.pipes.any fun x => x.1 != p && (match x.2.punts with
    | q :: _ => q.wrote.isSome && (s.world q.world).puntCore == w.puntCore && (s.world q.world).puntBase == w.puntBase
    | [] => false)

/-- What the first packet of a pipeline's punt queue comes to on this cycle (10 R243). -/
def State.puntDue (s : State) (p : Nat) : Option Out :=
  match (s.pipe p).punts with
  | [] => none
  | q :: _ =>
    let w := s.world q.world
    let g := w.puntCore / 48
    let k := w.puntCore % 48
    let go := fun (_ : Unit) => execPuntDelivery p s
    if w.puntBase = 0 ∨ w.state ≠ 1 ∨ (s.cluster g).fenced = true then some (go ())
    else if (s.cluster g).frozen = true ∨ s.sideOpen g k (lineOf w.puntBase) = false then none
    else
      let r := (s.ringWords g k w.puntBase).1
      if (s.core g k).ringValid w.puntBase r.slots 512 = false then some (go ())
      else match q.wrote with
        | some n => whenDue (decide (n < s.now)) go
        | none => whenDue (r.room && !s.puntBusy p w
            && (linesOf (w.puntBase + 64 + 512 * (r.tail % r.slots)) 512).all (s.sideOpen g k)) go

/-- The write-back of a cluster's first correction whose bank's side port is free (08 R176, R182); a fenced cluster takes no write (14
R332). -/
def State.fixDue (s : State) (q : Nat × Cluster) : Option Out :=
  if q.2.frozen || q.2.fenced then none
  else firstOut q.2.cores fun (p : Nat × Core) =>
    (p.2.fixes.find? (fun x => x.ready && (!p.2.needs x || s.sideOpen q.1 p.1 x.line))).map fun x =>
      let s1 := s.modCore q.1 p.1 (Core.writeBack x)
      .next (if p.2.needs x then s1.takeSide q.1 p.1 [x.line] else s1)

/-! ### Landings and contexts (01 R26, R36, R38, 13 R303 to R307) -/

/-- The landings of one core on this cycle. -/
def State.landDue (s : State) (q : Nat × Nat × Cluster × Core) : Option Out :=
  let g := q.1
  let k := q.2.1
  let t := q.2.2.1.run
  let c := q.2.2.2
  (whenDue (c.ctxs.any (fun (p : Nat × Ctx) => p.2.flight.any (fun r => decide (r.due ≤ t)))
      || c.updateDue (fun u => !u.isCond && !u.isBank && u != .patternSwitch) t
      || c.cmds.any (fun m => m.kind == .shape && decide (m.done ≤ t))) fun _ => execResultLand g k s).orElse fun _ =>
  (whenDue (c.updateDue (fun u => u == .patternSwitch) t || c.cmds.any (fun m => m.kind == .spld && decide (m.done ≤ t))) fun _ =>
    execSpldSwitch g k s).orElse fun _ =>
  whenDue (c.fold.any (Fold.doneBy t)) fun _ => execFoldComplete g k s

/-- Launches, resumes and pitch completions of one core. -/
def State.contextDue (s : State) (q : Nat × Nat × Cluster × Core) : Option Out :=
  let g := q.1
  let k := q.2.1
  let cl := q.2.2.1
  let t := cl.run
  let c := q.2.2.2
  (whenDue (c.ctxs.any (fun (p : Nat × Ctx) => p.1 == 0 && p.2.status == .atPitch && decide (p.2.notBefore ≤ t)) && c.quiet t) fun _ =>
    execPitchComplete g k s).orElse fun _ =>
  match s.nextContext g k with
  | some x => some (execContextResume g k x s)
  | none => none

/-- Launches of a cluster's pending triggers, which may name cores that no table lists. -/
def State.launchDue (s : State) : Option Out :=
  firstOut s.clusters fun (q : Nat × Cluster) =>
    if q.2.live && q.2.trigger then
      (q.2.triggers.find? (fun (e : Nat × Trigger) => decide (0 < e.2.pending)
        && (List.range 4).any (fun x => q.2.isFree e.2.core x q.2.run))).map fun e => execContextLaunch q.1 e.2.core s
    else none

/-- Whether a cluster's barrier releases, or its trap, by now. -/
def Cluster.barrierDue (cl : Cluster) : Bool :=
  cl.trap.isNone && (match cl.barrierAt with
    | some r => decide (r ≤ cl.run)
    | none => false)
def Cluster.releaseDue (cl : Cluster) : Bool :=
  match cl.trap with
  | some tr => tr.rollbackAt.isNone && (match tr.release with
    | some r => decide (r ≤ cl.run)
    | none => false)
  | none => false

/-- The cluster's own events before dispatch: counters, the barrier, the release after a trap. -/
def State.clusterDue (s : State) : Option Out :=
  firstOut s.clusters fun (q : Nat × Cluster) =>
    if !q.2.live then none
    else
      (whenDue q.2.barrierDue fun _ => execBarRelease q.1 s).orElse fun _ =>
      whenDue q.2.releaseDue fun _ => .next (s.releaseTrap q.1)

/-- Steps 1 and 2 of R303 on this cycle. -/
def State.countDue (s : State) : Option Out :=
  firstOut s.clusters fun (q : Nat × Cluster) =>
    whenDue (q.2.live && decide (q.2.counted < q.2.run)
      && (q.2.bumps.any (fun b => decide (b.due ≤ q.2.run)) || q.2.reads.any (fun r => decide (r.due ≤ q.2.run)) || !q.2.triggers.isEmpty))
      fun _ => execArrivalCounterUpdate q.1 s

/-! ### Untimed operations, packets and links -/

/-- Untimed operations of one core: completions, time-outs and departures. -/
def State.untimedDue (s : State) (g k : Nat) : Option Out :=
  let n := gcore g k
  (firstOut [0, 1, 2, 3] fun x =>
    (whenDue (s.nextDone n x).isSome fun _ => execUntimedComplete g k x s).orElse fun _ =>
    whenDue ((s.opsOf n).any (fun q => q.1.ctx == x && s.overdue q.2)) fun _ => execResponseTimeout g k x s).orElse fun _ =>
  match s.nextDeparture n with
  | some (_, u) => whenDue (s.canDepart u) fun _ => execFabricDepart g k s
  | none => none

/-- Cores with untimed operations, live or parked. -/
def State.untimedCores (s : State) : List (Nat × Nat) :=
  (s.clusters.flatMap fun (q : Nat × Cluster) => (q.2.cores.filter (fun (p : Nat × Core) =>
    p.2.ctxs.any (fun (x : Nat × Ctx) => !x.2.untimed.isEmpty))).map (fun p => (q.1, p.1)))
    ++ s.parks.flatMap (fun p => p.ops.map (fun q => (q.1.core / 48, q.1.core % 48)))

/-- The events of one port and its pipeline. -/
def State.portDue (s : State) (p : Nat) : Option Out :=
  (whenDue (!(s.pipe p).writes.isEmpty) fun _ => execTableWriteApply p s).orElse fun _ =>
  (whenDue (s.tooLate p).isSome fun _ => execAbsorbAbandon p s).orElse fun _ =>
  (whenDue (s.ingressDue p) fun _ => execPacketIngress p none s).orElse fun _ =>
  (whenDue (s.importReady p) fun _ => execImportRequest (.serve p) s).orElse fun _ =>
  (whenDue (s.silent p) fun _ => execLinkSilenceTimeout p s).orElse fun _ =>
  s.puntDue p

/-- Every port or pipeline that a table lists. -/
def State.portsListed (s : State) : List Nat :=
  s.ports.map (·.1) ++ (s.pipes.map (·.1)).filter (fun p => !s.ports.any (fun q => q.1 == p))

/-- What leaves on this tick: scheduled flits, sync flits, and packets. -/
def State.egressEvents (s : State) : Option Out :=
  (firstOut s.domains fun d => firstOut d.records fun x =>
    if x.kind = 2 then whenDue (s.departDue d x) fun _ => execScheduledDeparture d.id x.index s else none).orElse fun _ =>
  (firstOut s.domains fun d => firstOut d.neighbours fun n =>
    whenDue (s.syncDue d n.port) fun _ => execSyncTick d.id n.port s).orElse fun _ =>
  firstOut s.ports fun (q : Nat × Port) => whenDue (s.egressDue q.1) fun _ => execPacketEgress q.1 s

/-! ### Domains, tasks and the controllers -/

/-- The events of one domain. -/
def State.domainDue (s : State) (d : Domain) : Option Out :=
  (whenDue (s.partOver d && d.clusters.all (fun g => !(s.cluster g).frozen)) fun _ => execDomainPartEnd d.id s).orElse fun _ =>
  (whenDue (s.boundaryReady d) fun _ => execLocalBoundary d.id s).orElse fun _ =>
  (firstOut d.neighbours fun n => whenDue (d.lost n.port) fun _ => execSyncLoss d.id n.port s).orElse fun _ =>
  (whenDue (d.goLate && (match d.phase with
    | .col _ => true
    | _ => false)) fun _ => execGoTimeout d.id s).orElse fun _ =>
  (whenDue (s.startNow d).isSome fun _ => execPitchStart d.id s).orElse fun _ =>
  whenDue (s.straggles d) fun _ => execStraggler d.id s

/-- The events of one task. -/
def State.taskDue (s : State) (t : Task) : Option Out :=
  (whenDue (s.captureDue t) fun _ => execCapture (.task t.id) s).orElse fun _ =>
  (match t.stopAt with
    | some q => whenDue (t.clusters.any (fun g => match (s.cluster g).streaming with
        | some n => decide (n ≤ s.now)
        | none => false)) fun _ => execCaptureEnd (.ended q) s
    | none => none).orElse fun _ =>
  whenDue (s.taskOver t) fun _ => execTriggerTaskEnd t.id s

/-- The events of the Dispatch Controller, the migration engine, the tree, the Assay controller and the platform. -/
def State.controlDue (s : State) : Option Out :=
  anyOf [
    fun _ => (firstOut s.domains s.domainDue),
    fun _ => (firstOut s.tasks s.taskDue),
    fun _ => (firstOut s.imageSets fun i => whenDue (s.diagDone i) fun _ => execCaptureEnd (.ended i.seq) s),
    fun _ => (firstOut s.restores fun r => whenDue (decide (r.cycle ≤ s.now)) fun _ => execRestoreRelease r.seq s),
    fun _ => (match s.nextVerdict with
    | some (w, p, _, _) => some (execAdmission w p s)
    | none => none),
    fun _ => (match s.migrations with
    | _ :: _ => whenDue s.migrationReady fun _ => execMigration .proceed s
    | [] => none),
    fun _ => (s.rekeys.head?.map fun n => execRekey n s),
    fun _ => (firstOut s.assay.scrubs fun x => whenDue (decide (x.frames.length ≤ x.done)) fun _ => execScrubComplete x.world s),
    fun _ => s.assayDue,
    fun _ => (match s.selftDone with
    | some (c, g) => whenDue (decide (c ≤ s.now)) fun _ => execSelftComplete (Config.selfTestPasses g) s
    | none => none),
    fun _ => whenDue (decide (s.refilled < s.now / 2 ^ 20)) fun _ => execTokenRefill s]

/-! ### A cycle's events in their order -/

/-- The event that falls next on this cycle before its bundles issue. -/
def State.dueBefore (s : State) : Option Out :=
  let cores := s.liveCores
  anyOf [
    fun _ => s.recordReads,
    fun _ => s.stepWrites,
    fun _ => (firstOut cores s.engineDue),
    fun _ => (firstOut cores s.drainDue),
    fun _ => (firstOut cores s.transferDue),
    fun _ => s.sendLines,
    fun _ => (firstOut cores s.sendOver),
    fun _ => s.lineWrites,
    fun _ => (firstOut s.clusters s.fixDue),
    fun _ => (firstOut s.absorbQ s.absorbDue),
    fun _ => (firstOut s.cairns s.cairnDue),
    fun _ => s.countDue,
    fun _ => (firstOut cores s.landDue),
    fun _ => s.clusterDue,
    fun _ => (firstOut s.untimedCores fun q => s.untimedDue q.1 q.2),
    fun _ => (firstOut s.portsListed s.portDue),
    fun _ => s.controlDue,
    fun _ => s.egressEvents,
    fun _ => s.launchDue,
    fun _ => firstOut cores s.contextDue]

/-- Whether a cluster's rollback falls before its next cycle. -/
def Cluster.rollbackDue (cl : Cluster) : Bool :=
  match cl.trap with
  | some tr => (match tr.rollbackAt with
    | some r => decide (r ≤ cl.run + 1)
    | none => false)
  | none => false

/-- The event that falls next on this cycle after its bundles have issued: steps 4 and 5 of R303, and a rollback, which falls before
anything of the next cycle (14 R322). -/
def State.dueAfter (s : State) : Option Out :=
  firstOut s.clusters fun (q : Nat × Cluster) =>
    (whenDue (q.2.live && q.2.reads.any (fun r => decide (r.due ≤ q.2.run))) fun _ => execArrivalCounterUpdate q.1 s).orElse fun _ =>
    whenDue (q.2.live && q.2.rollbackDue) fun _ => execRollback q.1 s

/-! ### The passing of a cycle -/

/-- One more cycle of a hold, in the counter of its kind (13 R299). -/
def Cluster.countHold (h : Hold) (cl : Cluster) : Cluster :=
  match h.kind with
  | .correctable => { cl with holdCount := satAdd cl.holdCount 1 }
  | .compat => { cl with compatCount := satAdd cl.compatCount 1 }
  | _ => cl

/-- The next cycle of a cluster that no hold has: a hold that has come due begins (14 R331), else a running cycle does. -/
def Cluster.begin (cl : Cluster) : Cluster :=
  let due := fun (cap : Bool) (h : Hold) => decide (h.after ≤ cl.run) && ((h.kind == .capture) == cap)
  match takeFirst (due false) cl.holds with
  | some (h, rest) => { cl with holding := some h, holds := rest }.countHold h
  | none =>
    match takeFirst (due true) cl.holds with
    | some (_, rest) => { cl with frozen := true, holds := rest }
    | none =>
      let t := cl.run + 1
      { cl with
        run := t
        side := cl.side.filter (fun a => decide (t ≤ a.due))
        accepted := cl.accepted.filter (fun a => decide (t ≤ a.1))
        cores := cl.cores.map fun p => (p.1, { p.2 with sideOld := [], sched := p.2.sched.filter (fun b => decide (t ≤ b.due)) }) }

/-- A cluster at the next core cycle (01 R32). -/
def Cluster.advance (cl : Cluster) : Cluster :=
  if cl.fenced || cl.frozen || cl.streaming.isSome then cl
  else match cl.holding with
    | some h => if 1 < h.len then { cl with holding := some { h with len := h.len - 1 } }.countHold h else { cl with holding := none }.begin
    | none => cl.begin

/-- The work of a cluster's anvils and fold units on a running cycle that has begun. DESIGN CHOICE (log entry 53): where the anvil
and the fold unit of a core meet their first operand fault on one cycle, 07 R163 does not say whose is recorded; here the anvil's
is. -/
def Cluster.compute (cl : Cluster) : Cluster :=
  { cl with cores := cl.cores.map fun p => (p.1, ((p.2.foldConds cl.run).mmaCycle cl.run).foldCycle cl.run) }

/-- Does something on every core of the clusters in a list. -/
def State.onCores (gs : List Nat) (f : Nat → Nat → Nat → State → State) (s : State) : State :=
  gs.foldl (fun s g => ((s.cluster g).cores.map (·.1)).foldl (fun s k => f g k (s.cluster g).run s) s) s

/-- Blocked walks are tried again after a page-table change (17 R385). -/
def State.retryBlocked (s : State) : State :=
  s.clusters.foldl (fun s (q : Nat × Cluster) =>
    if q.2.rewalk then
      let s1 := q.2.cores.foldl (fun s (p : Nat × Core) => p.2.ctxs.foldl (fun s (y : Nat × Ctx) =>
        if y.2.status == .blocked then
          match s.tryIssue q.1 p.1 y.1 with
          | .next r => r.cur.walks.foldl (fun s w => s.fillPage q.1 w.1 q.2.world w.2.1 w.2.2) s
          | _ => s
        else s) s) s
      s1.modCluster q.1 fun cl => { cl with rewalk := false }
    else s) s

/-- Corrections asked for on an earlier cycle may be written back from this one on (08 R176). -/
def Cluster.readyFixes (cl : Cluster) : Cluster :=
  if cl.cores.all (fun p => p.2.fixes.isEmpty) then cl
  else { cl with cores := cl.cores.map fun p => (p.1, { p.2 with fixes := p.2.fixes.map fun x => { x with ready := true } }) }

/-- The core cycle of a tick: clusters run on, and the engines that no event speaks for do this cycle's work. -/
def State.coreCycle (s : State) : State :=
  let old := s.clusters
  let s1 : State := { s with now := s.now + 1, clusters := s.clusters.map fun (q : Nat × Cluster) => (q.1, q.2.advance.readyFixes) }
  let gs := (old.filter (fun (q : Nat × Cluster) => decide (q.2.run < (s1.cluster q.1).run))).map (·.1)
  let s2 := gs.foldl (fun s g => s.modCluster g Cluster.compute) s1
  let s3 := s2.onCores gs (fun g k t s => s.engineCycle false g k t)
  let s4 := s3.onCores gs (fun g k t s => s.engineCycle true g k t)
  let s5 := s4.onCores gs (fun g k t s => s.untimedReads g k t)
  let s6 := s5.pipes.foldl (fun (s : State) (q : Nat × Pipe) => if s.handDue q.1 then s.handLines q.1 else s) s5
  s6.retryBlocked.colStep.answerShootdowns.refuseUnknown.scrubStep

/-- The next line tick (00 R6, 13 R301), with its core cycle unless the clock generator skips it (17 R393). -/
def State.clock (s : State) : State :=
  let s1 := s.countLosses
  let s2 := { s1 with tick := s1.tick + 1 }
  let s3 :=
    if s.skips then
      { s2 with
        skipped := true, stretchCount := satAdd s2.stretchCount 1, skipPhase := 0, skipWait := 7 + Config.skipGap s2.fresh
        fresh := s2.fresh + 1 }
    else State.coreCycle { s2 with skipped := false, skipPhase := s2.skipPhase + 1, skipWait := s2.skipWait - 1 }
  let s4 := if s3.tick.toNat % 256 = 0 then { s3 with worlds := s3.worlds.map fun p => (p.1, p.2.openWindow) } else s3
  s4.leadDecide

end Sys2Proof.Machine
end

