-- ==== Sys2Proof/Machine/Step.lean ====
section
/-! DEFINITION. One step of the module, and the state in which a given word is fetched next. -/

namespace Sys2Proof.Machine

/-- The action slot in hand (12 R284): the next word of the bundle being applied is decoded and run. -/
def State.actionStep (s : State) (w : Word) (rest : List Word) : Host.Outcome State Fault Refusal :=
  match decodeSlot w with
  | .ok sl => exec sl.instr { s with actions := rest }
  | .error _ => .next { s with actions := rest }

/-- One step: the next action slot of the packet in hand, else the packet's next bundle or stage; else the next input; else the next
event of the cycle before its bundles issue; else the bundles of the first cluster that has one due; else the next event after them;
else the next tick passes. -/
def step (s : State) : Host.Outcome State Fault Refusal :=
  match s.actions with
  | w :: rest => s.actionStep w rest
  | [] =>
    if s.pkt.active then .next s.advancePacket
    else
      (anyOf [
        fun _ => s.inputDue,
        fun _ => s.dueBefore,
        fun _ => firstOut s.clusters fun (q : Nat × Cluster) => s.dispatch q.1,
        fun _ => s.dueAfter]).getD (.next s.clock)

/-- The bundle that holds a word at the unit position of its opcode, padded with NOP slots (03 R69): after it where its stop bit is 0,
before it where it is 1. -/
def bundleFor (w : Word) : List Word :=
  let o := (opcodeOf w).toNat
  let p := if 0x40 ≤ o ∧ o ≤ 0x5B then 2 else if 0x60 ≤ o ∧ o ≤ 0x7D then 3 else if 0x80 ≤ o ∧ o ≤ 0xDB then 4 else 0
  let last : Word := 0x80000000
  if stopOf w && p != 0 then [BitVec.ofNat 32 (0xC0000000 + 2 ^ (31 - p)), 0, 0, w]
  else [BitVec.ofNat 32 (7 * 2 ^ (29 - p)), w, 0, last]

/-- The state with a word placed where the next step fetches: an action opcode as the next action slot, which no input, event or
packet comes before; any other opcode in a bundle at address 0 of core 0 of cluster 0, whose context 0 has just been launched
there: in timetable mode for BAR and PITCH, which no other mode runs, and in trigger mode for every other (01 R21). -/
def State.withFetchWord (s : State) (nbits w : Nat) : State :=
  let v : Word := BitVec.ofNat 32 w
  let o := (opcodeOf v).toNat
  if nbits = 0 then s
  else if 0xE0 ≤ o ∧ o ≤ 0xED then { s with actions := [v] }
  else
    let cl := s.cluster 0
    let code := (bundleFor v).flatMap (fun x => leBytes 4 x.toNat)
    { s with
      actions := [], pkt := {}, inputs := []
      clusters := tput s.clusters 0 { cl with
        trigger := !(o == 0xF4 || o == 0xF5), fenced := false, frozen := false, streaming := none, holding := none, trap := none
        cores := tput cl.cores 0 { cl.core 0 with
          running := 0, choosing := none, imem := Memory.writeN (cl.core 0).imem 0 code
          ctxs := tput (cl.core 0).ctxs 0 (((cl.core 0).ctx 0).launch 0 0 0 cl.run false) } } }

end Sys2Proof.Machine
end

