-- ==== Sys2Proof/Safety.lean ====
section
/-! DEFINITION. What counts as a safe run: the machine never stops. The one way in which it can stop is an input from outside that
names an object the module does not have. -/

namespace Sys2Proof.Machine

/-- An input names objects that the module has: its 36 ports and pipelines, its 17 functions and its 12 dies (00 R1, 17 R381). -/
def Instr.inRange (i : Instr) : Bool :=
  match i with
  | .syncIdle _ p _ => decide (p < 36)
  | .syncReady _ p _ => decide (p < 36)
  | .syncPending _ p _ => decide (p < 36)
  | .syncGo _ p _ => decide (p < 36)
  | .syncStop _ p _ => decide (p < 36)
  | .syncReplay _ p _ => decide (p < 36)
  | .frameIdle p _ => decide (p < 36)
  | .framePacket p _ => decide (p < 36)
  | .frameScheduled p _ => decide (p < 36)
  | .frameCalibration p _ => decide (p < 36)
  | .linkTrain p _ => decide (p < 36)
  | .pipelineReady p => decide (p.pipe < 36)
  | .launch fn _ => decide (fn < 17)
  | .ptchg fn _ => decide (fn < 17)
  | .registerWrite fn _ _ _ => decide (fn < 17)
  | .functionLevelReset fn => fn != 0 && decide (fn < 17)
  | .hbmTrain die => decide (die < 12)
  | _ => true

/-- Every input to come is an event that names objects of the module. -/
def State.inputsOk (s : State) : Prop := ∀ q ∈ s.inputs, q.2.isEvent = true ∧ Instr.inRange q.2 = true

/-- A run of k steps from a state does not stop. -/
def RunsOn (k : Nat) (s : State) : Prop := ∃ t : State, Sys2Proof.core.run k s = .next t

end Sys2Proof.Machine
end

