-- ==== Sys2Proof/Certificates/Slice0/Obligations.lean ====
section
/-! DEFINITION. The statements for the provers, formed from the numbered rules of the spec, with the words they use. -/

namespace Sys2Proof.Claims
end Sys2Proof.Claims

open Sys2Proof Sys2Proof.Machine Sys2Proof.Claims

/-- Words of the families of the opcode table, written from the fields of R66 and R67 and from the entries of their instructions (several
are the spec's own examples), are decoded as the slot with the stop bit, the slot guard and the instruction they stand for. -/
def Obligations.DecodeWords : Prop :=
  decodeSlot 0x00090810 = .ok ⟨false, 0, .add 4 4 1⟩ ∧
  decodeSlot 0x0011CE01 = .ok ⟨false, 0, .addi 7 7 1⟩ ∧
  decodeSlot 0x01A1D1FC = .ok ⟨false, 0, .loop 7 8 0x1FC⟩ ∧
  decodeSlot 0x8128885A = .ok ⟨true, 0, .cmp 2 4 5 1 2⟩ ∧
  decodeSlot 0x02218008 = .ok ⟨false, 0, .ld32 6 0 8⟩ ∧
  decodeSlot 0x830C4018 = .ok ⟨true, 0, .mmaz 1 1 0 1 2 0⟩ ∧
  decodeSlot 0x835A96C0 = .ok ⟨true, 0, .hget 10 11 12 0⟩ ∧
  decodeSlot 0x936A96C0 = .ok ⟨true, 2, .gth 10 11 12 0⟩ ∧
  decodeSlot 0x9418C228 = .ok ⟨true, 2, .vfmaF32 3 1 2 2 0⟩ ∧
  decodeSlot 0x867A5048 = .ok ⟨true, 0, .vcvtE4m3F32 9 8 4 2 0⟩ ∧
  decodeSlot 0x05416C82 = .ok ⟨false, 0, .vshli 5 2 6 8 0 2⟩ ∧
  decodeSlot 0x87B00851 = .ok ⟨true, 0, .wait 4 5 1⟩ ∧
  decodeSlot 0x07952A00 = .ok ⟨false, 0, .assay 20 21⟩ ∧
  decodeSlot 0x07A00000 = .ok ⟨false, 0, .bar⟩ ∧
  decodeSlot 0x87600010 = .ok ⟨true, 0, .aPunt 16⟩ ∧
  decodeSlot 0x87480005 = .ok ⟨true, 0, .aMirror 5⟩

/-- For every stop bit, slot guard and well-formed slot or action instruction, of all 225, the decoder reads from the encoded word exactly
that slot: no bit of an encoding is dropped and no two slots share a word. -/
def Obligations.DecodeEncode : Prop :=
  ∀ sl : Slot, sl.instr.isEvent = false → sl.instr.wf = true → decodeSlot (encodeSlot sl) = .ok sl

/-- For every 32-bit word, if the decoder reads a slot from it then that slot's instruction is a well-formed slot or action instruction
and its encoding is that word: the decoder ignores no bit, so a word with a nonzero unused bit is refused. -/
def Obligations.EncodeDecode : Prop :=
  ∀ (w : Word) (sl : Slot), decodeSlot w = .ok sl →
    sl.instr.isEvent = false ∧ sl.instr.wf = true ∧ encodeSlot sl = w

/-- For every word, the decoder answers the error of check 8 exactly when bits 26..19 are one of 0x38 to 0x3F, 0x5C to 0x5F, 0x7E, 0x7F,
0xBC to 0xBF, 0xDC to 0xDF, 0xEE, 0xEF or 0xF8 to 0xFF; and for every other opcode it answers a slot with that opcode, or the error of
check 11. -/
def Obligations.ReservedOpcodes : Prop :=
  ∀ w : Word,
    let o := (w.toNat / 2 ^ 19) % 256
    let reserved := (0x38 ≤ o ∧ o ≤ 0x3F) ∨ (0x5C ≤ o ∧ o ≤ 0x5F) ∨ (0x7E ≤ o ∧ o ≤ 0x7F) ∨ (0xBC ≤ o ∧ o ≤ 0xBF) ∨
      (0xDC ≤ o ∧ o ≤ 0xDF) ∨ (0xEE ≤ o ∧ o ≤ 0xEF) ∨ 0xF8 ≤ o
    (decodeSlot w = .error .opcodeUndefined ↔ reserved) ∧
    (¬ reserved → decodeSlot w = .error .operandIllegal ∨
      ∃ sl, decodeSlot w = .ok sl ∧ (opcodeOf (encodeSlot sl)).toNat = o)

namespace Sys2Proof.Claims

/-- The state in which the slots of a bundle run: its words are fetched, its context has moved past it, and the slot state names it. -/
def atSlots (s : State) (g k x : Nat) (b : Bundle) : State :=
  let t := (s.cluster g).run
  let s0 := ((s.modCluster g (Cluster.closeDrains [(k, x)])).fetchAll g [(k, x)]).atBundle g k x
  let s1 := s0.modHere (Ctx.advanced b t)
  { s1 with cur := { s1.cur with
    nextAddr := b.next
    link := if (s.ctx g k x).ser then b.next else (s0.core g k).linkFrom s1.here t 3 b.next } }

/-- The one bundle that the next step issues: the first cluster with anything to dispatch is g, its one context that may issue is
context x of core k, that context's next bundle b is due and passes the checks of R73 on it, and it takes no belay. -/
structure IssuesNext (s : State) (g k x : Nat) (b : Bundle) : Prop where
  noActions : s.actions = []
  noPacket : s.pkt.active = false
  noInput : s.inputDue = none
  noEvent : s.dueBefore = none
  first : firstOut s.clusters (fun q => s.dispatch q.1) = s.dispatch g
  one : (s.cluster g).issuers = [(k, x)]
  due : (s.cluster g).turn k x (s.cluster g).run (s.inExchange g) = .issue
  fetched : (s.core g k).fetchBad (s.ctx g k x).pc = false
  bundle : (s.core g k).bundle (s.ctx g k x).pc = some b
  early : b.early (s.ctx g k x) (s.inExchange g) = none
  judged : (atSlots s g k x b).judge b = none
  undrained : (s.ctx g k x).ser = false ∨ (s.core g k).wbuf = []
  noBelay : b.belays (s.ctx g k x).ser (s.inExchange g) = false

/-- A slot's meaning has not ended its bundle. -/
def goesOn (u : State) : Prop := u.cur.trapped = none ∧ u.cur.blocked = false ∧ u.cur.held = false

end Sys2Proof.Claims

/-- Where the next step issues bundle b of one context, the step answers what running the bundle's live slots answers, with the context
settled after a transfer; and running live slots is: none left, the state as it is; else the slot decodes to instruction i, exec of i runs
at the state with the slot's position and opcode in hand, and where that answers a state whose slot did not trap, block or hold its
bundle, the slots after it run there. A live slot is one whose guard reads true. -/
def Obligations.StepRunsDecodedSlot : Prop :=
  (∀ (s : State) (g k x : Nat) (b : Bundle), IssuesNext s g k x b → ∀ u : State,
    (atSlots s g k x b).runSlots ((atSlots s g k x b).liveSlots b) = .next u → goesOn u →
    step s = .next (u.modCtx g k x (Ctx.settle (s.cluster g).run (s.ctx g k x).ser))) ∧
  (∀ s : State, s.runSlots [] = .next s) ∧
  (∀ (s u : State) (p : Nat) (w : Word) (l : List (Nat × Word)) (sl : Slot), decodeSlot w = .ok sl →
    exec sl.instr { s with cur := { s.cur with pos := p, opc := (opcodeOf w).toNat } } = .next u → goesOn u →
    s.runSlots ((p, w) :: l) = u.runSlots l) ∧
  (∀ (s : State) (b : Bundle) (p : Nat) (w : Word),
    (p, w) ∈ s.liveSlots b ↔ (p, w) ∈ b.slots ∧ s.here.rp (guardOf w).toNat = true)

/-- Where the bytes in hand are an action slot that decodes to an instruction i, the step answers exec of i at the state with that slot
removed from those in hand; a word in hand that does not decode is passed over. With no action slot and no packet in hand, where the first
input whose tick has come and which does not wait for its step of bring-up is the event i, the step answers exec of i at the state with
that input removed: inputs are the model's own way to hold what arrives from outside (log entry 5), and that one waits for its step of
bring-up is its choice (log entry 47). -/
def Obligations.StepRunsActionOrInput : Prop :=
  (∀ (s : State) (w : Word) (rest : List Word), s.actions = w :: rest →
    (∀ sl, decodeSlot w = .ok sl → step s = exec sl.instr { s with actions := rest }) ∧
    (∀ e, decodeSlot w = .error e → step s = .next { s with actions := rest })) ∧
  (∀ (s : State) (before after : List (Nat × Instr)) (d : Nat) (i : Instr), s.actions = [] → s.pkt.active = false →
    s.inputs = before ++ (d, i) :: after → d ≤ s.tick.toNat → s.tooEarly i = false →
    (∀ q ∈ before, s.tick.toNat < q.1 ∨ s.tooEarly q.2 = true) → i.isEvent = true →
    step s = exec i { s with inputs := before ++ after })

namespace Sys2Proof.Claims

/-- The state that differs from `s` only in the results added to those in flight of the context in hand. -/
def issuing (s : State) (rs : List Result) : State := s.modHere fun c => { c with flight := c.flight ++ rs }

/-- A result of the slot in hand: it lands `lat` running cycles after the issue cycle and changes the bits of `dest` under `mask`. -/
def result (s : State) (lat : Nat) (dest : Dest) (mask val : Vec) (flags : Word) : Result :=
  { due := s.t + lat, issued := s.t, pos := s.cur.pos, dest := dest, mask := mask, val := val, flags := flags }

/-- A 32-bit result for sD, cD or a special register, with no flags. -/
def toS (s : State) (lat : Nat) (d : BitVec 5) (v : Word) : Result := result s lat (.s d.toNat) 0xFFFFFFFF (v.setWidth 1024) 0
def toC (s : State) (lat : Nat) (d : BitVec 5) (v : Word) : Result := result s lat (.c d.toNat) 0xFFFFFFFF (v.setWidth 1024) 0
def toSr (s : State) (d : BitVec 5) (mask v : Word) : Result := result s 1 (.sr d.toNat) (mask.setWidth 1024) (v.setWidth 1024) 0

/-- A predicate result. -/
def toP (s : State) (d : Nat) (v : Bool) : Result := result s 1 (.p d) 1 (if v then 1 else 0) 0

/-- A whole number modulo 2^32 (wrap32 of R105). -/
def wrap (z : Int) : Word := BitVec.ofInt 32 z

/-- The number of set bits among bits 0 to n - 1. -/
def ones (x : Word) : Nat → Nat
  | 0 => 0
  | n + 1 => ones x n + if x.getLsbD n then 1 else 0

end Sys2Proof.Claims

/-- For every state, ADD, ADDI, SUB, MUL, MULH, MULHZ, AND, ANDI, OR, ORI, XOR and XORI answer the state in which one result for sD is in
flight: the exact sum, difference or product wrapped to 32 bits, bits 63..32 of the signed or unsigned product, or the bitwise
combination, with the sign-extended I9 as the second operand of an immediate form; it lands at issue + 1, of the multiplies at issue + 3.
The state is otherwise the same state: no register, flag, special register, memory byte or other context changes on the issue cycle. -/
def Obligations.ScalarSums : Prop :=
  ∀ (s : State) (d a b : BitVec 5) (i : BitVec 9),
    let x := s.rs a
    let y := s.rs b
    exec (.add d a b) s = .next (issuing s [toS s 1 d (wrap (x.toInt + y.toInt))]) ∧
    exec (.addi d a i) s = .next (issuing s [toS s 1 d (wrap (x.toInt + i.toInt))]) ∧
    exec (.sub d a b) s = .next (issuing s [toS s 1 d (wrap (x.toInt - y.toInt))]) ∧
    exec (.mul d a b) s = .next (issuing s [toS s 3 d (wrap (x.toInt * y.toInt))]) ∧
    exec (.mulh d a b) s = .next (issuing s [toS s 3 d ((BitVec.ofInt 64 (x.toInt * y.toInt)).extractLsb' 32 32)]) ∧
    exec (.mulhz d a b) s = .next (issuing s [toS s 3 d ((BitVec.ofNat 64 (x.toNat * y.toNat)).extractLsb' 32 32)]) ∧
    exec (.and d a b) s = .next (issuing s [toS s 1 d (x &&& y)]) ∧
    exec (.andi d a i) s = .next (issuing s [toS s 1 d (x &&& wrap i.toInt)]) ∧
    exec (.or d a b) s = .next (issuing s [toS s 1 d (x ||| y)]) ∧
    exec (.ori d a i) s = .next (issuing s [toS s 1 d (x ||| wrap i.toInt)]) ∧
    exec (.xor d a b) s = .next (issuing s [toS s 1 d (x ^^^ y)]) ∧
    exec (.xori d a i) s = .next (issuing s [toS s 1 d (x ^^^ wrap i.toInt)])

namespace Sys2Proof.Claims

/-- The shifts of R60 at width 32 by an amount of 0 to 255, as the table gives them. -/
def shiftLeft (x : Word) (n : BitVec 8) : Word := if n.toNat < 32 then x <<< n.toNat else 0
def shiftRight (x : Word) (n : BitVec 8) : Word := if n.toNat < 32 then x >>> n.toNat else 0
def shiftSign (x : Word) (n : BitVec 8) : Word :=
  if n.toNat < 32 then x.sshiftRight n.toNat else if x.msb then BitVec.allOnes 32 else 0
def rotateLeft (x : Word) (n : BitVec 8) : Word := x.rotateLeft (n.toNat % 32)

end Sys2Proof.Claims

/-- For every state, SHL, SHR, SRA and ROT, by bits 7..0 of sB, and SHLI, SHRI, SRAI and ROTI, by their 8-bit immediate, answer the state
in which one result for sD lands at issue + 1: the shifted or rotated value of sA below 32, and from 32 on zero, copies of the sign bit,
or a rotation by the amount modulo 32. The state is otherwise the same state. -/
def Obligations.ScalarShifts : Prop :=
  ∀ (s : State) (d a b : BitVec 5) (i : BitVec 8),
    let x := s.rs a
    let n := (s.rs b).extractLsb' 0 8
    exec (.shl d a b) s = .next (issuing s [toS s 1 d (shiftLeft x n)]) ∧
    exec (.shr d a b) s = .next (issuing s [toS s 1 d (shiftRight x n)]) ∧
    exec (.sra d a b) s = .next (issuing s [toS s 1 d (shiftSign x n)]) ∧
    exec (.rot d a b) s = .next (issuing s [toS s 1 d (rotateLeft x n)]) ∧
    exec (.shli d a i) s = .next (issuing s [toS s 1 d (shiftLeft x i)]) ∧
    exec (.shri d a i) s = .next (issuing s [toS s 1 d (shiftRight x i)]) ∧
    exec (.srai d a i) s = .next (issuing s [toS s 1 d (shiftSign x i)]) ∧
    exec (.roti d a i) s = .next (issuing s [toS s 1 d (rotateLeft x i)])

/-- For every state, MIN, MAX, MINZ, MAXZ, ABS, CLZ, POPC, SXB, SXH, ZXB and ZXH answer the state in which one result for sD lands at
issue + 1 with the value of R106; so do SETL (the sign-extended I14), SETH (sD times 2^14 plus I14), SEL (sA where the predicate numbered
F is true, else sB) and the well-formed forms of MOV (sA, cA, or p15..p0 with bit 0 set) and MOVS (the special register as a read at issue
returns it). The state is otherwise the same state. The leading zeros of x are 32 less the length of x. -/
def Obligations.ScalarSelections : Prop :=
  ∀ (s : State) (d a b : BitVec 5) (i : BitVec 14) (f : BitVec 4),
    let x := s.rs a
    let y := s.rs b
    exec (.min d a b) s = .next (issuing s [toS s 1 d (wrap (Min.min x.toInt y.toInt))]) ∧
    exec (.max d a b) s = .next (issuing s [toS s 1 d (wrap (Max.max x.toInt y.toInt))]) ∧
    exec (.minz d a b) s = .next (issuing s [toS s 1 d (wrap (Min.min x.toNat y.toNat : Nat))]) ∧
    exec (.maxz d a b) s = .next (issuing s [toS s 1 d (wrap (Max.max x.toNat y.toNat : Nat))]) ∧
    exec (.abs d a) s = .next (issuing s [toS s 1 d (if x.msb then 0 - x else x)]) ∧
    (∀ n : Nat, n ≤ 32 → x.toNat < 2 ^ n → (n = 0 ∨ 2 ^ (n - 1) ≤ x.toNat) →
      exec (.clz d a) s = .next (issuing s [toS s 1 d (BitVec.ofNat 32 (32 - n))])) ∧
    exec (.popc d a) s = .next (issuing s [toS s 1 d (BitVec.ofNat 32 (ones x 32))]) ∧
    exec (.sxb d a) s = .next (issuing s [toS s 1 d (wrap (x.extractLsb' 0 8).toInt)]) ∧
    exec (.sxh d a) s = .next (issuing s [toS s 1 d (wrap (x.extractLsb' 0 16).toInt)]) ∧
    exec (.zxb d a) s = .next (issuing s [toS s 1 d (x &&& 0xFF)]) ∧
    exec (.zxh d a) s = .next (issuing s [toS s 1 d (x &&& 0xFFFF)]) ∧
    exec (.setl d i) s = .next (issuing s [toS s 1 d (wrap i.toInt)]) ∧
    exec (.seth d i) s = .next (issuing s [toS s 1 d (wrap ((s.rs d).toNat * 2 ^ 14 + i.toNat : Nat))]) ∧
    exec (.sel d a b f) s = .next (issuing s [toS s 1 d (if f = 0 ∨ s.here.p.getLsbD f.toNat then x else y)]) ∧
    exec (.mov d a 0) s = .next (issuing s [toS s 1 d x]) ∧
    exec (.mov d a 1) s = .next (issuing s [toS s 1 d (s.rc a)]) ∧
    exec (.mov d 0 2) s = .next (issuing s [toS s 1 d ((s.here.p ||| 1).setWidth 32)]) ∧
    (a.toNat < 12 → exec (.movs d a) s = .next (issuing s [toS s 1 d (s.sr a.toNat)]))

/-- For every state, a MOVS of special register 0 to 11 answers the state in which one result for sD lands at issue + 1 with the trap
status, cause and value, the handler base, the sticky flags, the mode, the context word of R91 (logical cluster times 512 plus core times
8 plus 4 in trigger mode plus context), the world of the cluster, the low 32 bits of the running cycle, the pitch number of the domain (0
in trigger mode), the belay pointer and the stepping word of the core, in that order. -/
def Obligations.SpecialRegisterReads : Prop :=
  ∀ (s : State) (d : BitVec 5),
    let c := s.here
    let cl := s.hereCluster
    exec (.movs d 0) s = .next (issuing s [toS s 1 d c.tsr]) ∧
    exec (.movs d 1) s = .next (issuing s [toS s 1 d c.tcr]) ∧
    exec (.movs d 2) s = .next (issuing s [toS s 1 d c.tva]) ∧
    exec (.movs d 3) s = .next (issuing s [toS s 1 d c.hvb]) ∧
    exec (.movs d 4) s = .next (issuing s [toS s 1 d c.fst]) ∧
    exec (.movs d 5) s = .next (issuing s [toS s 1 d c.fmd]) ∧
    exec (.movs d 6) s = .next (issuing s [toS s 1 d
      (wrap (cl.logical * 512 + s.cur.k * 8 + (if cl.trigger then 4 else 0) + s.cur.x : Nat))]) ∧
    exec (.movs d 7) s = .next (issuing s [toS s 1 d (wrap (cl.world : Nat))]) ∧
    exec (.movs d 8) s = .next (issuing s [toS s 1 d (wrap (cl.run : Nat))]) ∧
    (cl.trigger = true → exec (.movs d 9) s = .next (issuing s [toS s 1 d 0])) ∧
    (∀ m, cl.trigger = false → s.domainOf s.cur.g = some m → exec (.movs d 9) s = .next (issuing s [toS s 1 d m.pcn])) ∧
    exec (.movs d 10) s = .next (issuing s [toS s 1 d c.blp]) ∧
    exec (.movs d 11) s = .next (issuing s [toS s 1 d s.hereCore.stg])

/-- For every state: MOVT to HVB, FST and FMD issues one result that changes bits 16..6, bits 5..0 and bits 3..0 of the register and no
reserved bit, landing at issue + 1; a MOVT to TSR, TCR or TVA in a handler (TSR.HND = 1) issues one that changes all of TSR and TVA and
bits 7..0 of TCR; a MOVT to CTX, WORLD, CYC, PCN, BLP or STG answers the same state; and a MOVT to TSR, TCR or TVA with TSR.HND = 0 takes
the trap CONTEXT_ILLEGAL. -/
def Obligations.SpecialRegisterWrites : Prop :=
  ∀ (s : State) (a : BitVec 5),
    let v := s.rs a
    exec (.movt 3 a) s = .next (issuing s [toSr s 3 0x0001FFC0 v]) ∧
    exec (.movt 4 a) s = .next (issuing s [toSr s 4 0x0000003F v]) ∧
    exec (.movt 5 a) s = .next (issuing s [toSr s 5 0x0000000F v]) ∧
    (s.here.tsr.getLsbD 4 = true →
      exec (.movt 0 a) s = .next (issuing s [toSr s 0 0xFFFFFFFF v]) ∧
      exec (.movt 1 a) s = .next (issuing s [toSr s 1 0x000000FF v]) ∧
      exec (.movt 2 a) s = .next (issuing s [toSr s 2 0xFFFFFFFF v])) ∧
    (∀ n : BitVec 5, 6 ≤ n.toNat → n.toNat ≤ 11 → exec (.movt n a) s = .next s) ∧
    (∀ n : BitVec 5, n.toNat ≤ 2 → s.here.tsr.getLsbD 4 = false →
      exec (.movt n a) s = .next (s.takeTrap codeContextIllegal))

namespace Sys2Proof.Claims

/-- The conditions of R111: equal, unequal, less, at least, at most, greater, a common set bit, none; signed or unsigned. -/
def holds (n : BitVec 3) (x y : Word) (sgn : Bool) : Bool :=
  match n.toNat with
  | 0 => decide (x = y)
  | 1 => decide (x ≠ y)
  | 2 => if sgn then decide (x.toInt < y.toInt) else decide (x.toNat < y.toNat)
  | 3 => if sgn then decide (y.toInt ≤ x.toInt) else decide (y.toNat ≤ x.toNat)
  | 4 => if sgn then decide (x.toInt ≤ y.toInt) else decide (x.toNat ≤ y.toNat)
  | 5 => if sgn then decide (y.toInt < x.toInt) else decide (y.toNat < x.toNat)
  | 6 => (List.range 32).any (fun i => x.getLsbD i && y.getLsbD i)
  | _ => (List.range 32).all (fun i => !(x.getLsbD i && y.getLsbD i))

end Sys2Proof.Claims

/-- For every state and every condition code, CMP and CMPZ with C = 0, with C = 1 and an even D, and CMPI answer the state in which pD
lands at issue + 1 as the truth of the condition of R111, compared as two's complement by CMP and CMPI and as unsigned by CMPZ, and with C
= 1 its complement lands in p(D+1) on the same cycle; EQ, NE, TST and NTST give the same value in either reading. Nothing else changes. -/
def Obligations.Compares : Prop :=
  ∀ (s : State) (d a b : BitVec 5) (n : BitVec 3) (i : BitVec 6),
    let x := s.rs a
    let y := s.rs b
    let z := wrap i.toInt
    (exec (.cmp d a b 0 n) s = .next (issuing s [toP s d.toNat (holds n x y true)])) ∧
    (exec (.cmpz d a b 0 n) s = .next (issuing s [toP s d.toNat (holds n x y false)])) ∧
    (exec (.cmpi d a n i) s = .next (issuing s [toP s d.toNat (holds n x z true)])) ∧
    (d.toNat % 2 = 0 →
      exec (.cmp d a b 1 n) s =
        .next (issuing s [toP s d.toNat (holds n x y true), toP s (d.toNat + 1) (!holds n x y true)]) ∧
      exec (.cmpz d a b 1 n) s =
        .next (issuing s [toP s d.toNat (holds n x y false), toP s (d.toNat + 1) (!holds n x y false)])) ∧
    (n = 0 ∨ n = 1 ∨ n = 6 ∨ n = 7 → holds n x y true = holds n x y false)

/-- For every state, PAND, POR and PXOR answer the state in which pD lands at issue + 1 as the AND, OR or XOR of pA inverted by NA and pB
inverted by NB, inverted by NR; PSET pD as whether sA is nonzero; PSET PMASK as one result for each of p1 to p15, pi being bit i of sA; a
read of p0 is true. CADD with a coordinate or a scalar second operand, CADDI, CSET and CMOV answer the state in which one result for cD
lands at issue + 1: the sum wrapped modulo 2^32, the sign-extended immediate, or the copied register. Nothing else changes. -/
def Obligations.PredicatesAndCoordinates : Prop :=
  ∀ (s : State) (d a b : BitVec 5) (nr nb na : BitVec 1) (i : BitVec 9) (j : BitVec 14),
    let x := (decide (a = 0) || s.here.p.getLsbD a.toNat) ^^ decide (na = 1)
    let y := (decide (b = 0) || s.here.p.getLsbD b.toNat) ^^ decide (nb = 1)
    let r := decide (nr = 1)
    exec (.pand d a b nr nb na) s = .next (issuing s [toP s d.toNat ((x && y) ^^ r)]) ∧
    exec (.por d a b nr nb na) s = .next (issuing s [toP s d.toNat ((x || y) ^^ r)]) ∧
    exec (.pxor d a b nr nb na) s = .next (issuing s [toP s d.toNat ((x ^^ y) ^^ r)]) ∧
    exec (.pset d a 0) s = .next (issuing s [toP s d.toNat (decide (s.rs a ≠ 0))]) ∧
    exec (.pset 0 a 1) s =
      .next (issuing s ((List.range 15).map fun i => toP s (i + 1) ((s.rs a).getLsbD (i + 1)))) ∧
    exec (.cadd d a b 0) s = .next (issuing s [toC s 1 d (wrap ((s.rc a).toInt + (s.rc b).toInt))]) ∧
    exec (.cadd d a b 1) s = .next (issuing s [toC s 1 d (wrap ((s.rc a).toInt + (s.rs b).toInt))]) ∧
    exec (.caddi d a i) s = .next (issuing s [toC s 1 d (wrap ((s.rc a).toInt + i.toInt))]) ∧
    exec (.cset d j) s = .next (issuing s [toC s 1 d (wrap j.toInt)]) ∧
    exec (.cmov d a 0) s = .next (issuing s [toC s 1 d (s.rs a)]) ∧
    exec (.cmov d a 1) s = .next (issuing s [toC s 1 d (s.rc a)])

namespace Sys2Proof.Claims

/-- The state in which the context in hand has taken a transfer to an address. -/
def transferred (s : State) (dest : Nat) : State := s.modHere fun c => { c with shadow := some ⟨s.t, dest⟩ }

/-- target(v) of R118 for an exact sum: bits 16..2 of its low 32 bits, times 4. -/
def targetOf (z : Int) : Nat := (wrap z).toNat / 4 % 2 ^ 15 * 4

/-- Bundles that stand one after another from an address on. -/
def bundlesFrom (k : Core) : Nat → List Bundle → Prop
  | _, [] => True
  | a, b :: l => k.bundle a = some b ∧ bundlesFrom k b.next l

/-- The cycle on which bundle i of a list falls by the offsets, from the sync base, or by the deltas, from the reference cycle. -/
def fallsOn (c : Ctx) (elastic : Bool) (l : List Bundle) (i : Nat) : Int :=
  if elastic then c.refc + ((l.take (i + 1)).map (fun b => headOfs b.head)).sum else c.base + ((l[i]?.map fun b => headOfs b.head).getD 0 : Nat)

end Sys2Proof.Claims

/-- For every state whose context is not in the shadow of a taken transfer, BR, BRI, CALL and RET answer the state that records a transfer
taken on the issue cycle to the target of R118, formed from sA plus four times I9, the bundle's address plus four times the displacement,
or sA; CALL also has its link in flight for sD, landing at issue + 1. LOOP does so exactly when signed sD + 1 is below signed sA without
wrapping, and otherwise answers the same state, in a shadow too. Nothing else changes: no register changes on the issue cycle. The link
that the dispatcher has in hand for a CALL at t is the address of the first of the bundles after it that does not fall on t + 1 or t + 2,
by the offsets of its region from the sync base or by the sum of its deltas, whatever their guards; that a MARK among them is passed over
like any slot is the model's choice (log entry 69). -/
def Obligations.Transfers : Prop :=
  ∀ (s : State) (d a : BitVec 5) (i : BitVec 9) (j : BitVec 14),
    let addr : Int := s.cur.addr
    (s.here.shadow = none →
      exec (.br a i) s = .next (transferred s (targetOf ((s.rs a).toNat + 4 * i.toInt))) ∧
      exec (.bri j) s = .next (transferred s (targetOf (addr + 4 * j.toInt))) ∧
      exec (.call d j) s =
        .next (transferred (issuing s [toS s 1 d (wrap (s.cur.link : Nat))]) (targetOf (addr + 4 * j.toInt))) ∧
      exec (.ret a) s = .next (transferred s (targetOf (s.rs a).toNat)) ∧
      ((s.rs d).toInt + 1 < (s.rs a).toInt →
        exec (.loop d a i) s = .next (transferred s (targetOf (addr + 4 * i.toInt))))) ∧
    (¬ (s.rs d).toInt + 1 < (s.rs a).toInt → exec (.loop d a i) s = .next s) ∧
    (∀ (k : Core) (c : Ctx) (e : Bool) (t p : Nat) (l : List Bundle) (b : Bundle), c.regionE = some e → bundlesFrom k p (l ++ [b]) → l.length ≤ 2 →
      (∀ n, n < l.length → (t : Int) < fallsOn c e (l ++ [b]) n ∧ fallsOn c e (l ++ [b]) n ≤ t + 2) →
      ¬ ((t : Int) < fallsOn c e (l ++ [b]) l.length ∧ fallsOn c e (l ++ [b]) l.length ≤ t + 2) →
      k.linkFrom c t 3 p = b.addr)

namespace Sys2Proof.Claims

/-- No register of any context differs: scalar, coordinate, predicate and vector registers, FST, FMD and HVB. -/
def sameRegisters (s t : State) : Prop :=
  ∀ g k x,
    (t.ctx g k x).s = (s.ctx g k x).s ∧ (t.ctx g k x).c = (s.ctx g k x).c ∧ (t.ctx g k x).p = (s.ctx g k x).p ∧
    (t.ctx g k x).v = (s.ctx g k x).v ∧ (t.ctx g k x).fst = (s.ctx g k x).fst ∧ (t.ctx g k x).fmd = (s.ctx g k x).fmd ∧
    (t.ctx g k x).hvb = (s.ctx g k x).hvb

/-- No trap register of any context differs. -/
def sameTrapRegisters (s t : State) : Prop :=
  ∀ g k x, (t.ctx g k x).tsr = (s.ctx g k x).tsr ∧ (t.ctx g k x).tcr = (s.ctx g k x).tcr ∧ (t.ctx g k x).tva = (s.ctx g k x).tva

/-- No byte of memory differs: of a scratchpad, as an engine reads it with the buffered stores merged; of instruction memory; of HBM. -/
def sameMemory (s t : State) : Prop :=
  (∀ g k a, (t.core g k).engineByte a = (s.core g k).engineByte a) ∧
  (∀ g k a, Memory.read (t.core g k).imem a = Memory.read (s.core g k).imem a) ∧
  ∀ a, Memory.read t.hbm.cells a = Memory.read s.hbm.cells a

/-- No per-core state of the engines differs: accumulators with their poison, rings, shapes, patterns, status entries. -/
def sameEngineState (s t : State) : Prop :=
  ∀ g k,
    (t.core g k).acc = (s.core g k).acc ∧ (t.core g k).accPoison = (s.core g k).accPoison ∧
    (t.core g k).rings = (s.core g k).rings ∧ (t.core g k).shapes = (s.core g k).shapes ∧
    (t.core g k).patterns = (s.core g k).patterns ∧ (t.core g k).patSel = (s.core g k).patSel ∧
    (t.core g k).ts = (s.core g k).ts

/-- Every context but the one in hand is as it was. -/
def othersSame (s t : State) : Prop :=
  ∀ g k x, ¬ (g = s.cur.g ∧ k = s.cur.k ∧ x = s.cur.x) → t.ctx g k x = s.ctx g k x

/-- Only trap registers and scheduling state of contexts, and cluster and domain bookkeeping, may differ. -/
def onlyControl (s t : State) : Prop := sameRegisters s t ∧ sameMemory s t ∧ sameEngineState s t

end Sys2Proof.Claims

/-- For every state, NOP answers the same state; MARK answers the same state in serial issue mode, and otherwise the state in which only
the issuing context's sync base and reference cycle are t + 1 and its next bundle begins a region; CHK of two scalars or two coordinates
answers the same state when they are equal and takes the trap DUP_MISMATCH when they differ. -/
def Obligations.NopMarkCheck : Prop :=
  ∀ (s : State) (a b : BitVec 5),
    exec .nop s = .next s ∧
    (s.here.tsr.getLsbD 3 = true → exec .mark s = .next s) ∧
    (s.here.tsr.getLsbD 3 = false →
      exec .mark s = .next (s.modHere fun c =>
        { c with base := s.t + 1, refc := s.t + 1, regionE := none, lastOfs := none })) ∧
    (s.rs a = s.rs b → exec (.chk a b 0) s = .next s) ∧
    (s.rc a = s.rc b → exec (.chk a b 1) s = .next s) ∧
    (s.rs a ≠ s.rs b → exec (.chk a b 0) s = .next (s.takeTrap codeDupMismatch)) ∧
    (s.rc a ≠ s.rc b → exec (.chk a b 1) s = .next (s.takeTrap codeDupMismatch))

/-- For every state whose context is in the shadow of a taken transfer, BR, BRI, CALL, RET, TRET and a LOOP whose condition holds take the
trap SHADOW_ILLEGAL and nothing else; a LOOP whose condition does not hold answers the same state; and a slot whose guard reads false is
not among the live slots of its bundle, so it does not run. -/
def Obligations.ShadowIllegal : Prop :=
  ∀ (s : State) (sh : Shadow) (d a : BitVec 5) (i : BitVec 9) (j : BitVec 14), s.here.shadow = some sh →
    exec (.br a i) s = .next (s.takeTrap codeShadowIllegal) ∧
    exec (.bri j) s = .next (s.takeTrap codeShadowIllegal) ∧
    exec (.call d j) s = .next (s.takeTrap codeShadowIllegal) ∧
    exec (.ret a) s = .next (s.takeTrap codeShadowIllegal) ∧
    exec .tret s = .next (s.takeTrap codeShadowIllegal) ∧
    ((s.rs d).toInt + 1 < (s.rs a).toInt → exec (.loop d a i) s = .next (s.takeTrap codeShadowIllegal)) ∧
    (¬ (s.rs d).toInt + 1 < (s.rs a).toInt → exec (.loop d a i) s = .next s) ∧
    ∀ (b : Bundle) (p : Nat) (w : Word), s.here.rp (guardOf w).toNat = false → (p, w) ∉ s.liveSlots b

/-- For every state outside a handler and outside an exchange pitch, TRAP answers a state in which the context's TSR holds the opcode in
bits 15..8, 0b10 in trigger mode and 0 in a compute pitch in bits 7..6, HND and SER set and the unit position in bits 2..0; TCR is
SOFTWARE_TRAP (0x1C) and TVA the code; its next bundle is at HVB + 64 times the cause, within the 128 KiB of instruction memory, not
before two cycles from now. Outside serial issue mode the cluster stops with this handler and rolls back on the next cycle, and HVB is
that of the belay; in serial issue mode the context alone enters and notes its bundle's address. No other context, register, memory byte
or engine state changes. That the handler is that of the HVB which the rollback restores is the model's choice (log entry 17). -/
def Obligations.TrapEntry : Prop :=
  ∀ (s : State) (im : BitVec 14), s.here.tsr.getLsbD 4 = false → s.inExchange s.cur.g = false →
    ∃ t, exec (.trap im) s = .next t ∧
      t.here.tsr = BitVec.ofNat 32 (s.cur.opc * 2 ^ 8 + (if s.hereCluster.trigger then 2 else 0) * 2 ^ 6 + 2 ^ 4 + 2 ^ 3 + s.cur.pos) ∧
      t.here.tcr = 0x1C ∧ t.here.tva = im.setWidth 32 ∧ t.here.status = .ready ∧ t.here.notBefore = s.t + 2 ∧
      (s.here.tsr.getLsbD 3 = false →
        t.here.pc = (s.here.dup.hvb.toNat + 64 * 0x1C) % 0x20000 ∧
        t.hereCluster.trap =
          some { cycle := s.t, handlers := [(s.cur.k, s.cur.x)], deferred := false, rollbackAt := some (s.t + 1), release := none }) ∧
      (s.here.tsr.getLsbD 3 = true →
        t.here.pc = (s.here.hvb.toNat + 64 * 0x1C) % 0x20000 ∧ t.here.resume = s.cur.addr ∧
        t.hereCluster.trap = s.hereCluster.trap) ∧
      onlyControl s t ∧ othersSame s t

/-- For every state: where TSR.HND is 1, a TRAP answers a state in which the cluster is fenced with code HANDLER_FAULT (0x43) and has no
command, fold or matrix operation left; no byte of memory changes but the busy counts of the segments of its copies. In an exchange pitch
outside a handler, a TRAP answers a state in which every domain that holds the cluster has a first failure, which is SOFTWARE_TRAP where
it had none before, and no context enters a handler; and BAR in serial issue mode takes MODE_ILLEGAL, which is fatal to the domain and
stops the core. -/
def Obligations.TrapElsewhere : Prop :=
  (∀ (s : State) (im : BitVec 14), s.here.tsr.getLsbD 4 = true →
    ∃ t, exec (.trap im) s = .next t ∧ t.hereCluster.fenced = true ∧ t.hereCluster.fenceCode = 0x43 ∧
      (∀ k, (t.core s.cur.g k).cmds = [] ∧ (t.core s.cur.g k).anvil = [] ∧ (t.core s.cur.g k).fold = []) ∧
      (∀ g k a, (t.core g k).engineByte a = (s.core g k).engineByte a) ∧
      (∀ g k a, Memory.read (t.core g k).imem a = Memory.read (s.core g k).imem a) ∧
      ∀ a, (∀ k, ∀ c ∈ (s.core s.cur.g k).cmds, hbmKinds.contains c.kind = true → c.failed = false →
          ¬ (s.segAddr c.world c.seg + 2 ≤ a ∧ a < s.segAddr c.world c.seg + 4)) →
        Memory.read t.hbm.cells a = Memory.read s.hbm.cells a) ∧
  (∀ (s : State) (im : BitVec 14), s.here.tsr.getLsbD 4 = false → s.inExchange s.cur.g = true →
    ∃ t, exec (.trap im) s = .next t ∧
      (∀ d ∈ s.domains, d.clusters.contains s.cur.g = true → d.phase ≠ .ended →
        { d with failure := some (d.failure.getD 0x1C) } ∈ t.domains) ∧
      (∀ g, t.cluster g = s.cluster g)) ∧
  (∀ s : State, s.here.tsr.getLsbD 4 = false → s.here.tsr.getLsbD 3 = true → s.inExchange s.cur.g = true →
    ∃ t, exec .bar s = .next t ∧ t.here.status = .faulted ∧
      ∀ d ∈ s.domains, d.clusters.contains s.cur.g = true → d.phase ≠ .ended →
        { d with fatal := some (d.fatal.getD 0x09) } ∈ t.domains)

/-- For every state in a handler, not in a shadow, whose TSR has zero bits 31..16 and 5 and PH other than 0b11: TRET answers a state in
which TSR has lost HND, and SER too unless the task requested serial issue. A serial task goes on at the address noted at the trap, not
before t + 8. Otherwise, where this is the last handler of the cluster's trap and no rollback is deferred, the cluster is released at t +
8. In a handler with a corrupt TSR in trigger mode the cluster is fenced with STATUS_CORRUPT (0x40); outside a handler TRET takes
CONTEXT_ILLEGAL. No register but TSR and no byte changes. -/
def Obligations.TrapReturn : Prop :=
  ∀ s : State, s.here.shadow = none →
    (s.here.tsr.getLsbD 4 = false → exec .tret s = .next (s.takeTrap codeContextIllegal)) ∧
    (s.here.tsr.getLsbD 4 = true → s.here.tsr.toNat < 2 ^ 16 → s.here.tsr.getLsbD 5 = false →
      (s.here.tsr.toNat / 2 ^ 6) % 4 ≠ 3 →
      ∃ t, exec .tret s = .next t ∧ sameRegisters s t ∧ sameMemory s t ∧
        t.here.tsr = (if s.here.serialTask then s.here.tsr &&& 0xFFFFFFEF else s.here.tsr &&& 0xFFFFFFE7) ∧
        t.here.tcr = s.here.tcr ∧ t.here.tva = s.here.tva ∧
        (s.here.serialTask = true → t.here.pc = s.here.resume ∧ t.here.notBefore = s.t + 8) ∧
        (∀ tr, s.here.serialTask = false → s.hereCluster.trap = some tr → tr.handlers = [(s.cur.k, s.cur.x)] → tr.deferred = false →
          t.hereCluster.trap = some { tr with handlers := [], release := some (s.t + 8) })) ∧
    (s.here.tsr.getLsbD 4 = true → s.hereCluster.trigger = true →
      (2 ^ 16 ≤ s.here.tsr.toNat ∨ s.here.tsr.getLsbD 5 = true ∨ (s.here.tsr.toNat / 2 ^ 6) % 4 = 3) →
      ∃ t, exec .tret s = .next t ∧ t.hereCluster.fenced = true ∧ t.hereCluster.fenceCode = 0x40)

namespace Sys2Proof.Claims

/-- Every entry of the withholding buffer that a context stored is released. -/
def released (c : Core) (x : Nat) : Prop := ∀ e ∈ c.wbuf, e.ctx = x → e.released = true

end Sys2Proof.Claims

/-- For every state: HALT, where the core holds no anvil fault record, answers a state in which the context has halted and its stores are
released; outside trigger mode and serial issue mode, BAR answers a state in which the context waits at the barrier and its core arrives
at t + 1, and PITCH one in which the context waits at the pitch boundary and every store of the core is released; after BAR and PITCH the
context's next region begins afresh, at the target of a transfer taken before it where there is one; that a BAR or PITCH in a shadow keeps
that target for the next region is the model's choice (log entry 30). In trigger mode BAR and PITCH take MODE_ILLEGAL. No register, memory
byte or engine state changes. -/
def Obligations.HaltBarPitch : Prop :=
  ∀ s : State,
    (s.hereCore.afault = none →
      ∃ t, exec .halt s = .next t ∧ t.here.status = .halted ∧ released t.hereCore s.cur.x ∧ onlyControl s t ∧
        sameTrapRegisters s t ∧ (s.here.tsr.getLsbD 4 = false → othersSame s t) ∧
        (s.hereCluster.trigger = true → t.hereCore.choosing = some s.t)) ∧
    (s.hereCluster.trigger = false → s.here.tsr.getLsbD 3 = false →
      (∃ t, exec .bar s = .next t ∧ t.here.status = .atBar ∧ (s.cur.k, s.t + 1) ∈ t.hereCluster.arrived ∧
        t.here.regionE = none ∧ t.here.shadow = none ∧
        (∀ sh, s.here.shadow = some sh → t.here.pc = sh.target) ∧ (s.here.shadow = none → t.here.pc = s.here.pc) ∧
        onlyControl s t ∧ sameTrapRegisters s t ∧ othersSame s t) ∧
      (∃ t, exec .pitch s = .next t ∧ t.here.status = .atPitch ∧ (∀ x, released t.hereCore x) ∧
        t.here.regionE = none ∧ t.here.shadow = none ∧
        (∀ sh, s.here.shadow = some sh → t.here.pc = sh.target) ∧ (s.here.shadow = none → t.here.pc = s.here.pc) ∧
        onlyControl s t ∧ sameTrapRegisters s t ∧ othersSame s t)) ∧
    (s.hereCluster.trigger = true →
      exec .bar s = .next (s.takeTrap codeModeIllegal) ∧ exec .pitch s = .next (s.takeTrap codeModeIllegal))

/-- For every state in trigger mode, outside serial issue mode, with no anvil fault record of the core and sA below 256: where arrival
counter sA of the cluster is at least sB, WAIT answers the same state and WAIT.c a state in which that counter is less by sB, every other
counter as it was, and no register or byte differs; otherwise both answer the blocked bundle. For every state and selector that R299 lists
below 0x500, CNT answers a state that reads the counter on cycle issue + 1 for sD, CNT.clr (of an arrival, core or cluster counter) also
clears it then, and CNT.add bumps the arrival counter by sB on issue + 1: nothing else changes. That the two reading modes ignore B is the
model's choice (log entry 14). -/
def Obligations.WaitAndCount : Prop :=
  ∀ (s : State) (d a b : BitVec 5),
    let n := (s.rs a).toNat
    let v := (s.rs b).toNat
    (s.hereCluster.trigger = true → s.here.tsr.getLsbD 3 = false → s.hereCore.afault = none → n < 256 →
      (v ≤ s.hereCluster.counter n →
        exec (.wait a b 0) s = .next s ∧
        ∃ t, exec (.wait a b 1) s = .next t ∧ t.hereCluster.counter n = s.hereCluster.counter n - v ∧
          (∀ m, m ≠ n → t.hereCluster.counter m = s.hereCluster.counter m) ∧
          (∀ g k x, t.ctx g k x = s.ctx g k x) ∧ onlyControl s t) ∧
      (s.hereCluster.counter n < v →
        exec (.wait a b 0) s = .next s.block ∧ exec (.wait a b 1) s = .next s.block)) ∧
    (n / 256 = 0 ∨ (n / 256 = 1 ∧ n % 256 < 2) ∨ (n / 256 = 2 ∧ n % 256 < 3) ∨ (n / 256 = 3 ∧ n % 256 < 3) ∨
        (n / 256 = 4 ∧ n % 256 < 6) →
      exec (.cnt d a b 0) s = .next (s.modHereCluster fun cl => { cl with
        reads := cl.reads ++ [⟨s.t + 1, s.cur.k, s.cur.x, n, s.cur.pos, d.toNat, false⟩] }) ∧
      (n / 256 ≠ 1 → n / 256 ≠ 2 →
        exec (.cnt d a b 1) s = .next (s.modHereCluster fun cl => { cl with
          reads := cl.reads ++ [⟨s.t + 1, s.cur.k, s.cur.x, n, s.cur.pos, d.toNat, true⟩] })) ∧
      (n < 256 →
        exec (.cnt 0 a b 2) s = .next (s.modHereCluster fun cl => { cl with
          bumps := cl.bumps ++ [⟨s.t + 1, n, v, some (s.cur.k, s.cur.x), none⟩] })))

namespace Sys2Proof.Claims

/-- The value that a 32-bit register takes from a result: the bits under the mask. -/
def mixed (old : Word) (r : Result) : Word :=
  (old &&& ~~~(r.mask.setWidth 32)) ||| ((r.val &&& r.mask).setWidth 32)

end Sys2Proof.Claims

/-- For every core, RESULT_LAND on running cycle t answers a state in which each context's results due after t, and only those, are still
in flight. For a context that keeps nothing apart after a rollback and has exactly one result due: bound for s1 to s31 or a coordinate it
writes the bits of its mask and no other register; bound for a predicate 1 to 15 it writes that predicate; bound for a vector register it
writes the bits of its mask and no other vector register; bound for TSR, TCR, TVA, HVB, FST or FMD it writes the bits of its mask in that
register and no other register; bound for s0 or p0 it changes no register; and its flags are ORed into FST, after a result for FST itself.
No memory byte changes. -/
def Obligations.ResultLands : Prop :=
  ∀ (s : State) (g k : Nat), ∃ t, exec (.resultLand g k) s = .next t ∧ sameMemory s t ∧
    ∀ x, (t.ctx g k x).flight = (s.ctx g k x).flight.filter (fun r => decide ((s.cluster g).run < r.due)) ∧
      ∀ r, (s.ctx g k x).flight.filter (fun r => decide (r.due ≤ (s.cluster g).run)) = [r] → (s.ctx g k x).replaying = false →
        (∀ n m, r.dest = .s n → n ≠ 0 →
          (t.ctx g k x).rs m = if m = n then mixed ((s.ctx g k x).rs n) r else (s.ctx g k x).rs m) ∧
        (∀ n m, r.dest = .c n →
          (t.ctx g k x).rc m = if m = n then mixed ((s.ctx g k x).rc n) r else (s.ctx g k x).rc m) ∧
        (∀ n m, r.dest = .p n → n ≠ 0 → n < 16 → m < 16 →
          (t.ctx g k x).rp m = if m = n then r.val.getLsbD 0 else (s.ctx g k x).rp m) ∧
        (∀ n m, r.dest = .v n →
          (t.ctx g k x).rv m = if m = n then ((s.ctx g k x).rv n &&& ~~~r.mask) ||| (r.val &&& r.mask) else (s.ctx g k x).rv m) ∧
        (r.dest = .s 0 ∨ r.dest = .p 0 →
          (t.ctx g k x).s = (s.ctx g k x).s ∧ (t.ctx g k x).c = (s.ctx g k x).c ∧ (t.ctx g k x).p = (s.ctx g k x).p ∧
          (t.ctx g k x).v = (s.ctx g k x).v) ∧
        ((∃ n, r.dest = .sr n) →
          (t.ctx g k x).s = (s.ctx g k x).s ∧ (t.ctx g k x).c = (s.ctx g k x).c ∧ (t.ctx g k x).p = (s.ctx g k x).p ∧
          (t.ctx g k x).v = (s.ctx g k x).v) ∧
        (let sr := fun (n : Nat) (old : Word) => if r.dest = .sr n then mixed old r else old
         (t.ctx g k x).tsr = sr 0 (s.ctx g k x).tsr ∧ (t.ctx g k x).tcr = sr 1 (s.ctx g k x).tcr ∧ (t.ctx g k x).tva = sr 2 (s.ctx g k x).tva ∧
         (t.ctx g k x).hvb = sr 3 (s.ctx g k x).hvb ∧ (t.ctx g k x).fst = sr 4 (s.ctx g k x).fst ||| r.flags ∧
         (t.ctx g k x).fmd = sr 5 (s.ctx g k x).fmd)

/-- Where exactly two results of a core land on running cycle t, both in one context that keeps nothing apart, RESULT_LAND answers a state
in which a scalar register s1 to s31, a coordinate, a predicate 1 to 15 or a vector register that both are bound for takes each bit under
its mask from the one issued later, or from the one of the higher unit position where both issued together, and each bit that only the
other covers from that one. The core's collision counter advances by 1 (it saturates at 0xFFFF_FFFF) where their masks share a bit, FST,
s0 and p0 apart, and stands where they share none or are bound for two registers. s0 and p0 read as before. -/
def Obligations.ResultsCollide : Prop :=
  ∀ (s : State) (g k x : Nat) (a b : Result), (s.ctx g k x).replaying = false →
    (∀ y, y ≠ x → (s.ctx g k y).flight.filter (fun r => decide (r.due ≤ (s.cluster g).run)) = []) →
    ((s.ctx g k x).flight.filter (fun r => decide (r.due ≤ (s.cluster g).run)) = [a, b] ∨
      (s.ctx g k x).flight.filter (fun r => decide (r.due ≤ (s.cluster g).run)) = [b, a]) →
    (a.issued < b.issued ∨ a.issued = b.issued ∧ a.pos < b.pos) →
    ((s.core g k).ctxs.map (·.1)).Nodup →
    ∃ t, exec (.resultLand g k) s = .next t ∧
      (∀ n, n ≠ 0 → a.dest = .s n → b.dest = .s n → (t.ctx g k x).rs n = mixed (mixed ((s.ctx g k x).rs n) a) b) ∧
      (∀ n, a.dest = .c n → b.dest = .c n → (t.ctx g k x).rc n = mixed (mixed ((s.ctx g k x).rc n) a) b) ∧
      (∀ n, n ≠ 0 → n < 16 → a.dest = .p n → b.dest = .p n → (t.ctx g k x).rp n = b.val.getLsbD 0) ∧
      (∀ n, a.dest = .v n → b.dest = .v n →
        (t.ctx g k x).rv n = ((((s.ctx g k x).rv n &&& ~~~a.mask) ||| (a.val &&& a.mask)) &&& ~~~b.mask) ||| (b.val &&& b.mask)) ∧
      (t.ctx g k x).rs 0 = 0 ∧ (t.ctx g k x).rp 0 = true ∧
      (t.core g k).collisions =
        (if a.dest = b.dest ∧ a.dest ≠ .s 0 ∧ a.dest ≠ .p 0 ∧ a.dest ≠ .sr 4 ∧ a.mask &&& b.mask ≠ 0 ∧ (s.core g k).collisions ≠ 0xFFFFFFFF
          then (s.core g k).collisions + 1 else (s.core g k).collisions)

namespace Sys2Proof.Claims

/-- CPY.hbm. -/
def isHbmCopy : Instr → Bool
  | .cpyHbm .. => true
  | _ => false

/-- The trap that the table of R21 gives an instruction in the mode, pitch and issue mode of the slot in hand: the column of the pitch or mode
is judged first, then the serial-issue column. Opcodes stand for the rows; CPY.hbm shares its opcode with the local form. -/
def tableTrap (s : State) (i : Instr) : Option Nat :=
  let o := (opcodeOf (encode i)).toNat
  let hbm := (0x6B ≤ o ∧ o ≤ 0x6E) ∨ isHbmCopy i = true
  let untimed := (0x71 ≤ o ∧ o ≤ 0x75) ∨ (0x78 ≤ o ∧ o ≤ 0x7A) ∨ o = 0xF2 ∨ o = 0xF6
  let compute := (0x40 ≤ o ∧ o ≤ 0x56) ∨ o = 0x59 ∨ o = 0x5B ∨ (0x60 ≤ o ∧ o ≤ 0x69) ∨ (0x80 ≤ o ∧ o ≤ 0xDB)
  let barrier := o = 0xF4 ∨ o = 0xF5
  let ser := s.here.tsr.getLsbD 3
  if s.inExchange s.cur.g = true ∧ compute then some codePhaseIllegal
  else if s.hereCluster.trigger = false ∧ s.inExchange s.cur.g = false ∧ hbm then some codePhaseIllegal
  else if s.hereCluster.trigger = false ∧ untimed then some codeModeIllegal
  else if s.hereCluster.trigger = true ∧ barrier then some codeModeIllegal
  else if ser = true ∧ (o = 0x6F ∨ o = 0x70 ∨ barrier) then some codeModeIllegal
  else if ser = true ∧ s.hereCluster.world ≠ 0 ∧ untimed then some codeModeIllegal
  else none

end Sys2Proof.Claims

/-- For every state and every well-formed slot instruction whose operand values pass check 11: where the table of R21 gives PHASE or MODE
for the column of the pitch or mode, or else MODE for the serial-issue column, exec answers the state that has taken PHASE_ILLEGAL or
MODE_ILLEGAL, and nothing else of the instruction is done. ASSAY is legal where WAIT is. -/
def Obligations.LegalByPitch : Prop :=
  ∀ (s : State) (i : Instr) (c : Nat), i.isEvent = false → i.wf = true → s.valuesOk i = true →
    tableTrap s i = some c → exec i s = .next (s.takeTrap c)

namespace Sys2Proof.Claims

/-- Lane i, of e bits, of the part of a register that W and H select. -/
def laneAt (v : Vec) (w h : BitVec 2) (e i : Nat) : Nat := v.toNat / 2 ^ (widthBits w * h.toNat + e * i) % 2 ^ e

/-- The register bits of the part. -/
def partBits (w h : BitVec 2) : Vec := BitVec.ofNat 1024 ((2 ^ widthBits w - 1) * 2 ^ (widthBits w * h.toNat))

/-- An answer that issues one vector result: `lat` cycles on, to the part of vD, with lane i of e bits being `f i` and the flags `fl`. -/
def vectorResult (s : State) (o : Out) (lat : Nat) (d : BitVec 5) (w h : BitVec 2) (e : Nat) (f : Nat → Nat) (fl : Word) : Prop :=
  ∃ v : Vec, o = .next (issuing s [result s lat (.v d.toNat) (partBits w h) v fl]) ∧
    ∀ i, i < widthBits w / e → laneAt v w h e i = f i

/-- An integer as a lane of e bits. -/
def inLane (e : Nat) (z : Int) : Nat := (z % (2 ^ e : Nat)).toNat

/-- A lane of e bits read as two's complement. -/
def signedLane (e n : Nat) : Int := if 2 ^ (e - 1) ≤ n then (n : Int) - (2 ^ e : Nat) else n

/-- Clamped to the signed, or unsigned, range of e bits. -/
def clampSigned (e : Nat) (z : Int) : Int := Max.max (-(2 ^ (e - 1) : Nat) : Int) (Min.min ((2 ^ (e - 1) : Nat) - 1 : Int) z)
def clampUnsigned (e : Nat) (z : Int) : Int := Max.max 0 (Min.min ((2 ^ e : Nat) - 1 : Int) z)

/-- FST.SAT where some lane clamps. -/
def satFlag (n : Nat) (f : Nat → Int) (clamped : Nat → Int) : Word := if ∃ i, i < n ∧ f i ≠ clamped i then 32 else 0

/-- The slot may issue a vector instruction on a legal part. -/
def vectorOk (s : State) (w h : BitVec 2) : Prop := s.inExchange s.cur.g = false ∧ okWH w h = true

end Sys2Proof.Claims

/-- For every state outside an exchange pitch and every legal part, VADD, VSUB and VMUL of 32, 16 and 8 bits, VMIN and VMAX of s32 and
z32, VADDS of s16, s8 and z8, VAND, VOR, VXOR and VANDN answer the state in which one result for the part of vD lands at issue + 3, each
lane independent: the exact value modulo 2^e, the smaller or larger lane, the clamped exact sum, or the bitwise value. VADDS raises SAT
when a lane clamps, and no other flag is raised. Bits outside the part are not written, and nothing else changes. -/
def Obligations.VectorIntegers : Prop :=
  ∀ (s : State) (d a b : BitVec 5) (w h : BitVec 2), vectorOk s w h →
    let x := fun (e i : Nat) => laneAt (s.rv a) w h e i
    let y := fun (e i : Nat) => laneAt (s.rv b) w h e i
    let sx := fun (e i : Nat) => signedLane e (x e i)
    let sy := fun (e i : Nat) => signedLane e (y e i)
    vectorResult s (exec (.vaddI32 d a b w h) s) 3 d w h 32 (fun i => inLane 32 (x 32 i + y 32 i)) 0 ∧
    vectorResult s (exec (.vsubI32 d a b w h) s) 3 d w h 32 (fun i => inLane 32 (x 32 i - y 32 i)) 0 ∧
    vectorResult s (exec (.vmulI32 d a b w h) s) 3 d w h 32 (fun i => inLane 32 (x 32 i * y 32 i)) 0 ∧
    vectorResult s (exec (.vminS32 d a b w h) s) 3 d w h 32 (fun i => inLane 32 (Min.min (sx 32 i) (sy 32 i))) 0 ∧
    vectorResult s (exec (.vmaxS32 d a b w h) s) 3 d w h 32 (fun i => inLane 32 (Max.max (sx 32 i) (sy 32 i))) 0 ∧
    vectorResult s (exec (.vminZ32 d a b w h) s) 3 d w h 32 (fun i => Min.min (x 32 i) (y 32 i)) 0 ∧
    vectorResult s (exec (.vmaxZ32 d a b w h) s) 3 d w h 32 (fun i => Max.max (x 32 i) (y 32 i)) 0 ∧
    vectorResult s (exec (.vaddI16 d a b w h) s) 3 d w h 16 (fun i => inLane 16 (x 16 i + y 16 i)) 0 ∧
    vectorResult s (exec (.vsubI16 d a b w h) s) 3 d w h 16 (fun i => inLane 16 (x 16 i - y 16 i)) 0 ∧
    vectorResult s (exec (.vmulI16 d a b w h) s) 3 d w h 16 (fun i => inLane 16 (x 16 i * y 16 i)) 0 ∧
    vectorResult s (exec (.vaddI8 d a b w h) s) 3 d w h 8 (fun i => inLane 8 (x 8 i + y 8 i)) 0 ∧
    vectorResult s (exec (.vsubI8 d a b w h) s) 3 d w h 8 (fun i => inLane 8 (x 8 i - y 8 i)) 0 ∧
    vectorResult s (exec (.vaddsS16 d a b w h) s) 3 d w h 16 (fun i => inLane 16 (clampSigned 16 (sx 16 i + sy 16 i)))
      (satFlag (widthBits w / 16) (fun i => sx 16 i + sy 16 i) (fun i => clampSigned 16 (sx 16 i + sy 16 i))) ∧
    vectorResult s (exec (.vaddsS8 d a b w h) s) 3 d w h 8 (fun i => inLane 8 (clampSigned 8 (sx 8 i + sy 8 i)))
      (satFlag (widthBits w / 8) (fun i => sx 8 i + sy 8 i) (fun i => clampSigned 8 (sx 8 i + sy 8 i))) ∧
    vectorResult s (exec (.vaddsZ8 d a b w h) s) 3 d w h 8 (fun i => inLane 8 (clampUnsigned 8 (x 8 i + y 8 i)))
      (satFlag (widthBits w / 8) (fun i => x 8 i + y 8 i) (fun i => clampUnsigned 8 (x 8 i + y 8 i))) ∧
    vectorResult s (exec (.vand d a b w h) s) 3 d w h 32 (fun i => laneAt (s.rv a &&& s.rv b) w h 32 i) 0 ∧
    vectorResult s (exec (.vor d a b w h) s) 3 d w h 32 (fun i => laneAt (s.rv a ||| s.rv b) w h 32 i) 0 ∧
    vectorResult s (exec (.vxor d a b w h) s) 3 d w h 32 (fun i => laneAt (s.rv a ^^^ s.rv b) w h 32 i) 0 ∧
    vectorResult s (exec (.vandn d a b w h) s) 3 d w h 32 (fun i => laneAt (s.rv a &&& ~~~(s.rv b)) w h 32 i) 0

namespace Sys2Proof.Claims

/-- The shifts of R60 on a lane of e bits by an amount of 0 to 255. -/
def laneShl (e x n : Nat) : Nat := if n < e then x * 2 ^ n % 2 ^ e else 0
def laneShr (e x n : Nat) : Nat := if n < e then x / 2 ^ n else 0
def laneSra (e x n : Nat) : Nat := inLane e (signedLane e x / (2 ^ Min.min n (e - 1) : Nat))
def laneRot (e x n : Nat) : Nat := (x * 2 ^ (n % e) + x / 2 ^ (e - n % e)) % 2 ^ e

end Sys2Proof.Claims

/-- For every state outside an exchange pitch, every legal part and lane width of 32, 16 or 8, VSHL, VSHR, VSRA and VROT, by bits 7..0 of
the same lane of vB, and VSHLI, VSHRI and VSRAI, by the 8-bit immediate n, answer the state in which one result for the part of vD lands
at issue + 3 with each lane of the old vD shifted as the table of R60 gives; no flag is raised and nothing else changes. -/
def Obligations.VectorShifts : Prop :=
  ∀ (s : State) (d b : BitVec 5) (n : BitVec 3) (m : BitVec 5) (c w h : BitVec 2), vectorOk s w h → c ≠ 3 →
    let e := laneBits c
    let x := fun (i : Nat) => laneAt (s.rv d) w h e i
    let y := fun (i : Nat) => laneAt (s.rv b) w h e i % 256
    let k := (n ++ m : BitVec 8).toNat
    vectorResult s (exec (.vshl d c b w h) s) 3 d w h e (fun i => laneShl e (x i) (y i)) 0 ∧
    vectorResult s (exec (.vshr d c b w h) s) 3 d w h e (fun i => laneShr e (x i) (y i)) 0 ∧
    vectorResult s (exec (.vsra d c b w h) s) 3 d w h e (fun i => laneSra e (x i) (y i)) 0 ∧
    vectorResult s (exec (.vrot d c b w h) s) 3 d w h e (fun i => laneRot e (x i) (y i)) 0 ∧
    vectorResult s (exec (.vshli d c n m w h) s) 3 d w h e (fun i => laneShl e (x i) k) 0 ∧
    vectorResult s (exec (.vshri d c n m w h) s) 3 d w h e (fun i => laneShr e (x i) k) 0 ∧
    vectorResult s (exec (.vsrai d c n m w h) s) 3 d w h e (fun i => laneSra e (x i) k) 0

/-- For every state outside an exchange pitch, every legal part and lane width e of 32, 16 or 8, VCNT and VCLZ answer the state in which
one result for the part of vD lands at issue + 3, each lane of e bits holding the number of 1 bits of the same lane of vA, or the number
of its leading zeros: e for a zero lane, and e - 1 - k where bit k is its highest 1 bit. Nothing else changes. -/
def Obligations.VectorCounts : Prop :=
  ∀ (s : State) (d a : BitVec 5) (c w h : BitVec 2), vectorOk s w h → c ≠ 3 →
    let e := laneBits c
    let x := fun (i : Nat) => laneAt (s.rv a) w h e i
    vectorResult s (exec (.vcnt d a c w h) s) 3 d w h e
      (fun i => ((List.range e).filter (fun k => (x i).testBit k)).length) 0 ∧
    ∃ f : Nat → Nat, vectorResult s (exec (.vclz d a c w h) s) 3 d w h e f 0 ∧
      ∀ i, i < widthBits w / e → (x i = 0 → f i = e) ∧ ∀ k, 2 ^ k ≤ x i → x i < 2 ^ (k + 1) → f i = e - 1 - k

/-- For every state outside an exchange pitch and every legal part: VSEL, VMOV, VBCST, VIOTA and VCMPI issue one result for the part of
vD, landing at issue + 3, with the lane R136 or R132 gives; VEXT one scalar result, the lane; VINS one result that writes the one lane of
vD; VMASKP the predicate that any (or all) lanes are nonzero, with its complement in p(D+1) for the pair form; VPTOM the 32-bit mask of
the nonzero lanes of group u; all land at issue + 3 and raise no flag. VCHK answers the same state for equal parts and takes DUP_MISMATCH
for different ones. Nothing else changes. -/
def Obligations.VectorLanes : Prop :=
  ∀ (s : State) (d a b l : BitVec 5) (k y : BitVec 1) (u c w h : BitVec 2), vectorOk s w h →
    let e := laneBits c
    let n := widthBits w / 32
    let x := fun (i : Nat) => laneAt (s.rv a) w h 32 i
    let z := fun (i : Nat) => laneAt (s.rv b) w h 32 i
    vectorResult s (exec (.vsel d a b w h) s) 3 d w h 32 (fun i => if laneAt (s.rv d) w h 32 i ≠ 0 then x i else z i) 0 ∧
    vectorResult s (exec (.vmov d a w h) s) 3 d w h 32 x 0 ∧
    vectorResult s (exec (.vcmpi d a b w h) s) 3 d w h 32 (fun i =>
      (if signedLane 32 (x i) < signedLane 32 (z i) then 1 else 0) + (if x i = z i then 2 else 0)
        + (if signedLane 32 (z i) < signedLane 32 (x i) then 4 else 0) + (if x i < z i then 8 else 0)
        + (if z i < x i then 16 else 0)) 0 ∧
    (c ≠ 3 →
      vectorResult s (exec (.vbcst d a c w h) s) 3 d w h e (fun _ => (s.rs a).toNat % 2 ^ e) 0 ∧
      vectorResult s (exec (.viota d a c w h) s) 3 d w h e (fun i => ((s.rs a).toNat + i) % 2 ^ e) 0 ∧
      (let v := if y = 1 then decide (∀ i, i < widthBits w / e → laneAt (s.rv a) w h e i ≠ 0)
          else decide (∃ i, i < widthBits w / e ∧ laneAt (s.rv a) w h e i ≠ 0)
        let p := fun (q : Nat) (r : Bool) => result s 3 (.p q) 1 (if r then 1 else 0) 0
        (k = 0 → exec (.vmaskp d a k y c w h) s = .next (issuing s [p d.toNat v])) ∧
        (k = 1 → d.toNat % 2 = 0 →
          exec (.vmaskp d a k y c w h) s = .next (issuing s [p d.toNat v, p (d.toNat + 1) (!v)]))) ∧
      (32 * u.toNat < widthBits w / e → ∃ m : Word,
        exec (.vptom d a u c w h) s = .next (issuing s [toS s 3 d m]) ∧
        ∀ j, j < 32 → m.getLsbD j = decide (32 * u.toNat + j < widthBits w / e ∧ laneAt (s.rv a) w h e (32 * u.toNat + j) ≠ 0))) ∧
    (l.toNat < n →
      exec (.vext d a l w h) s = .next (issuing s [toS s 3 d (BitVec.ofNat 32 (x l.toNat))]) ∧
      ∃ m v : Vec, exec (.vins d a l w h) s = .next (issuing s [result s 3 (.v d.toNat) m v 0]) ∧
        ∀ j, j < 1024 →
          m.getLsbD j = decide (widthBits w * h.toNat + 32 * l.toNat ≤ j ∧ j < widthBits w * h.toNat + 32 * l.toNat + 32) ∧
          (m.getLsbD j = true → v.getLsbD j = (s.rs a).getLsbD (j - (widthBits w * h.toNat + 32 * l.toNat)))) ∧
    ((∀ i, i < n → x i = z i) → exec (.vchk a b w h) s = .next s) ∧
    ((∃ i, i < n ∧ x i ≠ z i) → exec (.vchk a b w h) s = .next (s.takeTrap codeDupMismatch))

namespace Sys2Proof.Claims

/-- Lane results, each with the flags it raises: the OR of those of the first n. -/
def flagsOf (n : Nat) (f : Nat → Lane) : Word := BitVec.ofNat 32 (orFlags ((List.range n).map f))

/-- An answer that issues one vector result, `lat` cycles on, to the part of vD: lane i of e bits is that of `f i`, and the flags are
those of all its lanes. -/
def floatResult (s : State) (o : Out) (lat : Nat) (d : BitVec 5) (w h : BitVec 2) (e : Nat) (f : Nat → Lane) : Prop :=
  vectorResult s o lat d w h e (fun i => (f i).1) (flagsOf (widthBits w / e) f)

/-- FP32 and BF16 patterns: a NaN, a signalling NaN, an infinity and a zero of either sign. -/
abbrev nan32 (x : Nat) : Prop := 0x7F800000 < x % 2 ^ 31
abbrev nan16 (x : Nat) : Prop := 0x7F80 < x % 2 ^ 15
abbrev snan32 (x : Nat) : Prop := nan32 x ∧ x / 2 ^ 22 % 2 = 0
abbrev snan16 (x : Nat) : Prop := nan16 x ∧ x / 2 ^ 6 % 2 = 0
abbrev inf32 (x : Nat) : Prop := x % 2 ^ 31 = 0x7F800000
abbrev zero32 (x : Nat) : Prop := x % 2 ^ 31 = 0

/-- The order of FP32 numbers by pattern, with the two zeros equal; and the order of patterns of e bits in which -0 is below +0. -/
def order32 (x : Nat) : Int := if 2 ^ 31 ≤ x then -(x % 2 ^ 31 : Nat) else x
def patternKey (e x : Nat) : Int := if 2 ^ (e - 1) ≤ x then -(x % 2 ^ (e - 1) : Nat) - 1 else x

/-- The smaller, or the larger, of two numbers given as patterns of e bits. -/
def chosen (e : Nat) (larger : Bool) (x y z : Nat) : Prop :=
  (z = x ∨ z = y) ∧
  if larger = true then patternKey e x ≤ patternKey e z ∧ patternKey e y ≤ patternKey e z
  else patternKey e z ≤ patternKey e x ∧ patternKey e z ≤ patternKey e y

/-- minimumNumber, maximumNumber: a NaN gives way to a number. -/
def numberOf (e : Nat) (nan : Nat → Prop) (canon : Nat) (larger : Bool) (x y z : Nat) : Prop :=
  (nan x ∧ nan y → z = canon) ∧ (nan x ∧ ¬ nan y → z = y) ∧ (¬ nan x ∧ nan y → z = x) ∧
  (¬ nan x ∧ ¬ nan y → chosen e larger x y z)

/-- minimum, maximum: a NaN operand is returned quieted. -/
def propagated (larger : Bool) (x y z : Nat) : Prop :=
  (nan32 x → z = x ||| 0x00400000) ∧ (¬ nan32 x ∧ nan32 y → z = y ||| 0x00400000) ∧
  (¬ nan32 x ∧ ¬ nan32 y → chosen 32 larger x y z)

/-- A finite number of a format as a multiple of 2^-149, the smallest FP32 subnormal. -/
abbrev isNumber (f : Fmt) (x : Nat) : Prop :=
  x < 2 ^ f.width ∧ if f = e4m3 then x % 128 ≠ 127 else x / 2 ^ f.fb % 2 ^ f.eb ≠ 2 ^ f.eb - 1
def valueOf (f : Fmt) (x : Nat) : Int :=
  let exp := x / 2 ^ f.fb % 2 ^ f.eb
  let m := (if exp = 0 then 0 else 2 ^ f.fb) + x % 2 ^ f.fb
  (if x / f.sign % 2 = 1 then -1 else 1) * (m * 2 ^ (exp - 1) * 2 ^ (150 - f.bias - f.fb) : Nat)

/-- A BF16 operand as it is read: under FMD.DZ a subnormal is a zero of its sign (R51). -/
def halfRead (dz : Bool) (x : Nat) : Nat := if dz = true ∧ x / 2 ^ 7 % 2 ^ 8 = 0 then x / 2 ^ 15 * 2 ^ 15 else x

/-- The magnitude, in units of 2^-149, of the pattern p of a format whose exponent range has no upper limit (R50). -/
def magnitude (f : Fmt) (p : Nat) : Nat :=
  ((if p / 2 ^ f.fb = 0 then 0 else 2 ^ f.fb) + p % 2 ^ f.fb) * 2 ^ (p / 2 ^ f.fb - 1) * 2 ^ (150 - f.bias - f.fb)

/-- Natural v is num / den rounded to an integer by mode: 0 to nearest, ties to even; 1 toward zero; 2 up; 3 down; `neg` is the sign. -/
def roundsTo (mode : Nat) (neg : Bool) (num den v : Nat) : Prop :=
  match mode with
  | 0 => 2 * (v * den - num) ≤ den ∧ 2 * (num - v * den) ≤ den ∧
      (2 * (v * den - num) = den ∨ 2 * (num - v * den) = den → v % 2 = 0)
  | 1 => v = num / den
  | 2 => v = if neg then num / den else (num + den - 1) / den
  | _ => v = if neg then (num + den - 1) / den else num / den

/-- overflow of R50 and R54 without its sign, and the largest finite pattern. -/
def tooLarge (f : Fmt) (mode : Nat) (satf neg : Bool) : Nat :=
  let inf := (2 ^ f.eb - 1) * 2 ^ f.fb
  if f = e4m3 then (if satf then 0x7E else 0x7F)
  else if f = e5m2 then inf
  else if mode = 0 ∨ (mode = 2 ∧ neg = false) ∨ (mode = 3 ∧ neg = true) then inf else inf - 1
def largest (f : Fmt) : Nat := if f = e4m3 then 0x7E else (2 ^ f.eb - 1) * 2 ^ f.fb - 1

/-- round of R50 for a nonzero number of magnitude num / den in units of 2^-149: it lies from pattern p on below p + 1, and y is the one of the
two that the mode chooses; beyond the largest finite pattern it overflows with OVF and INX; else INX says that y is not exact, and UNF that
the number, rounded to the precision of the format with unbounded exponent (v halves of the smallest subnormal), stays below the smallest
normal. -/
def rounded (f : Fmt) (mode : Nat) (satf neg : Bool) (num den : Nat) (r : Lane) : Prop :=
  ∃ p y v : Nat,
    let exact := magnitude f p * den = num
    let twice := (magnitude f p + magnitude f (p + 1)) * den
    let signed := fun (z : Nat) => z + if neg then f.sign else 0
    magnitude f p * den ≤ num ∧ num < magnitude f (p + 1) * den ∧
    (y = if exact then p
      else match mode with
        | 0 => if 2 * num < twice then p else if twice < 2 * num then p + 1 else p + p % 2
        | 1 => p
        | 2 => if neg then p else p + 1
        | _ => if neg then p + 1 else p) ∧
    roundsTo mode neg (2 * num) (den * magnitude f 1) v ∧
    r = if largest f < y then (signed (tooLarge f mode satf neg), 20)
      else (signed y, if exact then 0 else if v < 2 ^ (f.fb + 1) then 24 else 16)

/-- A result as it is written: a BF16 one that rounds to a subnormal becomes under FMD.DZ a zero of its sign, with UNF and INX (R51). -/
def written (f : Fmt) (dz : Bool) (r : Lane) : Lane :=
  if f = bf16 ∧ dz = true ∧ r.1 % 2 ^ 15 ≠ 0 ∧ r.1 % 2 ^ 15 < 2 ^ 7 then (r.1 / 2 ^ 15 * 2 ^ 15, r.2 ||| 24) else r

/-- A nonzero exact value z / den in units of 2^-149, rounded and written. -/
def roundedValue (f : Fmt) (mode : Nat) (dz satf : Bool) (z : Int) (den : Nat) (got : Lane) : Prop :=
  z ≠ 0 → ∃ r, rounded f mode satf (decide (z < 0)) z.natAbs den r ∧ got = written f dz r

/-- Node i at level k of the pairwise tree of R62 over the lanes `x`, with the flags of every level below it. -/
def treeNode (f : Nat → Nat → Lane) (x : Nat → Nat) : Nat → Nat → Lane
  | 0, i => (x i, 0)
  | k + 1, i =>
    let a := treeNode f x k (2 * i)
    let b := treeNode f x k (2 * i + 1)
    let r := f a.1 b.1
    (r.1, a.2 ||| b.2 ||| r.2)

end Sys2Proof.Claims

/-- For every state outside an exchange pitch and every legal part: VADD to VFMS and VMIN to VMAXP (f32 and bf16 forms), VABS, VNEG and
VCMP issue one result at issue + 5, VSCL at + 3, VRADD, VRMAX and VDOT at + 6 and the special functions at + 8, each lane with the value
of its lane function under FMD and the flags those of all lanes (of every level, for a tree), and change nothing else. Of the lane
functions: a NaN operand of arithmetic gives the canonical NaN, with INV for a signalling one; the exact sum, difference, product,
multiply-sum, dot product or scaled value of numbers is rounded once by R50 under the mode, with its OVF, UNF and INX and the zeros and
flushes of R51, and is itself, with no flag, where it is a number of the format; opposite infinities, and 0 times Inf, give the canonical
NaN with INV; VMIN and VMAX choose the number, or the smaller or larger (-0 below +0); VMINP and VMAXP the quieted NaN; VCMP gives the
relation code of R132; VSCL keeps zeros and infinities; the special functions have the values of R142 and R143 at NaN, zero and Inf (how
their other lanes are formed is log entry 16). -/
def Obligations.VectorFloats : Prop :=
  (∀ (s : State) (d a b : BitVec 5) (w h : BitVec 2), vectorOk s w h →
    let m := s.here.fmd.toNat % 4
    let dz := s.here.fmd.getLsbD 2
    let x := fun (i : Nat) => laneAt (s.rv a) w h 32 i
    let y := fun (i : Nat) => laneAt (s.rv b) w h 32 i
    let u := fun (i : Nat) => laneAt (s.rv d) w h 32 i
    let half := fun (v : BitVec 5) (i : Nat) => laneAt (s.rv v) w h 16 i
    floatResult s (exec (.vaddF32 d a b w h) s) 5 d w h 32 (fun i => fAdd fp32 m dz (x i) (y i)) ∧
    floatResult s (exec (.vsubF32 d a b w h) s) 5 d w h 32 (fun i => fSub fp32 m dz (x i) (y i)) ∧
    floatResult s (exec (.vmulF32 d a b w h) s) 5 d w h 32 (fun i => fMul fp32 m dz (x i) (y i)) ∧
    floatResult s (exec (.vfmaF32 d a b w h) s) 5 d w h 32 (fun i => fFma fp32 m dz false (u i) (x i) (y i)) ∧
    floatResult s (exec (.vfmsF32 d a b w h) s) 5 d w h 32 (fun i => fFma fp32 m dz true (u i) (x i) (y i)) ∧
    floatResult s (exec (.vminF32 d a b w h) s) 5 d w h 32 (fun i => fMinNum fp32 false dz (x i) (y i)) ∧
    floatResult s (exec (.vmaxF32 d a b w h) s) 5 d w h 32 (fun i => fMinNum fp32 true dz (x i) (y i)) ∧
    floatResult s (exec (.vminpF32 d a b w h) s) 5 d w h 32 (fun i => fMinProp fp32 false (x i) (y i)) ∧
    floatResult s (exec (.vmaxpF32 d a b w h) s) 5 d w h 32 (fun i => fMinProp fp32 true (x i) (y i)) ∧
    vectorResult s (exec (.vabsF32 d a w h) s) 5 d w h 32 (fun i => x i % 2 ^ 31) 0 ∧
    vectorResult s (exec (.vnegF32 d a w h) s) 5 d w h 32 (fun i => (x i + 2 ^ 31) % 2 ^ 32) 0 ∧
    floatResult s (exec (.vcmpF32 d a b w h) s) 5 d w h 32 (fun i => fCmp (x i) (y i)) ∧
    floatResult s (exec (.vaddBf16 d a b w h) s) 5 d w h 16 (fun i => fAdd bf16 m dz (half a i) (half b i)) ∧
    floatResult s (exec (.vmulBf16 d a b w h) s) 5 d w h 16 (fun i => fMul bf16 m dz (half a i) (half b i)) ∧
    floatResult s (exec (.vfmaBf16 d a b w h) s) 5 d w h 16 (fun i => fFma bf16 m dz false (half d i) (half a i) (half b i)) ∧
    floatResult s (exec (.vminBf16 d a b w h) s) 5 d w h 16 (fun i => fMinNum bf16 false dz (half a i) (half b i)) ∧
    floatResult s (exec (.vmaxBf16 d a b w h) s) 5 d w h 16 (fun i => fMinNum bf16 true dz (half a i) (half b i)) ∧
    floatResult s (exec (.vsclF32 d a b w h) s) 3 d w h 32 (fun i => fScale m (x i) (signedLane 32 (y i))) ∧
    floatResult s (exec (.vdotBf16 d a b w h) s) 6 d w h 32 (fun i =>
      fDot m dz (u i) (half a (2 * i)) (half b (2 * i)) (half a (2 * i + 1)) (half b (2 * i + 1))) ∧
    (∃ r, r = treeNode (fAdd fp32 m false) x (w.toNat + 3) 0 ∧
      vectorResult s (exec (.vraddF32 d a w h) s) 6 d w h 32 (fun _ => r.1) (BitVec.ofNat 32 r.2)) ∧
    (∃ r, r = treeNode (fMinNum fp32 true false) x (w.toNat + 3) 0 ∧
      vectorResult s (exec (.vrmaxF32 d a w h) s) 6 d w h 32 (fun _ => r.1) (BitVec.ofNat 32 r.2)) ∧
    vectorResult s (exec (.vraddI32 d a w h) s) 6 d w h 32
      (fun _ => ((List.range (widthBits w / 32)).map x).sum % 2 ^ 32) 0 ∧
    floatResult s (exec (.vrcpe d a w h) s) 8 d w h 32 (fun i => fRcpe (x i)) ∧
    floatResult s (exec (.vrsqe d a w h) s) 8 d w h 32 (fun i => fRsqe (x i)) ∧
    floatResult s (exec (.vexp2 d a w h) s) 8 d w h 32 (fun i => fExp2 (x i)) ∧
    floatResult s (exec (.vlog2 d a w h) s) 8 d w h 32 (fun i => fLog2 (x i)) ∧
    floatResult s (exec (.vtanh d a w h) s) 8 d w h 32 (fun i => fTanh (x i)) ∧
    floatResult s (exec (.vsig d a w h) s) 8 d w h 32 (fun i => fSig (x i))) ∧
  (∀ (m : Nat) (dz sub : Bool) (u p q : Nat), u < 2 ^ 32 → p < 2 ^ 32 → q < 2 ^ 32 →
    (nan32 p ∨ nan32 q → ∀ r, r = fAdd fp32 m dz p q ∨ r = fSub fp32 m dz p q ∨ r = fMul fp32 m dz p q →
      r = (0x7FC00000, if snan32 p ∨ snan32 q then 1 else 0)) ∧
    (nan32 u ∨ nan32 p ∨ nan32 q → (fFma fp32 m dz sub u p q).1 = 0x7FC00000) ∧
    (inf32 p → inf32 q → p ≠ q → fAdd fp32 m dz p q = (0x7FC00000, 1) ∧ fSub fp32 m dz p p = (0x7FC00000, 1)) ∧
    (inf32 p → zero32 q → fMul fp32 m dz p q = (0x7FC00000, 1) ∧ fMul fp32 m dz q p = (0x7FC00000, 1) ∧
      fFma fp32 m dz sub u p q = (0x7FC00000, 1)) ∧
    (∀ big, numberOf 32 nan32 0x7FC00000 big p q (fMinNum fp32 big dz p q).1 ∧ propagated big p q (fMinProp fp32 big p q).1 ∧
      (fMinNum fp32 big dz p q).2 = (if snan32 p ∨ snan32 q then 1 else 0) ∧
      (fMinProp fp32 big p q).2 = (if snan32 p ∨ snan32 q then 1 else 0)) ∧
    (nan32 p ∨ nan32 q → fCmp p q = (8, if snan32 p ∨ snan32 q then 1 else 0)) ∧
    (¬ nan32 p → ¬ nan32 q →
      fCmp p q = (if order32 p < order32 q then 1 else if order32 p = order32 q then 2 else 4, 0)) ∧
    (∀ k : Int, (nan32 p → (fScale m p k).1 = 0x7FC00000) ∧ (zero32 p ∨ inf32 p → fScale m p k = (p, 0))) ∧
    (∀ a b c e, nan32 u ∨ nan16 a ∨ nan16 b ∨ nan16 c ∨ nan16 e → (fDot m dz u a b c e).1 = 0x7FC00000)) ∧
  (∀ (m : Nat) (dz sub : Bool) (u p q : Nat), u < 2 ^ 16 → p < 2 ^ 16 → q < 2 ^ 16 →
    (nan16 p ∨ nan16 q → ∀ r, r = fAdd bf16 m dz p q ∨ r = fMul bf16 m dz p q →
      r = (0x7FC0, if snan16 p ∨ snan16 q then 1 else 0)) ∧
    (nan16 u ∨ nan16 p ∨ nan16 q → (fFma bf16 m dz sub u p q).1 = 0x7FC0) ∧
    (∀ big, numberOf 16 nan16 0x7FC0 big (halfRead dz p) (halfRead dz q) (fMinNum bf16 big dz p q).1)) ∧
  (∀ f : Fmt, f = fp32 ∨ f = bf16 → ∀ m u p q z : Nat, isNumber f u → isNumber f p → isNumber f q → isNumber f z →
    valueOf f z ≠ 0 →
    (valueOf f p + valueOf f q = valueOf f z → fAdd f m false p q = (z, 0)) ∧
    (valueOf f p - valueOf f q = valueOf f z → fSub f m false p q = (z, 0)) ∧
    (valueOf f p * valueOf f q = valueOf f z * 2 ^ 149 → fMul f m false p q = (z, 0)) ∧
    (valueOf f u * 2 ^ 149 + valueOf f p * valueOf f q = valueOf f z * 2 ^ 149 → fFma f m false false u p q = (z, 0)) ∧
    (valueOf f u * 2 ^ 149 - valueOf f p * valueOf f q = valueOf f z * 2 ^ 149 → fFma f m false true u p q = (z, 0))) ∧
  (∀ f : Fmt, f = fp32 ∨ f = bf16 → ∀ (m u p q : Nat) (dz : Bool), m < 4 → isNumber f u → isNumber f p → isNumber f q →
    let read := fun (x : Nat) => if f = bf16 then halfRead dz x else x
    let x := valueOf f (read u)
    let y := valueOf f (read p)
    let z := valueOf f (read q)
    roundedValue f m dz true (y + z) 1 (fAdd f m dz p q) ∧ roundedValue f m dz true (y - z) 1 (fSub f m dz p q) ∧
    roundedValue f m dz true (y * z) (2 ^ 149) (fMul f m dz p q) ∧
    roundedValue f m dz true (x * 2 ^ 149 + y * z) (2 ^ 149) (fFma f m dz false u p q) ∧
    roundedValue f m dz true (x * 2 ^ 149 - y * z) (2 ^ 149) (fFma f m dz true u p q) ∧
    (y + z = 0 → fAdd f m dz p q = (if read p / f.sign = read q / f.sign then read p else if m = 3 then f.sign else 0, 0)) ∧
    (y * z = 0 → fMul f m dz p q = (if read p / f.sign = read q / f.sign then 0 else f.sign, 0))) ∧
  (∀ (m u a b c e : Nat) (dz : Bool) (k : Int), m < 4 → isNumber fp32 u → isNumber bf16 a → isNumber bf16 b → isNumber bf16 c → isNumber bf16 e →
    let v := fun (x : Nat) => valueOf bf16 (halfRead dz x)
    roundedValue fp32 m false true (valueOf fp32 u * 2 ^ 149 + v a * v b + v c * v e) (2 ^ 149) (fDot m dz u a b c e) ∧
    roundedValue fp32 m false true (valueOf fp32 u * 2 ^ k.toNat) (2 ^ (-k).toNat) (fScale m u k)) ∧
  (∀ p : Nat, p < 2 ^ 32 →
    (nan32 p → ∀ r, r = fRcpe p ∨ r = fRsqe p ∨ r = fExp2 p ∨ r = fLog2 p ∨ r = fTanh p ∨ r = fSig p →
      r = (0x7FC00000, if snan32 p then 1 else 0)) ∧
    (inf32 p → fRcpe p = (p - 0x7F800000, 0) ∧ fTanh p = (p - 0x40000000, 0)) ∧
    (zero32 p → fRcpe p = (p + 0x7F800000, 2) ∧ fRsqe p = (p + 0x7F800000, 2) ∧ fExp2 p = (0x3F800000, 0) ∧
      fLog2 p = (0xFF800000, 2) ∧ fTanh p = (p, 0) ∧ fSig p = (0x3F000000, 0)) ∧
    (2 ^ 31 < p → ¬ nan32 p → fRsqe p = (0x7FC00000, 1) ∧ fLog2 p = (0x7FC00000, 1)) ∧
    (p = 0x7F800000 → fRsqe p = (0, 0) ∧ fExp2 p = (p, 0) ∧ fLog2 p = (p, 0) ∧ fSig p = (0x3F800000, 0)) ∧
    (p = 0xFF800000 → fExp2 p = (0, 0) ∧ fSig p = (0, 0)) ∧ fLog2 0x3F800000 = (0, 0))

namespace Sys2Proof.Claims

/-- An FP32 number in units of 2^-149 converted to a 32-bit integer that rounds to v: saturated with INV alone where it is out of
range, else with INX where the rounding changed it. -/
def toInteger (x v : Nat) (r : Lane) : Prop :=
  let neg := decide (valueOf fp32 x < 0)
  let inx := if v * 2 ^ 149 = (valueOf fp32 x).natAbs then 0 else 16
  if neg = true then r = if 2 ^ 31 < v then (2 ^ 31, 1) else (inLane 32 (-(v : Int)), inx)
  else r = if 2 ^ 31 ≤ v then (2 ^ 31 - 1, 1) else (v, inx)

end Sys2Proof.Claims

/-- For every state outside an exchange pitch, every legal part and unreserved rounding code: each VCVT, VPACK, VUNPK and DQBLK issues one
result for the part of vD at issue + 4 and changes nothing else. A narrowing result stands in the lanes at the bottom of the part with
zero lanes above, and a widening one reads the lanes there; the flags are those of all lanes. A NaN becomes the canonical NaN of the
destination (0 for s32), with INV for a signalling one (and always for s32). An FP32 number narrows to the one that R50 rounds it to under
the mode, with its OVF, UNF and INX, and a BF16 subnormal result is flushed under FMD.DZ (R51); so does every other rounding here. A
number of a narrower format widens to the same number with no flag (a BF16 one under FMD.DZ 0), and one that the narrower format holds
narrows to it with no flag, in every mode. An Inf narrows to Inf, of E4M3 to 448 or NaN of its sign with OVF and INX. An FP32 number
becomes the s32 integer that it rounds to under the mode, with INX where that changed it, and saturates with INV alone; an s32 integer is
rounded by R50; VPACK truncates or clamps and VUNPK extends as its mode says; a block of scale 0xFF expands to canonical NaNs and any
other to its elements times the scale, rounded to nearest. The values of the example of R54 result. -/
def Obligations.VectorConversions : Prop :=
  (∀ (s : State) (d a : BitVec 5) (r : BitVec 3) (w h f : BitVec 2), vectorOk s w h →
    let x := fun (e i : Nat) => laneAt (s.rv a) w h e i
    let n := widthBits w / 32
    let m := if r = 0 then s.here.fmd.toNat % 4 else r.toNat % 4
    let dz := s.here.fmd.getLsbD 2
    let narrows := fun (o : Out) (g : Fmt) => vectorResult s o 4 d w h g.width
      (fun i => if i < n then (cvtNarrow g m dz (s.here.fmd.getLsbD 3) (x 32 i)).1 else 0)
      (flagsOf n fun i => cvtNarrow g m dz (s.here.fmd.getLsbD 3) (x 32 i))
    let widens := fun (o : Out) (g : Fmt) => floatResult s o 4 d w h 32 (fun i => cvtWiden g dz (x g.width i))
    (okRound r = true →
      widens (exec (.vcvtF32Bf16 d a r w h) s) bf16 ∧
      widens (exec (.vcvtF32E4m3 d a r w h) s) e4m3 ∧
      widens (exec (.vcvtF32E5m2 d a r w h) s) e5m2 ∧
      widens (exec (.vcvtF32F16 d a r w h) s) fp16 ∧
      narrows (exec (.vcvtBf16F32 d a r w h) s) bf16 ∧
      narrows (exec (.vcvtE4m3F32 d a r w h) s) e4m3 ∧
      narrows (exec (.vcvtE5m2F32 d a r w h) s) e5m2 ∧
      narrows (exec (.vcvtF16F32 d a r w h) s) fp16 ∧
      floatResult s (exec (.vcvtS32F32 d a r w h) s) 4 d w h 32 (fun i => cvtToInt m (x 32 i)) ∧
      floatResult s (exec (.vcvtF32S32 d a r w h) s) 4 d w h 32 (fun i =>
        fp32.round m true (decide (signedLane 32 (x 32 i) < 0)) (signedLane 32 (x 32 i)).natAbs 0)) ∧
    vectorResult s (exec (.vpack d a 0 w h) s) 4 d w h 16 (fun i => if i < n then x 32 i % 2 ^ 16 else 0) 0 ∧
    vectorResult s (exec (.vpack d a 1 w h) s) 4 d w h 16
      (fun i => if i < n then inLane 16 (clampSigned 16 (signedLane 32 (x 32 i))) else 0) 0 ∧
    vectorResult s (exec (.vpack d a 2 w h) s) 4 d w h 8 (fun i => if i < 2 * n then x 16 i % 2 ^ 8 else 0) 0 ∧
    vectorResult s (exec (.vpack d a 3 w h) s) 4 d w h 8
      (fun i => if i < 2 * n then inLane 8 (clampSigned 8 (signedLane 16 (x 16 i))) else 0) 0 ∧
    vectorResult s (exec (.vpack d a 4 w h) s) 4 d w h 8
      (fun i => if i < 2 * n then inLane 8 (clampUnsigned 8 (signedLane 16 (x 16 i))) else 0) 0 ∧
    vectorResult s (exec (.vunpk d a 0 w h) s) 4 d w h 32 (fun i => inLane 32 (signedLane 16 (x 16 i))) 0 ∧
    vectorResult s (exec (.vunpk d a 1 w h) s) 4 d w h 32 (fun i => x 16 i) 0 ∧
    vectorResult s (exec (.vunpk d a 2 w h) s) 4 d w h 16 (fun i => inLane 16 (signedLane 8 (x 8 i))) 0 ∧
    vectorResult s (exec (.vunpk d a 3 w h) s) 4 d w h 16 (fun i => x 8 i) 0 ∧
    vectorResult s (exec (.vunpk d a 4 w h) s) 4 d w h 32 (fun i => inLane 32 (signedLane 8 (x 8 i))) 0 ∧
    vectorResult s (exec (.vunpk d a 5 w h) s) 4 d w h 32 (fun i => x 8 i) 0 ∧
    (f ≠ 3 → floatResult s (exec (.dqblk d a f) s) 4 d 2 0 32 (fun i =>
      let e := if f = 0 then 8 else if f = 1 then 6 else 4
      let scale := laneAt (s.rv a) 2 0 8 120
      let q := signedLane e ((s.rv a).toNat / 2 ^ (e * i) % 2 ^ e)
      if scale = 0xFF then (0x7FC00000, 0)
      else fp32.round 0 true (decide (q < 0)) q.natAbs ((scale : Int) - 127 - (e - 2 : Nat))))) ∧
  (∀ (g : Fmt), g = fp32 ∨ g = bf16 ∨ g = fp16 ∨ g = e5m2 ∨ g = e4m3 → ∀ (m n : Nat) (e : Int) (satf neg : Bool), m < 4 → n ≠ 0 →
    rounded g m satf neg (n * 2 ^ (e + 149).toNat) (2 ^ (-(e + 149)).toNat) (g.round m satf neg n e)) ∧
  (∀ (g : Fmt), g = bf16 ∨ g = fp16 ∨ g = e5m2 ∨ g = e4m3 → ∀ (m x : Nat) (dz satf : Bool), m < 4 → isNumber fp32 x →
    roundedValue g m dz satf (valueOf fp32 x) 1 (cvtNarrow g m dz satf x) ∧
    (zero32 x → cvtNarrow g m dz satf x = (if 2 ^ 31 ≤ x then g.sign else 0, 0))) ∧
  (∀ (g : Fmt), g = bf16 ∨ g = fp16 ∨ g = e5m2 ∨ g = e4m3 → ∀ (m p x : Nat) (dz satf : Bool), p < 2 ^ g.width → x < 2 ^ 32 →
    (nan32 x → cvtNarrow g m dz satf x = (g.nan, if snan32 x then 1 else 0)) ∧
    (inf32 x → g ≠ e4m3 → cvtNarrow g m dz satf x = ((if 2 ^ 31 ≤ x then g.sign else 0) + g.inf, 0)) ∧
    (inf32 x → g = e4m3 → cvtNarrow g m dz satf x = ((if 2 ^ 31 ≤ x then 128 else 0) + (if satf = true then 0x7E else 0x7F), 20)) ∧
    (isNumber g p → (g = bf16 → dz = false) →
      valueOf fp32 (cvtWiden g dz p).1 = valueOf g p ∧ (cvtWiden g dz p).2 = 0 ∧
      (isNumber fp32 x → valueOf fp32 x = valueOf g p → valueOf g p ≠ 0 → cvtNarrow g m dz satf x = (p, 0)))) ∧
  (∀ (dz : Bool) (p : Nat),
    (p < 2 ^ 16 → nan16 p → cvtWiden bf16 dz p = (0x7FC00000, if snan16 p then 1 else 0)) ∧
    (p < 2 ^ 16 → 0x7C00 < p % 2 ^ 15 → (cvtWiden fp16 dz p).1 = 0x7FC00000) ∧
    (p < 2 ^ 8 → 0x7C < p % 128 → (cvtWiden e5m2 dz p).1 = 0x7FC00000) ∧
    (p < 2 ^ 8 → p % 128 = 0x7F → cvtWiden e4m3 dz p = (0x7FC00000, 0)) ∧
    (p < 2 ^ 8 → p % 128 = 0 → cvtWiden e4m3 dz p = (p * 2 ^ 24, 0) ∧ cvtWiden e5m2 dz p = (p * 2 ^ 24, 0)) ∧
    (p < 2 ^ 16 → p % 2 ^ 15 = 0 → cvtWiden fp16 dz p = (p * 2 ^ 16, 0) ∧ cvtWiden bf16 dz p = (p * 2 ^ 16, 0))) ∧
  (∀ m x : Nat, m < 4 → x < 2 ^ 32 →
    (nan32 x → cvtToInt m x = (0, 1)) ∧ (inf32 x → cvtToInt m x = (if 2 ^ 31 ≤ x then 2 ^ 31 else 2 ^ 31 - 1, 1)) ∧
    (isNumber fp32 x → ∃ v, roundsTo m (decide (valueOf fp32 x < 0)) (valueOf fp32 x).natAbs (2 ^ 149) v ∧
      toInteger x v (cvtToInt m x))) ∧
  (cvtNarrow bf16 0 false true 0x3FD9999A = (0x3FDA, 16) ∧ cvtNarrow bf16 1 false true 0x3FD9999A = (0x3FD9, 16) ∧
    cvtNarrow e4m3 0 false true 0x3FD9999A = (0x3E, 16) ∧ cvtNarrow e4m3 1 false true 0x3FD9999A = (0x3D, 16) ∧
    cvtNarrow e5m2 0 false true 0x3FD9999A = (0x3F, 16) ∧ cvtNarrow e4m3 0 false true 0x43FA0000 = (0x7E, 20) ∧
    cvtNarrow e4m3 0 false false 0x43FA0000 = (0x7F, 20) ∧ cvtNarrow e5m2 0 false true 0x43FA0000 = (0x60, 16) ∧
    (∀ m, m < 4 → cvtNarrow e5m2 m false true 0x4788B800 = (0x7C, 20)) ∧
    cvtNarrow bf16 0 false true 0x00080000 = (0x0008, 0) ∧ cvtNarrow bf16 0 true true 0x00080000 = (0, 24))

namespace Sys2Proof.Claims

/-- The state that differs from `s` only in one more per-core update of the slot in hand, which lands `lat` cycles on. -/
def updating (s : State) (lat : Nat) (u : CoreUpdate) : State :=
  s.modHereCore fun c => { c with pending := c.pending ++ [{ due := s.t + lat, issued := s.t, ctx := s.cur.x, upd := u }] }

/-- How many of the first k lanes are marked. -/
def marked (z : Nat → Nat) (k : Nat) : Nat := ((List.range k).filter (fun i => z i ≠ 0)).length

/-- Whether a test holds of one of the 32 inputs of a block. -/
def someLane (p : Nat → Bool) : Bool := (List.range 32).any p

/-- The quantisation of R57 of 32 inputs of a format into elements of b bits: its elements, scale byte, saturation count, and whether an
element is inexact. With a NaN or an Inf among the inputs the scale byte is 0xFF and every element 0. Else the scale is the power of two
of the largest magnitude (0 for none), and each element the nearest integer of the input over the scale times 2^(b-2), ties to even,
saturated. -/
def blockIs (f : Fmt) (b : Nat) (x : Nat → Nat) (el : Nat → Nat) (scale sat : Nat) (inx : Bool) : Prop :=
  let num := fun (i : Nat) => (valueOf f (x i)).natAbs * 2 ^ (b - 2)
  let amax := ((List.range 32).map fun i => (valueOf f (x i)).natAbs).foldl Nat.max 0
  if someLane (fun i => !decide (isNumber f (x i))) = true then (∀ i, i < 32 → el i = 0) ∧ scale = 0xFF ∧ sat = 0 ∧ inx = false
  else if amax = 0 then (∀ i, i < 32 → el i = 0) ∧ scale = 0 ∧ sat = 0 ∧ inx = false
  else
    scale = Nat.log2 amax - 22 ∧
    ∃ q : Nat → Nat,
      let most := fun (i : Nat) => if valueOf f (x i) < 0 then 2 ^ (b - 1) else 2 ^ (b - 1) - 1
      (∀ i, i < 32 → roundsTo 0 false (num i) (2 ^ (scale + 22)) (q i) ∧
        el i = inLane b ((if valueOf f (x i) < 0 then -1 else 1) * (Nat.min (q i) (most i) : Nat))) ∧
      sat = ((List.range 32).filter fun i => most i < q i).length ∧
      (inx = true ↔ ∃ i, i < 32 ∧ (q i * 2 ^ (scale + 22) ≠ num i ∨ most i < q i))

end Sys2Proof.Claims

/-- For every state outside an exchange pitch and every legal part: VSHUF picks each byte of vD from the 256 bytes of a register pair by
the active pattern entry, at issue + 4; VSWZ indexes lanes modulo their number, VROTL rotates lane positions, VCMPR moves the marked lanes
down in order and zeros the rest, and VEXPD moves lanes up to the marked places, at issue + 4; VCNTEQ counts equal lanes and VSCAN sums
the lanes below (and its own in the inclusive form) modulo 2^32, at issue + 6; none raises a flag. QBLK and QBLKB issue one result for all
of vD at issue + 6, whose one or two blocks hold the elements and the scale byte of R57 at the places of R149 and nothing else, with INX
where an element is inexact and INV for a signalling NaN; and one update of TS10 that is readable at issue + 12, with NAN where a scale is
0xFF, INF where an input is Inf, and the count of saturated elements. Nothing else changes. That a block is scaled by the value of the
scale byte stored, which is not below 0, is the model's choice (log entry 16), and so is that a block with a NaN or an Inf raises no INX
(log entry 70). -/
def Obligations.VectorShuffles : Prop :=
  ∀ (s : State) (d a b k : BitVec 5) (p : BitVec 4) (q : BitVec 1) (w h f : BitVec 2), vectorOk s w h →
    let n := widthBits w / 32
    let x := fun (i : Nat) => laneAt (s.rv a) w h 32 i
    let z := fun (i : Nat) => laneAt (s.rv b) w h 32 i
    let entry := tget 0 s.hereCore.patterns (64 * s.hereCore.patSel + (32 * q.toNat + k.toNat))
    let idx := fun (i : Nat) => laneAt entry 2 0 8 i
    vectorResult s (exec (.vshuf d p q k) s) 4 d 2 0 8 (fun i =>
      if idx i < 128 then laneAt (s.here.rv (2 * p.toNat)) 2 0 8 (idx i)
      else laneAt (s.here.rv (2 * p.toNat + 1)) 2 0 8 (idx i - 128)) 0 ∧
    vectorResult s (exec (.vswz d a b w h) s) 4 d w h 32 (fun i => x (z i % n)) 0 ∧
    vectorResult s (exec (.vrotl d a b w h) s) 4 d w h 32 (fun i => x ((i + n - (s.rs b).toNat % 256 % n) % n)) 0 ∧
    (∃ r : Nat → Nat, vectorResult s (exec (.vcmpr d a b w h) s) 4 d w h 32 r 0 ∧
      ∀ i, i < n → (∀ j, j < n → z j ≠ 0 → marked z j = i → r i = x j) ∧ (marked z n ≤ i → r i = 0)) ∧
    vectorResult s (exec (.vexpd d a b w h) s) 4 d w h 32 (fun i => if z i = 0 then 0 else x (marked z i)) 0 ∧
    vectorResult s (exec (.vcnteq d a b w h) s) 6 d w h 32 (fun i => ((List.range n).filter (fun j => x j = z i)).length) 0 ∧
    vectorResult s (exec (.vscan d a 0 w h) s) 6 d w h 32 (fun i => ((List.range i).map x).sum % 2 ^ 32) 0 ∧
    vectorResult s (exec (.vscan d a 1 w h) s) 6 d w h 32 (fun i => ((List.range (i + 1)).map x).sum % 2 ^ 32) 0 ∧
    (f ≠ 3 →
      let e := if f = 0 then 8 else if f = 1 then 6 else 4
      let els := fun (g : Nat → Nat) => ((List.range 32).map fun i => g i * 2 ^ (e * i)).sum
      let full := fun (i : Nat) => laneAt (s.rv a) 2 0 32 i
      let half := fun (c i : Nat) => halfRead (s.here.fmd.getLsbD 2) (laneAt (s.rv a) 2 0 16 (32 * c + i))
      let conds := fun (nan inf : Bool) => ((if nan then 1 else 0) ||| (if inf then 2 else 0) : BitVec 4)
      let flags := fun (inv inx : Bool) => ((if inv then 1 else 0) ||| (if inx then 16 else 0) : Word)
      (∃ (g : Nat → Nat) (sc m : Nat) (inx : Bool), blockIs fp32 e full g sc m inx ∧
        exec (.qblk d a f) s = .next (updating (issuing s [result s 6 (.v d.toNat) (BitVec.allOnes 1024)
          (BitVec.ofNat 1024 (els g + sc * 2 ^ 960)) (flags (someLane fun i => decide (snan32 (full i))) inx)]) 12
          (.tsCond 10 (conds (sc == 0xFF) (someLane fun i => decide (inf32 (full i)))) m))) ∧
      ∃ (g₀ g₁ : Nat → Nat) (sc₀ sc₁ m₀ m₁ : Nat) (inx₀ inx₁ : Bool),
        blockIs bf16 e (half 0) g₀ sc₀ m₀ inx₀ ∧ blockIs bf16 e (half 1) g₁ sc₁ m₁ inx₁ ∧
        exec (.qblkb d a f) s = .next (updating (issuing s [result s 6 (.v d.toNat) (BitVec.allOnes 1024)
          (BitVec.ofNat 1024 (els g₀ + els g₁ * 2 ^ 256 + sc₀ * 2 ^ 960 + sc₁ * 2 ^ 968))
          (flags (someLane fun i => decide (snan16 (half 0 i) ∨ snan16 (half 1 i))) (inx₀ || inx₁))]) 12
          (.tsCond 10 (conds (sc₀ == 0xFF || sc₁ == 0xFF) (someLane fun i => half 0 i % 2 ^ 15 == 0x7F80 || half 1 i % 2 ^ 15 == 0x7F80)) (m₀ + m₁))))

namespace Sys2Proof.Claims

/-- The answer is a next state in which the context in hand differs only in the results `rs` added to those in flight: no register changes on
the issue cycle, no other context differs, and no byte of memory and no engine state does. -/
def gives (s : State) (o : Out) (rs : List Result) : Prop :=
  ∃ t, o = .next t ∧ t.here = { s.here with flight := s.here.flight ++ rs } ∧ othersSame s t ∧ sameMemory s t ∧ sameEngineState s t

/-- Unit q of `unit` bytes (a line of 64, a word of 8) is one that n bytes at A touch. -/
def touches (A : Int) (n unit q : Nat) : Prop := A.toNat / unit ≤ q ∧ q ≤ (A.toNat + n - 1) / unit

/-- Checks 1 to 4 of R202 pass on n bytes at A, with alignment al: within 0 to 0xF_FFFF, aligned, in no lent bank, in no sealed line. -/
structure Reached (s : State) (A : Int) (n al : Nat) : Prop where
  low : 0 ≤ A
  high : A + n ≤ 0x100000
  aligned : A % al = 0
  lent : ∀ l, touches A n 64 l → tget 0 s.hereCore.lent (l % 32) = 0
  plain : ∀ l, touches A n 64 l → tget false s.hereCore.forms l = false

/-- No 64-bit word that n bytes at A touch reads as poisoned. -/
def soundWords (s : State) (A : Int) (n : Nat) : Prop :=
  ∀ w, touches A n 8 w → tget .sound s.hereCore.errs w ≠ .poison ∧ tget .sound s.hereCore.errs w ≠ .uncorrectable

/-- No access of an earlier-issued operation uses a bank of the lines on the perform cycle, t + 1 (R181). -/
def portFree (s : State) (A : Int) (n : Nat) : Prop :=
  ∀ l, touches A n 64 l → ∀ b ∈ s.hereCore.sched, b.due = s.t + 1 → b.bank ≠ l % 32

/-- Checks 1 to 5 and 7 of R202 pass on a read of n bytes at A, aligned to n. -/
structure Readable (s : State) (A : Int) (n : Nat) : Prop extends Reached s A n n where
  sound : soundWords s A n
  free : portFree s A n

/-- Checks 1 to 5 and 8 of R202 pass on a store of n bytes at A, aligned to n, of an alias class: a word written in part is not poisoned, and
each line has an entry of this context, class and withholding, or there is room for new ones among the 128. -/
structure Writable (s : State) (A : Int) (n cls : Nat) : Prop extends Reached s A n n where
  sound : n < 8 → soundWords s A n
  room : (∀ l, touches A n 64 l → ∃ e ∈ s.hereCore.wbuf, e.line = l ∧ e.cls = cls ∧ e.ctx = s.cur.x ∧ e.released = s.freeStore) ∨
    s.hereCore.wbuf.length + (n + 63) / 64 ≤ 128

/-- What a load of a class reads at the n bytes from A: the bank merged with the entries that it sees; where a held store of another class
stands over a byte, the byte with that store or the byte without it (R196). -/
def seenBytes (s : State) (cls : Nat) (A : Int) (n : Nat) (bs : Nat → Byte) : Prop :=
  ∀ i, i < n → bs i = s.hereCore.loadByte cls false (A.toNat + i) ∨ bs i = s.hereCore.loadByte cls true (A.toNat + i)

/-- The scratchpad load latency: 6, and 4 on an A1 core or one in compatibility mode. -/
def loadLatency (s : State) : Nat :=
  if s.hereCore.stg.getLsbD 8 = true ∨ s.hereCore.stg.toNat % 256 = 0xA1 then 4 else 6

/-- A vector result of a load: byte i of the part is bs i. -/
def byteResult (s : State) (d : BitVec 5) (w h : BitVec 2) (bs : Nat → Byte) (r : Result) : Prop :=
  ∃ v, r = result s (loadLatency s) (.v d.toNat) (partBits w h) v 0 ∧ ∀ i, i < widthBits w / 8 → laneAt v w h 8 i = (bs i).toNat

end Sys2Proof.Claims

/-- For every state outside an exchange pitch, a load whose access passes the checks of R202 answers a next state in which its one result
(two for LD2, with an even D) lands at issue + 6, or 4 on an A1 core or in compatibility mode: the bytes at signed cA plus the
displacement, as a load of its alias class reads them, sign- or zero-extended, or the part of vD byte by byte. No register changes on the
issue cycle, and no byte of memory. -/
def Obligations.Loads : Prop :=
  ∀ (s : State) (d a : BitVec 5) (im : BitVec 9) (w h : BitVec 2) (j : BitVec 5), s.inExchange s.cur.g = false →
    let A := (s.rc a).toInt + im.toInt
    let V := (s.rc a).toInt + 32 * j.toInt
    let cls := a.toNat % 4
    let lat := loadLatency s
    (Readable s A 1 → ∃ bs, seenBytes s cls A 1 bs ∧
      gives s (exec (.ldS8 d a im) s) [toS s lat d ((bs 0).signExtend 32)] ∧
      gives s (exec (.ldZ8 d a im) s) [toS s lat d ((bs 0).setWidth 32)]) ∧
    (Readable s A 2 → ∃ bs, seenBytes s cls A 2 bs ∧
      gives s (exec (.ldS16 d a im) s) [toS s lat d ((bs 1 ++ bs 0).signExtend 32)] ∧
      gives s (exec (.ldZ16 d a im) s) [toS s lat d ((bs 1 ++ bs 0).setWidth 32)]) ∧
    (Readable s A 4 → ∃ bs, seenBytes s cls A 4 bs ∧
      gives s (exec (.ld32 d a im) s) [toS s lat d (bs 3 ++ bs 2 ++ bs 1 ++ bs 0)]) ∧
    (Readable s A 8 → d.toNat % 2 = 0 → ∃ bs, seenBytes s cls A 8 bs ∧
      gives s (exec (.ld2 d a im) s)
        [toS s lat d (bs 3 ++ bs 2 ++ bs 1 ++ bs 0), toS s lat (d + 1) (bs 7 ++ bs 6 ++ bs 5 ++ bs 4)]) ∧
    (Readable s V (widthBits w / 8) → okWH w h = true → ∃ bs r, seenBytes s cls V (widthBits w / 8) bs ∧ byteResult s d w h bs r ∧
      gives s (exec (.ldv d a w h j) s) [r])

namespace Sys2Proof.Claims

/-- What a store of n bytes at A does: in the core in hand the bytes from A on read as `bs` to its engines, and to every load of the class;
every other byte, every bank, tag and form, and all engine state is as it was. The bytes stand in the withholding
buffer: every entry there is an old one with bytes added or removed, or one of this context and class. -/
def storesAt (s t : State) (A : Int) (n cls : Nat) (bs : Nat → Byte) : Prop :=
  (∀ g k q, (t.core g k).engineByte q =
    if g = s.cur.g ∧ k = s.cur.k ∧ A.toNat ≤ q ∧ q < A.toNat + n then bs (q - A.toNat) else (s.core g k).engineByte q) ∧
  (∀ q f, A.toNat ≤ q → q < A.toNat + n → t.hereCore.loadByte cls f q = bs (q - A.toNat)) ∧
  (∀ g k, (t.core g k).spad = (s.core g k).spad ∧ (t.core g k).imem = (s.core g k).imem ∧ (t.core g k).tags = (s.core g k).tags ∧
    (t.core g k).forms = (s.core g k).forms) ∧
  (∀ e ∈ t.hereCore.wbuf, (e.cls = cls ∧ e.ctx = s.cur.x ∧ e.released = s.freeStore) ∨ e ∈ s.hereCore.wbuf) ∧
  t.hbm = s.hbm ∧ sameEngineState s t

/-- A store alone: beside that, no register of any context and no word state differs. -/
def onlyStores (s t : State) (A : Int) (n cls : Nat) (bs : Nat → Byte) : Prop :=
  storesAt s t A n cls bs ∧ (∀ g k x, t.ctx g k x = s.ctx g k x) ∧ ∀ g k, (t.core g k).errs = (s.core g k).errs

end Sys2Proof.Claims

/-- For every state outside an exchange pitch, a store whose access passes the checks of R202 answers a next state in which the n bytes at
signed cA plus the displacement, and only those, read as the low bytes of sD, sD then s(D+1), or the bytes of the part of vD: to the
core's engines and to loads of its alias class. They stand in the withholding buffer; the bank, its tags, forms and poison, every
register, and every byte outside those n are as they were. -/
def Obligations.Stores : Prop :=
  ∀ (s : State) (d a : BitVec 5) (im : BitVec 9) (w h : BitVec 2) (j : BitVec 5), s.inExchange s.cur.g = false →
    let A := (s.rc a).toInt + im.toInt
    let V := (s.rc a).toInt + 32 * j.toInt
    let cls := a.toNat % 4
    let low := fun (i : Nat) => (s.rs d).extractLsb' (8 * i) 8
    let two := fun (i : Nat) => if i < 4 then (s.rs d).extractLsb' (8 * i) 8 else (s.rs (d + 1)).extractLsb' (8 * (i - 4)) 8
    let part := fun (i : Nat) => BitVec.ofNat 8 (laneAt (s.rv d) w h 8 i)
    (Writable s A 1 cls → ∃ t, exec (.st8 d a im) s = .next t ∧ onlyStores s t A 1 cls low) ∧
    (Writable s A 2 cls → ∃ t, exec (.st16 d a im) s = .next t ∧ onlyStores s t A 2 cls low) ∧
    (Writable s A 4 cls → ∃ t, exec (.st32 d a im) s = .next t ∧ onlyStores s t A 4 cls low) ∧
    (Writable s A 8 cls → d.toNat % 2 = 0 →
      ∃ t, exec (.st2 d a im) s = .next t ∧ onlyStores s t A 8 cls two) ∧
    (Writable s V (widthBits w / 8) cls → okWH w h = true →
      ∃ t, exec (.stv d a w h j) s = .next t ∧ onlyStores s t V (widthBits w / 8) cls part)

namespace Sys2Proof.Claims

/-- The address, the bytes (also the alignment) and whether it is a store, of an access of R203 other than the tensor and line forms. -/
def accessOf (s : State) : Instr → Option (Int × Nat × Bool)
  | .ldS8 _ a im | .ldZ8 _ a im => some ((s.rc a).toInt + im.toInt, 1, false)
  | .ldS16 _ a im | .ldZ16 _ a im => some ((s.rc a).toInt + im.toInt, 2, false)
  | .ld32 _ a im => some ((s.rc a).toInt + im.toInt, 4, false)
  | .ld2 _ a im => some ((s.rc a).toInt + im.toInt, 8, false)
  | .ldv _ a w _ im => some ((s.rc a).toInt + 32 * im.toInt, widthBits w / 8, false)
  | .ldt _ a _ => some (((s.rs a).toNat : Int), 4, false)
  | .ldvt _ a _ w _ => some (((s.rs a).toNat : Int), widthBits w / 8, false)
  | .aadd _ a _ _ | .amin _ a _ _ | .amax _ a _ _ | .aswp _ a _ _ | .acas _ a _ _ | .afadd _ a _ _ => some (((s.rs a).toNat : Int), 4, false)
  | .st8 _ a im => some ((s.rc a).toInt + im.toInt, 1, true)
  | .st16 _ a im => some ((s.rc a).toInt + im.toInt, 2, true)
  | .st32 _ a im => some ((s.rc a).toInt + im.toInt, 4, true)
  | .st2 _ a im => some ((s.rc a).toInt + im.toInt, 8, true)
  | .stv _ a w _ im => some ((s.rc a).toInt + 32 * im.toInt, widthBits w / 8, true)
  | _ => none

end Sys2Proof.Claims

/-- For every state outside an exchange pitch and every load, store, tagged load and local atomic whose operands pass check 11: out of
range takes ADDRESS_RANGE; else misaligned, MISALIGNED; else a lent bank, LENT_BANK; else a sealed line, FORM_SEALED; else a poisoned word
read or written in part, POISON, with every byte as it was. A load or atomic without a tag that meets an earlier-issued access in its bank
takes BANK_CONFLICT, or holds the bundle in trigger mode; a store that finds no entry of its own and 128 in use takes WITHHOLD_FULL, or in
trigger mode holds the bundle while some entry can drain. That a poisoned word is judged though a buffered store stands over it (log entry
13), and that the stores which share an entry are those of one line, class, context and release mark (log entry 51), are the model's
choices. -/
def Obligations.AccessChecks : Prop :=
  ∀ (s : State) (i : Instr) (A : Int) (n : Nat) (st : Bool), accessOf s i = some (A, n, st) → i.wf = true → s.valuesOk i = true →
    s.inExchange s.cur.g = false →
    (A < 0 ∨ 0x100000 < A + n → exec i s = .next (s.takeTrap codeAddressRange)) ∧
    (0 ≤ A → A + n ≤ 0x100000 →
      (A % n ≠ 0 → exec i s = .next (s.takeTrap codeMisaligned)) ∧
      (A % n = 0 →
        ((∃ l, touches A n 64 l ∧ tget 0 s.hereCore.lent (l % 32) ≠ 0) → exec i s = .next (s.takeTrap codeLentBank)) ∧
        ((∀ l, touches A n 64 l → tget 0 s.hereCore.lent (l % 32) = 0) →
          (∃ l, touches A n 64 l ∧ tget false s.hereCore.forms l = true) → exec i s = .next (s.takeTrap codeFormSealed)))) ∧
    (Reached s A n n → ¬ soundWords s A n → (st = true → n < 8) →
      ∃ t, exec i s = .next t ∧ t.cur.trapped.map (·.1) = some codePoison ∧ sameMemory s t) ∧
    (Reached s A n n → soundWords s A n → st = false → ¬ portFree s A n → (∀ d a b w h, i ≠ .ldt d a b ∧ i ≠ .ldvt d a b w h) →
      exec i s = .next (if s.hereCluster.trigger then s.holdBundle else s.takeTrap codeBankConflict)) ∧
    (Reached s A n n → soundWords s A n → st = true → 128 ≤ s.hereCore.wbuf.length →
      (∃ l, touches A n 64 l ∧ ∀ e ∈ s.hereCore.wbuf, ∀ c, ¬ (e.line = l ∧ e.cls = c ∧ e.ctx = s.cur.x ∧ e.released = s.freeStore)) →
      exec i s = .next (if s.hereCluster.trigger = true ∧ ∃ e ∈ s.hereCore.wbuf, e.released = true then s.holdBundle
        else s.takeTrap codeWithholdFull))

/-- For every state outside an exchange pitch whose read of 4, or P/8, bytes at address sA passes the other checks, with sB below 4096:
where every touched line holds the tag sB and none is 0xFFF, LDT and LDVT issue the bytes as LD.32 and LDV do and change nothing else;
where some touched line's tag is 0xFFF they take SCHEDULE_FAULT; where none is and one differs from sB, TAG_MISMATCH. With sB of 4096 or
more they take OPERAND_ILLEGAL. That a tag of 0xFFF on one line comes before a mismatch on another is the model's choice (log entry 15).
-/
def Obligations.TaggedLoads : Prop :=
  ∀ (s : State) (d a b : BitVec 5) (w h : BitVec 2), s.inExchange s.cur.g = false → okWH w h = true →
    let A : Int := (s.rs a).toNat
    let cls := a.toNat % 4
    let tag := fun (l : Nat) => (tget 0 s.hereCore.tags l).toNat
    let v := (s.rs b).toNat
    (4096 ≤ v → exec (.ldt d a b) s = .next (s.takeTrap codeOperandIllegal) ∧
      exec (.ldvt d a b w h) s = .next (s.takeTrap codeOperandIllegal)) ∧
    (v < 4096 → Readable s A 4 →
      ((∀ l, touches A 4 64 l → tag l = v ∧ tag l ≠ 0xFFF) → ∃ bs, seenBytes s cls A 4 bs ∧
        gives s (exec (.ldt d a b) s) [toS s (loadLatency s) d (bs 3 ++ bs 2 ++ bs 1 ++ bs 0)]) ∧
      ((∃ l, touches A 4 64 l ∧ tag l = 0xFFF) → exec (.ldt d a b) s = .next (s.takeTrap codeScheduleFault)) ∧
      ((∀ l, touches A 4 64 l → tag l ≠ 0xFFF) → (∃ l, touches A 4 64 l ∧ tag l ≠ v) →
        exec (.ldt d a b) s = .next (s.takeTrap codeTagMismatch))) ∧
    (v < 4096 → Readable s A (widthBits w / 8) →
      ((∀ l, touches A (widthBits w / 8) 64 l → tag l = v ∧ tag l ≠ 0xFFF) →
        ∃ bs r, seenBytes s cls A (widthBits w / 8) bs ∧ byteResult s d w h bs r ∧ gives s (exec (.ldvt d a b w h) s) [r]) ∧
      ((∃ l, touches A (widthBits w / 8) 64 l ∧ tag l = 0xFFF) → exec (.ldvt d a b w h) s = .next (s.takeTrap codeScheduleFault)) ∧
      ((∀ l, touches A (widthBits w / 8) 64 l → tag l ≠ 0xFFF) → (∃ l, touches A (widthBits w / 8) 64 l ∧ tag l ≠ v) →
        exec (.ldvt d a b w h) s = .next (s.takeTrap codeTagMismatch)))

/-- For every state outside an exchange pitch whose read and store of the word at address sA pass the checks of R202: AADD, AMIN, AMAX (F
0 signed, 1 unsigned), ASWP and ACAS answer a next state in which the old word, as a load of the class reads it, lands in sD at issue + 6
(4 on an A1 core), and the four bytes at sA, and no others, read as the new word of R209; AFADD stores an FP32 sum with its flags on the
result; ACAS whose comparison fails stores nothing. No register changes on the issue cycle. -/
def Obligations.LocalAtomics : Prop :=
  ∀ (s : State) (d a b : BitVec 5), s.inExchange s.cur.g = false →
    let A : Int := (s.rs a).toNat
    let cls := a.toNat % 4
    Readable s A 4 → Writable s A 4 cls → ∃ bs, seenBytes s cls A 4 bs ∧
    let old : Word := bs 3 ++ bs 2 ++ bs 1 ++ bs 0
    let y := s.rs b
    let swaps := fun (o : Out) (v fl : Word) => ∃ t, o = .next t ∧ storesAt s t A 4 cls (fun i => v.extractLsb' (8 * i) 8) ∧
      othersSame s t ∧ t.here = { s.here with flight := s.here.flight ++ [result s (loadLatency s) (.s d.toNat) 0xFFFFFFFF (old.setWidth 1024) fl] }
    swaps (exec (.aadd d a b 0) s) (old + y) 0 ∧
    swaps (exec (.amin d a b 0) s) (if y.toInt < old.toInt then y else old) 0 ∧
    swaps (exec (.amin d a b 1) s) (if y.toNat < old.toNat then y else old) 0 ∧
    swaps (exec (.amax d a b 0) s) (if old.toInt < y.toInt then y else old) 0 ∧
    swaps (exec (.amax d a b 1) s) (if old.toNat < y.toNat then y else old) 0 ∧
    swaps (exec (.aswp d a b 0) s) y 0 ∧
    (old = s.rs d → swaps (exec (.acas d a b 0) s) y 0) ∧
    (old ≠ s.rs d → gives s (exec (.acas d a b 0) s) [toS s (loadLatency s) d old]) ∧
    swaps (exec (.afadd d a b 0) s) (BitVec.ofNat 32 (fAdd fp32 (s.here.fmd.toNat % 4) false old.toNat y.toNat).1)
      (BitVec.ofNat 32 (fAdd fp32 (s.here.fmd.toNat % 4) false old.toNat y.toNat).2) ∧
    (∀ f : BitVec 4, 2 ≤ f.toNat → exec (.amin d a b f) s = .next (s.takeTrap codeOperandIllegal) ∧
      exec (.amax d a b f) s = .next (s.takeTrap codeOperandIllegal))

namespace Sys2Proof.Claims

/-- A line of the scratchpad of the core in hand as its bank holds it: 64 bytes, tag, form and POI. -/
def bankByte (s : State) (q : Nat) : Byte := Memory.read s.hereCore.spad q

end Sys2Proof.Claims

/-- For every state whose line at signed cA plus I9 is in range, in no lent bank and free of a conflict: TAGW (64-aligned, sD below 0xFFF)
sets that line's tag and no other; TAGR issues the tag and FORMR twice FORM plus POI, at the load latency; ZLINE (64-aligned) makes the
line 64 zero bytes in the bank with tag 0, FORM 0, no poison and no buffered byte, and leaves every other line; TAGR and TAGW do so in an
exchange pitch too. SFNC answers a state in which loads of every class see the buffered bytes of the context. No register changes on the
issue cycle. -/
def Obligations.LineMetadata : Prop :=
  ∀ (s : State) (d a : BitVec 5) (im : BitVec 9),
    let A := (s.rc a).toInt + im.toInt
    let l := A.toNat / 64
    0 ≤ A → A < 0x100000 → tget 0 s.hereCore.lent (l % 32) = 0 →
    (∀ b ∈ s.hereCore.sched, b.due = s.t + 1 → b.bank ≠ l % 32) →
    (A % 64 = 0 → (s.rs d).toNat < 0xFFF →
      ∃ t, exec (.tagw d a im) s = .next t ∧ sameMemory s t ∧ sameEngineState s t ∧ (∀ g k x, t.ctx g k x = s.ctx g k x) ∧
        t.hereCore.forms = s.hereCore.forms ∧ t.hereCore.errs = s.hereCore.errs ∧
        ∀ q, tget 0 t.hereCore.tags q = if q = l then (s.rs d).setWidth 12 else tget 0 s.hereCore.tags q) ∧
    (0xFFF ≤ (s.rs d).toNat → exec (.tagw d a im) s = .next (s.takeTrap codeOperandIllegal)) ∧
    gives s (exec (.tagr d a im) s) [toS s (loadLatency s) d ((tget 0 s.hereCore.tags l).setWidth 32)] ∧
    (s.inExchange s.cur.g = false →
      gives s (exec (.formr d a im) s) [toS s (loadLatency s) d
        ((if tget false s.hereCore.forms l = true then 2 else 0) +
          (if (List.range 8).any (fun i => tget .sound s.hereCore.errs (8 * l + i) == .poison) then 1 else 0))] ∧
      (A % 64 = 0 → ∃ t, exec (.zline a im) s = .next t ∧ sameEngineState s t ∧ (∀ g k x, t.ctx g k x = s.ctx g k x) ∧
        (∀ q, q / 64 = l → bankByte t q = 0 ∧ t.hereCore.engineByte q = 0) ∧
        (∀ q, q / 64 ≠ l → bankByte t q = bankByte s q ∧ t.hereCore.engineByte q = s.hereCore.engineByte q) ∧
        tget 0 t.hereCore.tags l = 0 ∧ tget false t.hereCore.forms l = false ∧
        (∀ i, i < 8 → tget .sound t.hereCore.errs (8 * l + i) = .sound) ∧
        ∀ q, q ≠ l → tget 0 t.hereCore.tags q = tget 0 s.hereCore.tags q ∧ tget false t.hereCore.forms q = tget false s.hereCore.forms q ∧
          ∀ i, i < 8 → tget .sound t.hereCore.errs (8 * q + i) = tget .sound s.hereCore.errs (8 * q + i))) ∧
    ∃ t, exec .sfnc s = .next t ∧ sameMemory s t ∧ sameEngineState s t ∧ (∀ g k x, t.ctx g k x = s.ctx g k x) ∧
      t.hereCore.spad = s.hereCore.spad ∧
      ((∀ e ∈ s.hereCore.wbuf, e.ctx = s.cur.x) → ∀ cls f q, t.hereCore.loadByte cls f q = s.hereCore.engineByte q)

namespace Sys2Proof.Claims

/-- The fields of a shape record (R97): base, bytes of the element type, rank, permutation, extents and signed strides. -/
def recBase (r : BitVec 384) : Nat := (r.extractLsb' 0 20).toNat
def recBytes (r : BitVec 384) : Option Nat := [some 1, some 2, some 4, some 4, some 2, some 2, some 1, some 1, none, none, none, some 1].getD
  (r.extractLsb' 20 4).toNat none
def recRank (r : BitVec 384) : Nat := (r.extractLsb' 24 3).toNat
def recPerm (r : BitVec 384) : Nat := (r.extractLsb' 27 2).toNat
def recExtent (r : BitVec 384) (d : Nat) : Nat := (r.extractLsb' (32 + 16 * d) 16).toNat
def recStride (r : BitVec 384) (d : Nat) : Int := (r.extractLsb' (160 + 32 * d) 24).toInt

/-- Coordinate d of lane j of a tensor access: c(B + d), with j added to the first. -/
def coordinate (s : State) (b : BitVec 5) (j d : Nat) : Int := (s.here.rc (b.toNat + d)).toInt + if d = 0 then (j : Int) else 0

/-- Lane j's element lies inside the extents. -/
def inExtents (s : State) (r : BitVec 384) (b : BitVec 5) (j : Nat) : Prop :=
  ∀ d, d < recRank r → 0 ≤ coordinate s b j d ∧ coordinate s b j d < recExtent r d

/-- Its address before the permutation, and the address with bank field b replaced by b XOR x1, or b + x1, modulo 32. -/
def unpermuted (s : State) (r : BitVec 384) (e : Nat) (b : BitVec 5) (j : Nat) : Int :=
  recBase r + e * ((List.range (recRank r)).map fun d => coordinate s b j d * recStride r d).sum
def elementAt (s : State) (r : BitVec 384) (e : Nat) (b : BitVec 5) (j : Nat) : Nat :=
  let a := (unpermuted s r e b j).toNat
  let x1 := if recRank r = 1 then 0 else (coordinate s b j 1 % 32).toNat
  let bank := a / 64 % 32
  let placed := if recPerm r = 1 then bank ^^^ x1 else if recPerm r = 2 then (bank + x1) % 32 else bank
  a / 2048 * 2048 + placed * 64 + a % 64

/-- A tensor access whose record is valid and whose elements in bounds pass checks 1 to 5 and 7: each within the scratchpad, aligned, in no lent
bank and no sealed line, in words without poison, no two in different lines of one bank, and, for a load, no bank in use on the perform cycle. -/
structure TensorOk (s : State) (r : BitVec 384) (e : Nat) (b : BitVec 5) (w : BitVec 2) (extra : Nat) (load : Bool) : Prop where
  bytes : recBytes r = some e
  rank : 1 ≤ recRank r
  perm : recPerm r ≠ 3
  coords : b.toNat + recRank r + extra ≤ 16
  range : ∀ j, j < widthBits w / (8 * e) → inExtents s r b j →
    0 ≤ unpermuted s r e b j ∧ unpermuted s r e b j < 0x100000 ∧ (unpermuted s r e b j) % e = 0
  lines : ∀ j, j < widthBits w / (8 * e) → inExtents s r b j →
    tget 0 s.hereCore.lent (elementAt s r e b j / 64 % 32) = 0 ∧ tget false s.hereCore.forms (elementAt s r e b j / 64) = false ∧
    tget .sound s.hereCore.errs (elementAt s r e b j / 8) ≠ .poison ∧ tget .sound s.hereCore.errs (elementAt s r e b j / 8) ≠ .uncorrectable
  banks : ∀ i j, i < widthBits w / (8 * e) → j < widthBits w / (8 * e) → inExtents s r b i → inExtents s r b j →
    elementAt s r e b i / 64 % 32 = elementAt s r e b j / 64 % 32 → elementAt s r e b i / 64 = elementAt s r e b j / 64
  free : load = true → ∀ j, j < widthBits w / (8 * e) → inExtents s r b j →
    ∀ q ∈ s.hereCore.sched, q.due = s.t + 1 → q.bank ≠ elementAt s r e b j / 64 % 32

/-- The vector result of a tensor load: lane j is the element as a load of the class reads it, little-endian, and zero out of bounds. -/
def tensorResult (s : State) (r : BitVec 384) (e : Nat) (b : BitVec 5) (cls : Nat) (d : BitVec 5) (w h : BitVec 2) (res : Result) : Prop :=
  ∃ v, res = result s (loadLatency s) (.v d.toNat) (partBits w h) v 0 ∧ ∀ j, j < widthBits w / (8 * e) →
    (inExtents s r b j → ∃ bs, seenBytes s cls (elementAt s r e b j) e bs ∧ ∀ i, i < e → laneAt v w h 8 (e * j + i) = (bs i).toNat) ∧
    (¬ inExtents s r b j → laneAt v w h (8 * e) j = 0)

end Sys2Proof.Claims

/-- For every state outside an exchange pitch and every tensor access through a valid shape record whose in-bounds elements pass the
checks: TLD answers a next state with one vector result whose lane j is element (x0 + j, x1, ...) at the permuted address of R97, zero out
of bounds; TLDT does so where every touched line holds the tag c(B+RANK) modulo 4096, not 0xFFF; TST, where the 128 entries have room for
every touched line and no two elements share a byte, stores exactly the bytes of the in-bounds lanes. An invalid record, a block type, or
coordinates beyond c15 take OPERAND_ILLEGAL. -/
def Obligations.TensorAccesses : Prop :=
  ∀ (s : State) (d b : BitVec 5) (k : BitVec 4) (w h : BitVec 2), s.inExchange s.cur.g = false → okWH w h = true →
    let r := tget 0 s.hereCore.shapes k.toNat
    let cls := k.toNat % 4
    (∀ e, TensorOk s r e b w 0 true →
      ∃ res, tensorResult s r e b cls d w h res ∧ gives s (exec (.tld d k b w h) s) [res]) ∧
    (∀ e, TensorOk s r e b w 1 true →
      (∀ j, j < widthBits w / (8 * e) → inExtents s r b j →
        (tget 0 s.hereCore.tags (elementAt s r e b j / 64)).toNat = (s.here.rc (b.toNat + recRank r)).toNat % 4096 ∧
        tget 0 s.hereCore.tags (elementAt s r e b j / 64) ≠ 0xFFF) →
      ∃ res, tensorResult s r e b cls d w h res ∧ gives s (exec (.tldt d k b w h) s) [res]) ∧
    (∀ e, TensorOk s r e b w 0 false → s.hereCore.wbuf.length + widthBits w / (8 * e) ≤ 128 →
      (∀ i j, i < j → j < widthBits w / (8 * e) → inExtents s r b i → inExtents s r b j → elementAt s r e b i ≠ elementAt s r e b j) →
      ∃ t, exec (.tst d k b w h) s = .next t ∧ sameEngineState s t ∧ (∀ g k x, t.ctx g k x = s.ctx g k x) ∧
        (∀ g k, (t.core g k).spad = (s.core g k).spad) ∧
        (∀ j i, j < widthBits w / (8 * e) → i < e → inExtents s r b j →
          t.hereCore.engineByte (elementAt s r e b j + i) = BitVec.ofNat 8 (laneAt (s.rv d) w h 8 (e * j + i))) ∧
        (∀ g k' q, ¬ (g = s.cur.g ∧ k' = s.cur.k ∧ ∃ j, j < widthBits w / (8 * e) ∧ inExtents s r b j ∧
            elementAt s r e b j ≤ q ∧ q < elementAt s r e b j + e) →
          (t.core g k').engineByte q = (s.core g k').engineByte q)) ∧
    (recBytes r = none ∨ recRank r = 0 ∨ recPerm r = 3 ∨ 16 < b.toNat + recRank r →
      exec (.tld d k b w h) s = .next (s.takeTrap codeOperandIllegal) ∧ exec (.tst d k b w h) s = .next (s.takeTrap codeOperandIllegal) ∧
      exec (.tldt d k b w h) s = .next (s.takeTrap codeOperandIllegal))

/-- For every state outside an exchange pitch: RSET with legal values and no claim of its ring, RADV within the ring's size, RPOP of
filled tiles without a claim and ACCZ of a bank that no MMA still to land, after a rollback again too, and no waiting fold names answer
the same state with one update landing at issue + 1; ACCRD issues 32 elements of a row to vD at issue + 4; MTS stores the entry as
readable at issue, as ST.32 does, and with .clr clears it at issue + 1. The failing checks take OPERAND_ILLEGAL, RING_BUSY, RING_OVERRUN,
RING_UNDERRUN and ACC_BUSY. Nothing else changes. -/
def Obligations.RingsAndBanks : Prop :=
  ∀ (s : State) (d a b : BitVec 5) (q : BitVec 3) (n : BitVec 9) (k h : BitVec 1) (e : BitVec 4), s.inExchange s.cur.g = false →
    let ring := tget {} s.hereCore.rings q.toNat
    let legal := (s.rs a).toNat % 256 = 0 ∧ (s.rs a).toNat < 2 ^ 20 ∧ (s.rs b).toNat < 2 ^ 20 ∧
      (s.rs a).toNat + 256 * ((s.rs b).toNat / 2 ^ 16) * ((s.rs b).toNat % 2 ^ 16) ≤ 0x100000
    (legal → s.hereCore.claim q.toNat = 0 → exec (.rset q a b) s = .next (updating s 1 (.ringSet q.toNat
      { base := (s.rs a).toNat, size := (s.rs b).toNat % 2 ^ 16, tile := (s.rs b).toNat / 2 ^ 16, head := 0, count := 0 }))) ∧
    (¬ legal → exec (.rset q a b) s = .next (s.takeTrap codeOperandIllegal)) ∧
    (legal → s.hereCore.claim q.toNat ≠ 0 → exec (.rset q a b) s = .next (s.takeTrap codeRingBusy)) ∧
    (n ≠ 0 → ring.size ≠ 0 →
      (ring.count + n.toNat ≤ ring.size → exec (.radv q n) s = .next (updating s 1 (.ringFill q.toNat n.toNat))) ∧
      (ring.size < ring.count + n.toNat → exec (.radv q n) s = .next (s.takeTrap codeRingOverrun))) ∧
    (n = 0 ∨ ring.size = 0 → exec (.radv q n) s = .next (s.takeTrap codeOperandIllegal)) ∧
    (n ≠ 0 →
      (s.hereCore.claim q.toNat ≠ 0 → exec (.rpop q n) s = .next (s.takeTrap codeRingBusy)) ∧
      (s.hereCore.claim q.toNat = 0 → n.toNat ≤ ring.count → exec (.rpop q n) s = .next (updating s 1 (.ringPop q.toNat n.toNat))) ∧
      (s.hereCore.claim q.toNat = 0 → ring.count < n.toNat → exec (.rpop q n) s = .next (s.takeTrap codeRingUnderrun))) ∧
    (∃ v : Vec, exec (.accrd d a k h) s = .next (issuing s [result s 4 (.v d.toNat) (BitVec.allOnes 1024) v 0]) ∧
      ∀ i, i < 32 → v.extractLsb' (32 * i) 32 =
        (tget 0 s.hereCore.acc (32 * k.toNat + a.toNat)).extractLsb' (1024 * h.toNat + 32 * i) 32) ∧
    (let names := (∃ m ∈ s.hereCore.anvil, m.bank = k.toNat) ∨ (∃ f ∈ s.hereCore.fold, f.start = none ∧ f.bank = k.toNat) ∨
        (∃ p ∈ s.hereCore.pending, s.t < p.due ∧ ∃ rows po cl, p.upd = .bankLand k.toNat rows po cl) ∨
        ∃ p ∈ s.hereCore.dup.pend, (s.hereCore.ctx p.2.ctx).replaying = true ∧ ∃ rows po cl, p.2.upd = .bankLand k.toNat rows po cl;
      (¬ names → exec (.accz k) s = .next (updating s 1 (.bankClear k.toNat))) ∧
      (names → exec (.accz k) s = .next (s.takeTrap codeAccBusy))) ∧
    (let A := (s.rc a).toInt + n.toInt;
      (∀ p ∈ s.hereCore.pending, s.t < p.due) → Writable s A 4 (a.toNat % 4) →
      (∃ t, exec (.mts 0 e a n) s = .next t ∧
        onlyStores s t A 4 (a.toNat % 4) (fun i => (tget 0 s.hereCore.ts e.toNat).extractLsb' (8 * i) 8)) ∧
      let s1 := updating s 1 (.tsClear e.toNat);
      ∃ t, exec (.mts 1 e a n) s = .next t ∧ t.hereCore.pending = s1.hereCore.pending ∧
        onlyStores s1 t A 4 (a.toNat % 4) (fun i => (tget 0 s.hereCore.ts e.toNat).extractLsb' (8 * i) 8)) ∧
    (((s.rc a).toInt + n.toInt) % 4 ≠ 0 → ∀ c, exec (.mts c e a n) s = .next (s.takeTrap codeOperandIllegal))

namespace Sys2Proof.Claims

/-- The block bytes of a width code (R154), the blocks and the cycles of a pass (R153), and the cycles from start to retirement (R160). -/
def blockBytes (w : Nat) : Nat := if w = 0 then 32 else if w = 1 then 24 else 16
def blocksPerPass (wa wb : Nat) : Nat :=
  if wa = 2 ∧ wb = 2 then 4 else if wa = 1 ∧ wb = 1 then 3 else if wa = 2 ∨ wb = 2 then 2 else 1
def cyclesPerPass (wa wb : Nat) : Nat := if wa = 1 ∧ wb = 1 then 64 else 32
def mmaCycles (n wa wb : Nat) : Nat := cyclesPerPass wa wb * ((n + blocksPerPass wa wb - 1) / blocksPerPass wa wb)

/-- The address of tile i, counted from the oldest one that no MMA has claimed, of a ring. -/
def freshTile (c : Core) (q i : Nat) : Nat :=
  let r := tget {} c.rings q
  r.base + 256 * r.tile * ((r.head + c.claim q + i) % r.size)

/-- The entry that an MMA issued now adds to the anvil. -/
def queuedMma (s : State) (zero : Bool) (e : BitVec 1) (n : BitVec 4) (a b : BitVec 3) (y x : BitVec 2) : Mma :=
  { ctx := s.cur.x, issued := s.t, zero := zero, bank := e.toNat, qa := a.toNat, qb := b.toNat, n := n.toNat + 1, wa := x.toNat, wb := y.toNat
    tiles := (List.range (n.toNat + 1)).map fun j =>
      if a = b then (freshTile s.hereCore a.toNat (2 * j), freshTile s.hereCore a.toNat (2 * j + 1))
      else (freshTile s.hereCore a.toNat j, freshTile s.hereCore b.toNat j)
    planned := match s.hereCore.anvil with
      | m :: _ => m.start.getD m.planned + mmaCycles m.n m.wa m.wb
      | [] => s.t }

/-- The tiles that an MMA needs are filled and unclaimed. -/
def tilesFilled (s : State) (n : BitVec 4) (a b : BitVec 3) : Prop :=
  let room := fun (q : BitVec 3) (k : Nat) => s.hereCore.claim q.toNat + k ≤ (tget {} s.hereCore.rings q.toNat).count
  if a = b then room a (2 * (n.toNat + 1)) else room a (n.toNat + 1) ∧ room b (n.toNat + 1)

/-- The rings that an MMA names are enabled, with the tile bytes of its widths. -/
def tilesFit (s : State) (a b : BitVec 3) (y x : BitVec 2) : Prop :=
  let ra := tget {} s.hereCore.rings a.toNat
  let rb := tget {} s.hereCore.rings b.toNat
  ra.size ≠ 0 ∧ rb.size ≠ 0 ∧ 256 * ra.tile = 32 * blockBytes x.toNat ∧ 256 * rb.tile = 64 * blockBytes y.toNat

end Sys2Proof.Claims

/-- For every state outside an exchange pitch whose rings fit and are filled, with room in the anvil and its access schedule free, MMA and
MMAZ answer a state with one more MMA, at its widths, over tiles HEAD + claim + j of each ring (in pairs for one ring), started now on an
idle anvil and else to start when the one before retires; no register, byte, bank or ring changes. Otherwise they take OPERAND_ILLEGAL,
then RING_UNDERRUN, then ENGINE_BUSY (or block). A line that an anvil read meets gives the operand fault of its lent bank, else of its
form bit, else of a poisoned word; working off a K block read whole kills the rows whose bytes of A touch a lent or sealed line or a
poisoned word, and all 32 for any in B, and adds to each row that is not dead then the 32 exact signed products, wrapped modulo 2^32; and
the first operand fault writes the fault record of R163 where none is pending. No fault traps. -/
def Obligations.MatrixMultiply : Prop :=
  (∀ (s : State) (e : BitVec 1) (n : BitVec 4) (a b : BitVec 3) (y x : BitVec 2) (zero : Bool), s.inExchange s.cur.g = false →
    let o := if zero then exec (.mmaz e n a b y x) s else exec (.mma e n a b y x) s
    let m := queuedMma s zero e n a b y x
    (¬ tilesFit s a b y x → o = .next (s.takeTrap codeOperandIllegal)) ∧
    (tilesFit s a b y x →
      (¬ tilesFilled s n a b → o = .next (s.takeTrap codeRingUnderrun)) ∧
      (tilesFilled s n a b →
        (2 ≤ s.hereCore.anvil.length → o = .next (if s.hereCluster.trigger then s.block else s.takeTrap codeEngineBusy)) ∧
        (s.hereCore.anvil.length < 2 → s.hereCore.busy (m.schedule m.planned) = false →
          ∃ u m', o = .next u ∧ u.hereCore.anvil = s.hereCore.anvil ++ [m'] ∧
            (s.hereCore.anvil ≠ [] → m' = m) ∧
            (s.hereCore.anvil = [] → m'.start = some s.t ∧ m'.bank = m.bank ∧ m'.n = m.n ∧ m'.wa = m.wa ∧ m'.wb = m.wb ∧ m'.tiles = m.tiles ∧
              m'.qa = m.qa ∧ m'.qb = m.qb ∧ m'.ctx = m.ctx ∧ m'.issued = m.issued ∧
              (zero = true → m'.rows = List.replicate 32 0 ∧ m'.poison = 0) ∧
              (zero = false → (∀ p ∈ s.hereCore.toMake, p.upd.isBank = false) →
                m'.rows = (List.range 32).map (fun r => tget 0 s.hereCore.acc (32 * e.toNat + r)) ∧
                m'.poison = tget 0 s.hereCore.accPoison e.toNat)) ∧
            (∀ g k z, u.ctx g k z = s.ctx g k z) ∧ sameMemory s u ∧ sameEngineState s u)))) ∧
  (∀ (m : Mma), m.wa ≤ 2 → m.wb ≤ 2 → m.stream.length = blockBytes m.wa / 2 + blockBytes m.wb → m.rows.length = 32 →
    let width := fun (w : Nat) => if w = 0 then 8 else if w = 1 then 6 else 4
    let tileBit := fun (first q : Nat) => ((m.stream.map (·.data)).getD (first + q / 512) 0).getLsbD (q % 512)
    let element := fun (first i k w : Nat) =>
      signedLane (width w) ((List.range (width w)).map fun z =>
        if tileBit first (8 * blockBytes w * i + width w * k + z) then 2 ^ z else 0).sum
    let faulty := fun (o : Nat) => ∃ l, m.stream[o / 64]? = some l ∧ (l.why = some 0 ∨ l.why = some 1 ∨ l.poison.getLsbD (o % 64 / 8) = true)
    let m' := Mma.finishPass 1 m
    m'.stream = [] ∧ m'.rows.length = 32 ∧
    (∀ row, row < 32 → (m'.dead.getLsbD row = true ↔ m.dead.getLsbD row = true ∨
      (∃ o, blockBytes m.wa * row ≤ o ∧ o < blockBytes m.wa * (row + 1) ∧ faulty o) ∨
      ∃ o, 32 * blockBytes m.wa ≤ o ∧ o < 32 * blockBytes m.wa + 64 * blockBytes m.wb ∧ faulty o)) ∧
    ∀ row col, row < 32 → col < 64 →
      ((m'.rows.getD row 0).extractLsb' (32 * col) 32) =
        if m'.dead.getLsbD row then (m.rows.getD row 0).extractLsb' (32 * col) 32
        else (m.rows.getD row 0).extractLsb' (32 * col) 32 + BitVec.ofInt 32
          ((List.range 32).map fun k => element 0 row k m.wa * element (blockBytes m.wa / 2) col k m.wb).sum) ∧
  (∀ (c : Core) (l : Nat), c.sideOld = [] →
    let unsound := ∃ i, i < 8 ∧ (tget .sound c.errs (8 * l + i) = .poison ∨ tget .sound c.errs (8 * l + i) = .uncorrectable)
    (tget 0 c.lent (l % 32) ≠ 0 → (c.opLine l).why = some 0) ∧
    (tget 0 c.lent (l % 32) = 0 →
      (tget false c.forms l = true → (c.opLine l).why = some 1) ∧
      (tget false c.forms l = false → (unsound → (c.opLine l).why = some 2) ∧ (¬ unsound → (c.opLine l).why = none)))) ∧
  (∀ (c : Core) (m : Mma) (rest : List Mma) (t st a : Nat), c.anvil = m :: rest → m.start = some st →
    let pass := (t - st) / cyclesPerPass m.wa m.wb
    let i := (t - st) % cyclesPerPass m.wa m.wb
    (m.stream4 pass)[i]? = some a → a % 64 = 0 →
    let perBlock := (32 * blockBytes m.wa + 64 * blockBytes m.wb) / 256
    let side := if i % perBlock < 32 * blockBytes m.wa / 256 then 0 else 1
    let whys := (List.range 4).filterMap fun n => (c.opLine (a / 64 + n)).why
    (c.mmaCycle t).afault = if c.afault ≠ none then c.afault else whys.head?.map fun w =>
      ⟨BitVec.ofNat 32 (m.bank * 2 ^ 22 + w * 2 ^ 20 + side * 2 ^ 19 + (if side = 0 then m.qa else m.qb) * 2 ^ 16 +
        (pass * blocksPerPass m.wa m.wb + i / perBlock)), m.ctx⟩)

/-- For every state outside an exchange pitch, SCAC and SCACZ with the operand values of R165, room in the fold unit and a free access
schedule answer a state whose fold unit has one more fold with those operands, started now on an idle unit (with the bank and its poison
as snapshot, and for SCACZ its tile status entry cleared) and else to start when the fold before has used the unit for its rows; no
register and no byte changes on the issue cycle. Other values take OPERAND_ILLEGAL; with two folds in the unit they take ENGINE_BUSY, or
block in trigger mode. A fold's step is fold_step of R59 with the conditions of R167: NaN for a scale of 0xFF, a NaN kept, an Inf kept,
else the destination plus the scaled partial, rounded once to nearest. On cycle c + i a fold computes each element of row i of a sound
destination line by it, SUP leaving out the ones that are not finite, and on c + 8 + i it writes those of lines that do not fault then, 4
bytes each, and no other byte; a poisoned row is passed over; the first faulting line of the row writes the fault record of R163. That the
elements of a line which faults at its read record no condition is the model's choice (log entry 52). -/
def Obligations.Folds : Prop :=
  (∀ (s : State) (d a b : BitVec 5) (k : BitVec 1) (j : BitVec 3) (zero : Bool), s.inExchange s.cur.g = false →
    let o := if zero then exec (.scacz d a b k j) s else exec (.scac d a b k j) s
    let dst := (s.rs d).toNat % 2 ^ 20
    let rows := (s.rs d).toNat / 2 ^ 20 % 2 ^ 6
    let sa := (s.rs a).toNat % 2 ^ 20
    let fa := (s.rs a).toNat / 2 ^ 20
    let sb := (s.rs b).toNat % 2 ^ 20
    let fb := (s.rs b).toNat / 2 ^ 20
    let legal := dst % 256 = 0 ∧ 1 ≤ rows ∧ rows ≤ 32 ∧ (s.rs d).toNat < 2 ^ 27 ∧ fa < 3 ∧ fb < 3 ∧ dst + 256 * rows ≤ 0x100000 ∧
      sa + rows ≤ 0x100000 ∧ sb + 64 ≤ 0x100000
    let inUnit := s.hereCore.fold.filter fun f => match f.start with
      | none => true
      | some c => decide (s.t < c + f.rows)
    let f : Fold := { ctx := s.cur.x, issued := s.t, zero := zero, bank := k.toNat, dst := dst, rows := rows, sup := (s.rs d).getLsbD 26, sa := sa, fa := fa
                      sb := sb, fb := fb, j := j.toNat
                      planned := match inUnit with
                        | g :: _ => g.start.getD g.planned + g.rows
                        | [] => s.t }
    (¬ legal → o = .next (s.takeTrap codeOperandIllegal)) ∧
    (legal → 2 ≤ inUnit.length → o = .next (if s.hereCluster.trigger then s.block else s.takeTrap codeEngineBusy)) ∧
    (legal → inUnit.length < 2 → s.hereCore.busy (f.schedule f.planned) = false →
      ∃ u f', o = .next u ∧ u.hereCore.fold = s.hereCore.fold ++ [f'] ∧
        (inUnit ≠ [] → f' = f) ∧
        (inUnit = [] → f'.start = some s.t ∧ f'.bank = f.bank ∧ f'.dst = dst ∧ f'.rows = rows ∧ f'.j = f.j ∧ f'.sup = f.sup ∧ f'.zero = zero ∧
          f'.snap = (List.range 32).map (fun r => tget 0 s.hereCore.acc (32 * k.toNat + r)) ∧ f'.snapPoison = tget 0 s.hereCore.accPoison k.toNat ∧
          (zero = true → (s.here.replaying = false ∨ s.here.belayCycle ≤ s.t) → tget 0 u.hereCore.ts (2 + j.toNat) = 0)) ∧
        (∀ g c z, u.ctx g c z = s.ctx g c z) ∧ sameMemory s u ∧ u.hereCore.acc = s.hereCore.acc ∧ u.hereCore.rings = s.hereCore.rings)) ∧
  (∀ (d : Nat) (p : Int) (ea eb ka kb : Nat), d < 2 ^ 32 →
    let e : Int := (ea : Int) + eb - 254 - ka - kb + 149
    let den : Nat := 2 ^ (-e).toNat
    let z : Int := valueOf fp32 d * den + p * (2 ^ e.toNat : Nat)
    (ea = 0xFF ∨ eb = 0xFF → foldStep d p ea eb ka kb = (0x7FC00000, if inf32 d then 3 else 1)) ∧
    (ea ≠ 0xFF → eb ≠ 0xFF →
      (nan32 d → foldStep d p ea eb ka kb = (0x7FC00000, 1)) ∧ (inf32 d → foldStep d p ea eb ka kb = (d, 2)) ∧
      (isNumber fp32 d → (z = 0 → foldStep d p ea eb ka kb = (0, 0)) ∧
        (z ≠ 0 → ∃ r, rounded fp32 0 true (decide (z < 0)) z.natAbs den r ∧ foldStep d p ea eb ka kb = (r.1, if r.2 = 20 then 6 else 0))))) ∧
  (∀ (c : Core) (f : Fold) (i : Nat), f.dst % 256 = 0 →
    let row := c.foldRow f i
    let faulty := fun (l : Nat) => f.zero = false ∧ (c.opLine (f.dst / 64 + 4 * i + l)).why ≠ none
    let step := fun (col : Nat) => foldStep (if f.zero then 0 else ((c.opLine (f.dst / 64 + 4 * i + col / 16)).data.extractLsb' (32 * (col % 16)) 32).toNat)
      ((f.snap.getD i 0).extractLsb' (32 * col) 32).toInt (f.ea.getD i 0xFF) (f.eb.getD col 0xFF) (8 - 2 - 2 * f.fa) (8 - 2 - 2 * f.fb)
    f.fa < 3 → f.fb < 3 →
    row.1.row = i ∧ (∀ l, l < 4 → (row.1.bad.getLsbD l = true ↔ faulty l)) ∧
    (∀ col, col < 64 →
      (faulty (col / 16) → row.1.write.getLsbD col = false) ∧
      (¬ faulty (col / 16) → (row.1.els.extractLsb' (32 * col) 32).toNat = (step col).1 ∧
        (row.1.write.getLsbD col = true ↔ ¬ (f.sup = true ∧ ((step col).1 / 2 ^ 23) % 2 ^ 8 = 255)))) ∧
    ∀ b, b < 4 → (row.2.getLsbD b = true ↔ ∃ col, col < 64 ∧ ¬ faulty (col / 16) ∧ (step col).2.testBit b = true)) ∧
  (∀ (c : Core) (f : Fold) (t st : Nat), f.start = some st → st ≤ t → f.dst % 256 = 0 →
    let i := t - st
    let reads := i < f.rows ∧ f.snapPoison.getLsbD i = false
    let u := c.foldWork t f
    (reads → (∀ r ∈ f.out, r.row + 8 ≠ i) →
      u.2 = { f with out := f.out ++ [(c.foldRow f i).1], bits := f.bits ||| (c.foldRow f i).2 } ∧ (∀ q, u.1.engineByte q = c.engineByte q) ∧
      u.1.afault = if c.afault ≠ none ∨ f.zero = true then c.afault
        else ((List.range 4).filterMap fun n => (c.opLine (f.dst / 64 + 4 * i + n)).why).head?.map fun w =>
          ⟨BitVec.ofNat 32 (2 ^ 23 + f.bank * 2 ^ 22 + w * 2 ^ 20 + i), f.ctx⟩) ∧
    (∀ r rest, ¬ reads → f.out = r :: rest → r.row + 8 = i → c.sideOld = [] →
      u.2 = { f with out := rest } ∧ ∀ q, u.1.engineByte q =
        let o := q - (f.dst + 256 * r.row)
        if f.dst + 256 * r.row ≤ q ∧ o < 256 ∧ r.write.getLsbD (o / 4) = true ∧ r.bad.getLsbD (o / 64) = false ∧ (c.opLine (q / 64)).why = none
        then r.els.extractLsb' (8 * o) 8 else c.engineByte q) ∧
    (¬ reads → (∀ r ∈ f.out, r.row + 8 ≠ i) → u = (c, f)))

namespace Sys2Proof.Claims

/-- The bits of a shape record that R97 gives a field: words 11 to 5, 4, 3 to 1 and 0. -/
def recordBits : BitVec 384 := 0x00FFFFFF00FFFFFF00FFFFFF00FFFFFF00FFFFFF00FFFFFF00FFFFFF0000FFFFFFFFFFFFFFFFFFFFFFFFFFFF1FFFFFFF

/-- No register and no byte differs, and of the engine state at most that of core k of cluster g which is named: accumulators, rings, shapes,
patterns, the selected bank of patterns, status entries. -/
def onlyEngine (s u : State) (g k : Nat) (acc rings shapes patterns sel ts : Bool) : Prop :=
  sameMemory s u ∧ sameRegisters s u ∧ sameTrapRegisters s u ∧ ∀ g' k',
    let other := fun (b : Bool) => ¬ (g' = g ∧ k' = k ∧ b = true)
    (other acc → (u.core g' k').acc = (s.core g' k').acc ∧ (u.core g' k').accPoison = (s.core g' k').accPoison) ∧
    (other rings → (u.core g' k').rings = (s.core g' k').rings) ∧ (other shapes → (u.core g' k').shapes = (s.core g' k').shapes) ∧
    (other patterns → (u.core g' k').patterns = (s.core g' k').patterns) ∧ (other sel → (u.core g' k').patSel = (s.core g' k').patSel) ∧
    (other ts → (u.core g' k').ts = (s.core g' k').ts)

end Sys2Proof.Claims

/-- For every core: a single due update of a context that keeps nothing apart is made by RESULT_LAND (ring set, filled or popped; bank or
status entry cleared; shape or pattern written), by MMA_LAND (the bank and its poison, and its status entry cleared for MMAZ) or by
SPLD_SWITCH (the active bank changes), a shape record without its reserved bits; MMA_RETIRE frees the anvil, pops n tiles of each ring at
once and lands the bank 12 cycles on, with POI 18 on; MMA_START and FOLD_START start the waiting operation on the current cycle;
FOLD_COMPLETE ends the fold, its conditions readable 6 cycles on; what a rollback has put off lands as many cycles later (R100). No byte,
no register of any context and no other engine state changes: of this core only what is named, and of every other core none. -/
def Obligations.EngineUpdatesLand : Prop :=
  ∀ (s : State) (g k : Nat),
    let c := s.core g k
    let now := (s.cluster g).run
    let alone := fun (p : Pending) (l : List Pending) => c.pending.filter (fun q => decide (q.due ≤ now)) = [p] ∧
      l = c.pending.filter (fun q => !decide (q.due ≤ now)) ∧ (c.ctx p.ctx).replaying = false
    let quiet := onlyEngine s
    (∀ p l, alone p l →
      (∀ q r, p.upd = .ringSet q r → (∀ x, (c.ctx x).flight = []) →
        ∃ u, exec (.resultLand g k) s = .next u ∧ quiet u g k false true false false false false ∧ (u.core g k).pending = l ∧
          ∀ z, tget {} (u.core g k).rings z = if z = q then r else tget {} c.rings z) ∧
      (∀ q n, p.upd = .ringFill q n → (∀ x, (c.ctx x).flight = []) →
        ∃ u, exec (.resultLand g k) s = .next u ∧ quiet u g k false true false false false false ∧ (u.core g k).pending = l ∧ ∀ z, tget {} (u.core g k).rings z =
          if z = q then { tget {} c.rings q with count := (tget {} c.rings q).count + n } else tget {} c.rings z) ∧
      (∀ q n, p.upd = .ringPop q n ∨ p.upd = .mmaPop q n → (∀ x, (c.ctx x).flight = []) →
        ∃ u, exec (.resultLand g k) s = .next u ∧ quiet u g k false true false false false false ∧ (u.core g k).pending = l ∧ ∀ z, tget {} (u.core g k).rings z =
          if z = q then { tget {} c.rings q with head := ((tget {} c.rings q).head + n) % (tget {} c.rings q).size, count := (tget {} c.rings q).count - n }
          else tget {} c.rings z) ∧
      (∀ b, p.upd = .bankClear b → (∀ x, (c.ctx x).flight = []) →
        ∃ u, exec (.resultLand g k) s = .next u ∧ quiet u g k true false false false false true ∧ (u.core g k).pending = l ∧
          (∀ r, tget 0 (u.core g k).acc r = if r / 32 = b then 0 else tget 0 c.acc r) ∧
          (∀ z, tget 0 (u.core g k).accPoison z = if z = b then 0 else tget 0 c.accPoison z) ∧
          ∀ z, tget 0 (u.core g k).ts z = if z = b then 0 else tget 0 c.ts z) ∧
      (∀ e, p.upd = .tsClear e → (∀ x, (c.ctx x).flight = []) →
        ∃ u, exec (.resultLand g k) s = .next u ∧ quiet u g k false false false false false true ∧ (u.core g k).pending = l ∧
          ∀ z, tget 0 (u.core g k).ts z = if z = e then 0 else tget 0 c.ts z) ∧
      (∀ z v, p.upd = .shape z v → (∀ x, (c.ctx x).flight = []) →
        ∃ u, exec (.resultLand g k) s = .next u ∧ quiet u g k false false true false false false ∧ (u.core g k).pending = l ∧
          ∀ y, tget 0 (u.core g k).shapes y = if y = z then v &&& recordBits else tget 0 c.shapes y) ∧
      (∀ b e v, p.upd = .pattern b e v → (∀ x, (c.ctx x).flight = []) →
        ∃ u, exec (.resultLand g k) s = .next u ∧ quiet u g k false false false true false false ∧ (u.core g k).pending = l ∧
          ∀ y, tget 0 (u.core g k).patterns y = if y = 64 * b + e then v else tget 0 c.patterns y) ∧
      (p.upd = .patternSwitch → ∃ u, exec (.spldSwitch g k) s = .next u ∧ quiet u g k false false false false true false ∧ (u.core g k).pending = l ∧
        (u.core g k).patSel = (c.patSel + 1) % 2 ∧ (u.core g k).cmds = c.cmds.filter (fun m => !(m.kind == .spld && decide (m.done ≤ now)))) ∧
      (∀ b rows po cl, p.upd = .bankLand b rows po cl → rows.length = 32 →
        ∃ u, exec (.mmaLand g k) s = .next u ∧ quiet u g k true false false false false cl ∧ (u.core g k).pending = l ∧
          (∀ r, tget 0 (u.core g k).acc r = if r / 32 = b then rows.getD (r % 32) 0 else tget 0 c.acc r) ∧
          (∀ z, tget 0 (u.core g k).accPoison z = if z = b then po else tget 0 c.accPoison z) ∧
          ∀ z, tget 0 (u.core g k).ts z = if z = b ∧ cl = true then 0 else tget 0 c.ts z)) ∧
    (∀ m rest, c.anvil = m :: rest →
      (∀ st, m.start = some st → st + mmaCycles m.n m.wa m.wb ≤ now →
        let r := st + mmaCycles m.n m.wa m.wb
        let po := m.poison ||| m.dead
        ∃ u, exec (.mmaRetire g k) s = .next u ∧ quiet u g k false false false false false false ∧ (u.core g k).anvil = rest ∧
          (u.core g k).pending = c.pending ++ [⟨r + m.shift, m.issued, m.ctx, .mmaPop m.qa m.n⟩, ⟨r + m.shift, m.issued, m.ctx, .mmaPop m.qb m.n⟩,
            ⟨r + m.shift + 12, m.issued, m.ctx, .bankLand m.bank m.rows po m.zero⟩] ++
            (if po = 0 then [] else [⟨r + m.shift + 18, m.issued, m.ctx, .tsCond m.bank 8 0⟩])) ∧
      (m.start = none → ∃ u m', exec (.mmaStart g k) s = .next u ∧ quiet u g k false false false false false false ∧ (u.core g k).anvil = m' :: rest ∧ m'.start = some now ∧
        m'.bank = m.bank ∧ m'.n = m.n ∧ m'.tiles = m.tiles ∧ m'.qa = m.qa ∧ m'.qb = m.qb ∧
        (m.zero = true → m'.rows = List.replicate 32 0 ∧ m'.poison = 0))) ∧
    (∀ f rest, c.fold = f :: rest →
      (f.start = none → f.planned ≤ now → rest = [] → ∃ u f', exec (.foldStart g k) s = .next u ∧ quiet u g k false false false false false f.zero ∧ (u.core g k).fold = [f'] ∧
        f'.start = some now ∧ f'.bank = f.bank ∧ f'.rows = f.rows ∧ f'.dst = f.dst ∧
        f'.snap = (List.range 32).map (fun r => tget 0 c.acc (32 * f.bank + r))) ∧
      (∀ st, f.start = some st → st + 8 + f.rows ≤ now → rest = [] → ∃ u, exec (.foldComplete g k) s = .next u ∧ quiet u g k false false false false false false ∧
        (u.core g k).fold = [] ∧ (u.core g k).pending = c.pending ++ [⟨now + f.shift + 6, f.issued, f.ctx, .tsCond (2 + f.j) f.bits 0⟩]))

namespace Sys2Proof.Claims

/-- No operation of the core still holds a bank after the issue cycle, so no schedule conflicts with an earlier one. -/
def quietPort (s : State) : Prop := ∀ b ∈ s.hereCore.sched, b.due ≤ s.t

/-- Checks 1 and 3 of R202 pass on n bytes at a in core k of the issuing cluster. -/
def openRange (s : State) (k a n : Nat) : Prop :=
  a + n ≤ 0x100000 ∧ ∀ l, touches a n 64 l → tget 0 (s.core s.cur.g k).lent (l % 32) = 0

/-- Fewer than `cap` commands of the kinds are in the core's engine and not complete. -/
def hasRoom (s : State) (ks : List CmdKind) (cap : Nat) : Prop :=
  (s.hereCore.cmds.filter fun c => ks.contains c.kind && decide (s.t < c.done)).length < cap

/-- No register of any context, no byte of a scratchpad or of instruction memory and no engine state differs. -/
def onlyCommands (s t : State) : Prop :=
  (∀ g k x, t.ctx g k x = s.ctx g k x) ∧ (∀ g k a, (t.core g k).engineByte a = (s.core g k).engineByte a) ∧
  (∀ g k a, Memory.read (t.core g k).imem a = Memory.read (s.core g k).imem a) ∧ sameEngineState s t

/-- The answer enters one command in the core's engine; only cluster bookkeeping differs beside that. -/
def enters (s : State) (o : Out) (c : Cmd) : Prop :=
  ∃ t, o = .next t ∧ t.hereCore.cmds = s.hereCore.cmds ++ [c] ∧ onlyCommands s t ∧ t.hbm = s.hbm

/-- What a full engine answers. -/
def fullAnswer (s : State) : Out := .next (if s.hereCluster.trigger then s.block else s.takeTrap codeEngineBusy)

/-- The operands of XSND and XRCV (R219): own address and lines, the other core and its address, the tag. -/
def sendLegal (s : State) (d a b : BitVec 5) : Prop :=
  (s.rs d).toNat % 2 ^ 20 % 64 = 0 ∧ 2 ^ 20 ≤ (s.rs d).toNat ∧ (s.rs a).toNat % 2 ^ 20 % 64 = 0 ∧ (s.rs a).toNat / 2 ^ 20 < 48 ∧
  (s.rs a).toNat / 2 ^ 20 ≠ s.cur.k ∧ (s.rs b).toNat < 0xFFF

end Sys2Proof.Claims

/-- For every state whose core holds no bank after the issue cycle: CPY of b bytes between disjoint open 64-aligned ranges, with fewer
than four copies under way and no conflict with itself, SPLD of n entries and SHAPE of a readable 64-aligned record answer a state with
one more command, complete at issue + 2 + b/256 rounded up, issue + 2 + n, or issue + 6; a switching SPLD lands its switch then. Illegal
values take OPERAND_ILLEGAL, a range past the scratchpad ADDRESS_RANGE, a lent bank LENT_BANK; a full engine ENGINE_BUSY or a blocked
bundle; a copy of whole blocks whose banks lie 5 to 11 apart conflicts. That a CPY past the scratchpad takes ADDRESS_RANGE, and that the
lent banks, the queue and the port are judged in this order, is the model's choice (log entry 15). -/
def Obligations.LocalCopyAndLoads : Prop :=
  ∀ (s : State) (d a b : BitVec 5) (k : BitVec 4) (w : BitVec 1), quietPort s →
    let x := (s.rs d).toNat
    let y := (s.rs a).toNat
    let n := (s.rs b).toNat
    let copyLegal := x % 64 = 0 ∧ y % 64 = 0 ∧ n % 64 = 0 ∧ x < 0x100000 ∧ y < 0x100000 ∧ 64 ≤ n ∧ n ≤ 65536 ∧ (y + n ≤ x ∨ x + n ≤ y)
    let apart := (((x / 64 : Nat) : Int) - (y / 64 : Nat)) % 32
    let entries := n / 2 ^ 6 + 1
    let loadLegal := y % 128 = 0 ∧ y < 0x100000 ∧ n < 4096 ∧ n % 2 ^ 6 + entries ≤ 64
    (¬ copyLegal → exec (.cpy d a b) s = .next (s.takeTrap codeOperandIllegal)) ∧
    (copyLegal →
      (0x100000 < y + n ∨ 0x100000 < x + n → exec (.cpy d a b) s = .next (s.takeTrap codeAddressRange)) ∧
      (y + n ≤ 0x100000 → x + n ≤ 0x100000 → ¬ openRange s s.cur.k y n ∨ ¬ openRange s s.cur.k x n →
        exec (.cpy d a b) s = .next (s.takeTrap codeLentBank)) ∧
      (openRange s s.cur.k y n → openRange s s.cur.k x n →
        (¬ hasRoom s [.cpy] 4 → exec (.cpy d a b) s = fullAnswer s) ∧
        (hasRoom s [.cpy] 4 → n ≤ 512 ∨ apart < 5 ∨ 11 < apart → enters s (exec (.cpy d a b) s)
          { kind := .cpy, ctx := s.cur.x, issued := s.t, done := s.t + 2 + (n + 255) / 256, src := y, dst := x, n := n }) ∧
        (hasRoom s [.cpy] 4 → n % 256 = 0 → 768 ≤ n → 5 ≤ apart → apart ≤ 11 → exec (.cpy d a b) s = .next s.bankConflict))) ∧
    (¬ loadLegal → exec (.spld a b w) s = .next (s.takeTrap codeOperandIllegal)) ∧
    (loadLegal → openRange s s.cur.k y (128 * entries) → hasRoom s [.spld] 2 →
      (∀ c ∈ s.hereCore.cmds, c.kind = .spld → c.issued + 1 + c.n < s.t + 2) →
      let c : Cmd := { kind := .spld, ctx := s.cur.x, issued := s.t, done := s.t + 2 + entries, src := y, n := entries
                       other := n % 2 ^ 6, sw := w == 1 }
      enters s (exec (.spld a b w) s) c ∧
      (w = 1 → ∃ t, exec (.spld a b w) s = .next t ∧ t.hereCore.pending =
        s.hereCore.pending ++ [{ due := s.t + 2 + entries, issued := s.t, ctx := s.cur.x, upd := .patternSwitch }])) ∧
    (Reached s y 48 64 → soundWords s y 48 →
      (¬ hasRoom s [.shape] 4 → exec (.shape k a) s = fullAnswer s) ∧
      (hasRoom s [.shape] 4 → enters s (exec (.shape k a) s)
        { kind := .shape, ctx := s.cur.x, issued := s.t, done := s.t + 6, src := y, other := k.toNat })) ∧
    (y + 48 ≤ 0x100000 → y % 64 ≠ 0 → exec (.shape k a) s = .next (s.takeTrap codeMisaligned)) ∧
    (0x100000 < y + 48 → exec (.shape k a) s = .next (s.takeTrap codeAddressRange))

/-- For every state whose core holds no bank after the issue cycle, and outside serial issue mode for the first two: XSND and XRCV of n
lines with another core of the cluster, both ranges open and fewer than eight under way, answer a state with one more command, complete at
issue + 12 + n/2 rounded up; an XRCV plans its n source reads, two a cycle from issue + 1. SEAL and OPEN of m lines with their record,
neither under way, complete at issue + 14 + m and issue + 14 + 2m; a SEAL carries the IV of R221, advances the counter, and takes
FORM_SEALED on a sealed line. Nothing else changes. That a record from 2^20 on is OPERAND_ILLEGAL and that FORM_SEALED comes before a full
unit are the model's choices (log entry 15), and so is the cycle on which a failed OPEN completes (log entry 24). -/
def Obligations.SendsAndSeals : Prop :=
  ∀ (s : State) (d a b : BitVec 5), quietPort s →
    let own := (s.rs d).toNat % 2 ^ 20
    let n := (s.rs d).toNat / 2 ^ 20
    let far := (s.rs a).toNat % 2 ^ 20
    let other := (s.rs a).toNat / 2 ^ 20
    let m := (s.rs a).toNat / 2 ^ 20
    let record := (s.rs b).toNat
    let sealLegal := far % 64 = 0 ∧ 1 ≤ m ∧ m ≤ 64 ∧ record % 32 = 0 ∧ record < 0x100000
    (¬ sendLegal s d a b → exec (.xsnd d a b) s = .next (s.takeTrap codeOperandIllegal) ∧
      exec (.xrcv d a b) s = .next (s.takeTrap codeOperandIllegal)) ∧
    (sendLegal s d a b → s.here.tsr.getLsbD 3 = false → openRange s s.cur.k own (64 * n) → openRange s other far (64 * n) →
      (¬ hasRoom s [.xsnd, .xrcv] 8 → exec (.xsnd d a b) s = fullAnswer s ∧ exec (.xrcv d a b) s = fullAnswer s) ∧
      (hasRoom s [.xsnd, .xrcv] 8 →
        let c : Cmd := { kind := .xsnd, ctx := s.cur.x, issued := s.t, done := s.t + 12 + (n + 1) / 2, src := own, dst := far, n := n
                         other := other, tag := (s.rs b).setWidth 12 }
        enters s (exec (.xsnd d a b) s) c ∧
        ∃ t, exec (.xrcv d a b) s = .next t ∧ t.hereCore.cmds = s.hereCore.cmds ++ [{ c with kind := .xrcv, src := far, dst := own }] ∧
          onlyCommands s t ∧ t.hbm = s.hbm ∧ t.hereCluster.side = s.hereCluster.side ++ (List.range n).map fun i =>
            { due := s.t + 1 + i / 2, kind := .pullRead, issued := s.t, source := s.cur.k, ctx := s.cur.x, core := other
              line := far / 64 + i, dst := own / 64 + i, tag := (s.rs b).setWidth 12 })) ∧
    (¬ sealLegal → exec (.seal a b) s = .next (s.takeTrap codeOperandIllegal) ∧
      exec (.unseal a b) s = .next (s.takeTrap codeOperandIllegal)) ∧
    (sealLegal → openRange s s.cur.k far (64 * m) → openRange s s.cur.k record 32 →
      let w := s.hereCluster.world
      ((∃ l, touches far (64 * m) 64 l ∧ tget false s.hereCore.forms l = true) → exec (.seal a b) s = .next (s.takeTrap codeFormSealed)) ∧
      ((∀ l, touches far (64 * m) 64 l → tget false s.hereCore.forms l = false) → hasRoom s [.sealOp, .openOp] 1 →
        (∃ t c, exec (.seal a b) s = .next t ∧ t.hereCore.cmds = s.hereCore.cmds ++ [c] ∧ onlyCommands s t ∧ t.hbm = s.hbm ∧
          t.hereCore.sealCtr = s.hereCore.sealCtr + 1 ∧ c.kind = .sealOp ∧ c.ctx = s.cur.x ∧ c.issued = s.t ∧ c.done = s.t + 14 + m ∧
          c.src = far ∧ c.dst = far ∧ c.n = m ∧ c.other = record ∧ c.world = w ∧
          c.iv = leBytes 1 w ++ leBytes 2 (48 * s.cur.g + s.cur.k) ++ leBytes 9 s.hereCore.sealCtr.toNat)) ∧
      (hasRoom s [.sealOp, .openOp] 1 → enters s (exec (.unseal a b) s)
        { kind := .openOp, ctx := s.cur.x, issued := s.t, done := s.t + 14 + 2 * m, src := far, dst := far, n := m, other := record, world := w }) ∧
      (¬ hasRoom s [.sealOp, .openOp] 1 → exec (.unseal a b) s = fullAnswer s))

namespace Sys2Proof.Claims

/-- The pages may be used: in trigger mode the segment is live and has room in its busy count, and the engine holds each page with the permission. -/
def pagesHeld (s : State) (e sg : Nat) (rd wr : Bool) (pages : List Nat) : Prop :=
  let w := s.hereCluster.world
  s.hereCluster.trigger = true → (s.segment w sg).state = 1 ∧ (s.segment w sg).busy < 65535 ∧
    ∀ q ∈ pages, ∃ m, s.pageMap s.cur.g e w sg q = some m ∧ (rd = true → m.rd = true) ∧ (wr = true → m.wr = true)

/-- W of R215: 1,536 where a page touched is protected, else 640. -/
def copyWait (s : State) (e sg : Nat) (pages : List Nat) : Nat :=
  if pages.any (fun q => ((s.pageMap s.cur.g e s.hereCluster.world sg q).map (·.prot)).getD false) then 1536 else 640

/-- Nothing plain is written for a confidential world: the world is not confidential, or every page of the list is protected as the engine maps it. -/
def noLeak (s : State) (e sg : Nat) (pages : List Nat) : Prop :=
  (s.world s.hereCluster.world).flags % 2 = 0 ∨ ∀ q ∈ pages, ∀ m, s.pageMap s.cur.g e s.hereCluster.world sg q = some m → m.prot = true

/-- A byte of HBM once a segment's busy count (bytes 2 and 3 of its entry) stands at n, every other byte as it was. -/
def busyAt (s : State) (w sg n q : Nat) : Byte :=
  if q = s.segAddr w sg + 2 then BitVec.ofNat 8 n
  else if q = s.segAddr w sg + 3 then BitVec.ofNat 8 (n / 256)
  else Memory.read s.hbm.cells q

/-- The same for a segment of the issuing world, one higher. -/
def busyMore (s : State) (sg q : Nat) : Byte := busyAt s s.hereCluster.world sg ((s.segment s.hereCluster.world sg).busy + 1) q

/-- What every copy-engine command holds beside its own operands. -/
def copyOf (s : State) (sg : Nat) (c : Cmd) : Prop :=
  c.ctx = s.cur.x ∧ c.issued = s.t ∧ c.seg = sg ∧ c.world = s.hereCluster.world

/-- The answer enters, behind the core's other commands, one command that `same` describes, and counts the segment busy once more: no register and
no byte of a scratchpad differs, and no other byte of HBM. -/
def entersCopy (s : State) (o : Out) (sg : Nat) (same : Cmd → Prop) : Prop :=
  ∃ t c, o = .next t ∧ t.hereCore.cmds = s.hereCore.cmds ++ [c] ∧ same c ∧ copyOf s sg c ∧ onlyCommands s t ∧
    ∀ q, Memory.read t.hbm.cells q = busyMore s sg q

/-- Line i of a run from offset `off` is mapped by `p` with the permission asked, on an unprotected page. -/
def plainLine (s : State) (e sg off i : Nat) (wr : Bool) (p : PageMap) : Prop :=
  s.pageMap s.cur.g e s.hereCluster.world sg ((off + 64 * i) / 65536) = some p ∧ (if wr then p.wr else p.rd) = true ∧ p.prot = false

/-- What a plain write leaves in byte o of a segment entry (R250): BUSY, in bytes 2 and 3, and TT stand, and reserved bits are zero. -/
def entryByte (o : Nat) (old new : Byte) : Byte :=
  if o = 0 then (new &&& 0x1F) ||| (old &&& 0x20)
  else if o = 2 ∨ o = 3 then old
  else if o = 8 then new &&& 0x0F
  else if o = 1 ∨ o = 9 ∨ o = 10 ∨ o = 11 ∨ o = 15 then 0
  else new

/-- The HBM line is one of the segment table of a world that is ACTIVE or RESETTING. -/
def ofTable (s : State) (l : Nat) : Prop := ∃ p ∈ s.worlds, (p.2.state = 1 ∨ p.2.state = 2) ∧ p.2.segments = l / 1024

/-- The HBM address of line i of a run from offset `off` on a page. -/
def lineHome (off i : Nat) (p : PageMap) : Nat := p.frame * 65536 + (off + 64 * i) % 65536

end Sys2Proof.Claims

/-- For every state in an exchange pitch or trigger mode whose core holds no bank after the issue cycle, with legal operands, open ranges,
offsets within the segment, pages that need no wait, an engine with room and no plain page written for a confidential world: each answers
a state with one more command of its engine, complete at issue + W + n/128 rounded up (2W for CPY.hbm), whose reads meet HBM as it stands;
the segment's busy count is one higher; no register, no byte of the scratchpad and no other byte of HBM changes. CPY.hbm completes so for
any number of lines and any protection; with no other command under way and plain lines whose destinations lie apart, each destination
line then holds its source line, and nothing else changes. That GTH and SCT judge their pages, and so W, from the index list as it stands
at issue is the model's choice (log entry 22), and that the reads of an SCT's own index list and rows never conflict is too (log entry
56). In a line of a segment table BUSY, TT and the reserved bits keep out of a write (R250, R9). -/
def Obligations.HbmCopies : Prop :=
  ∀ (s : State) (d a b : BitVec 5) (e : BitVec 1), s.hereCluster.trigger = true ∨ s.inExchange s.cur.g = true → quietPort s →
    s.copyEngineFull e.toNat = false →
    let own := (s.rs d).toNat % 2 ^ 20
    let n := (s.rs d).toNat / 2 ^ 20
    let sg := (s.rs a).toNat
    let off := (s.rs b).toNat
    let w := s.hereCluster.world
    (own % 64 = 0 → n ≠ 0 → sg < 4096 → off % 64 = 0 → openRange s s.cur.k own (64 * n) →
      let pages := pagesOf off (64 * n)
      let W := copyWait s e.toNat sg pages
      (off + 64 * n ≤ (s.segment w sg).limit * 65536 →
        (pagesHeld s e.toNat sg true false pages → entersCopy s (exec (.hget d a b e) s) sg (fun c => c.kind = .hget ∧
          c.done = s.t + W + (n + 1) / 2 ∧ c.src = off ∧ c.dst = own ∧ c.n = n ∧ c.w = W ∧ c.engine = e.toNat ∧ c.view = s.hbm)) ∧
        (pagesHeld s e.toNat sg false true pages → noLeak s e.toNat sg pages → entersCopy s (exec (.hput d a b e) s) sg (fun c =>
          c.kind = .hput ∧ c.done = s.t + W + (n + 1) / 2 ∧ c.src = own ∧ c.dst = off ∧ c.n = n ∧ c.w = W ∧ c.engine = e.toNat))) ∧
      ((s.segment w sg).limit * 65536 < off + 64 * n → exec (.hget d a b e) s = .next (s.takeTrap codeAddressRange) ∧
        exec (.hput d a b e) s = .next (s.takeTrap codeAddressRange))) ∧
    (let rows := own
     let list := (s.rs a).toNat % 2 ^ 20
     let z := (s.rs a).toNat / 2 ^ 20
     rows % 64 = 0 → n ≠ 0 → list % 4 = 0 → z < 8 → off < 4096 → openRange s s.cur.k rows (n * (64 * 2 ^ z)) → openRange s s.cur.k list (4 * n) →
      let pages := indexPages (s.hereCore.indexWords list n) (64 * 2 ^ z) (s.segment w off).limit
      let W := copyWait s e.toNat off pages
      let same := fun (k : CmdKind) (c : Cmd) => c.kind = k ∧ c.done = s.t + W + (n * (64 * 2 ^ z) + 127) / 128 ∧ c.dst = rows ∧ c.n = n ∧
        c.other = list ∧ c.z = z ∧ c.w = W ∧ c.engine = e.toNat
      (pagesHeld s e.toNat off true false pages → entersCopy s (exec (.gth d a b e) s) off (fun c => same .gth c ∧ c.view = s.hbm)) ∧
      (pagesHeld s e.toNat off false true pages → noLeak s e.toNat off pages → entersCopy s (exec (.sct d a b e) s) off (same .sct))) ∧
    (let dst := (s.rs d).toNat
     let src := (s.rs a).toNat
     let g := (s.rs b).toNat % 2 ^ 12
     let m := (s.rs b).toNat / 2 ^ 12
     let limit := (s.segment w g).limit * 65536
     let W := copyWait s e.toNat g (distinct (pagesOf src (64 * m) ++ pagesOf dst (64 * m)))
     let same := fun (c : Cmd) => c.kind = .cpyHbm ∧ c.done = s.t + 2 * W + (m + 1) / 2 ∧ c.src = src ∧ c.dst = dst ∧ c.n = m ∧ c.w = W ∧
       c.engine = e.toNat
     dst % 64 = 0 → src % 64 = 0 → m ≠ 0 → src + 64 * m ≤ dst ∨ dst + 64 * m ≤ src → s.cur.trapped = none → s.cur.blocked = false →
      (limit < src + 64 * m ∨ limit < dst + 64 * m → exec (.cpyHbm d a b e) s = .next (s.takeTrap codeAddressRange)) ∧
      (src + 64 * m ≤ limit → dst + 64 * m ≤ limit →
       pagesHeld s e.toNat g true false (pagesOf src (64 * m)) → pagesHeld s e.toNat g false true (pagesOf dst (64 * m)) →
       noLeak s e.toNat g (pagesOf dst (64 * m)) →
        (∃ t c, exec (.cpyHbm d a b e) s = .next t ∧ t.hereCore.cmds.length = s.hereCore.cmds.length + 1 ∧ c ∈ t.hereCore.cmds ∧ same c ∧
          copyOf s g c ∧ onlyCommands s t) ∧
        (s.allCmds = [] → ∀ P D : Nat → PageMap,
          (∀ i, i < m → plainLine s e.toNat g src i false (P i) ∧ plainLine s e.toNat g dst i true (D i) ∧
            (s.hbm.line (lineHome dst i (D i) / 64)).key ≤ s.hbmOrder e.toNat + 1 ∧
            s.segAddr w g / 64 ≠ lineHome dst i (D i) / 64) →
          (∀ i j, i < m → j < m → lineHome dst i (D i) = lineHome dst j (D j) → i = j) →
          ∃ t, exec (.cpyHbm d a b e) s = .next t ∧
            (∀ i x, i < m → x < 64 →
              (¬ ofTable s (lineHome dst i (D i) / 64) → Memory.read t.hbm.cells (lineHome dst i (D i) + x) =
                Memory.read s.hbm.cells (lineHome src i (P i) + x)) ∧
              (ofTable s (lineHome dst i (D i) / 64) → Memory.read t.hbm.cells (lineHome dst i (D i) + x) =
                entryByte (x % 16) (Memory.read s.hbm.cells (lineHome dst i (D i) + x)) (Memory.read s.hbm.cells (lineHome src i (P i) + x)))) ∧
            ∀ q, (∀ i, i < m → ¬ (lineHome dst i (D i) ≤ q ∧ q < lineHome dst i (D i) + 64)) →
              Memory.read t.hbm.cells q = busyMore s g q)))

namespace Sys2Proof.Claims

/-- n bytes of the core's scratchpad as an engine's core-side read takes them, as a little-endian number. -/
def engineNumber (s : State) (a n : Nat) : Nat := ((List.range n).map fun i => (s.hereCore.engineByte (a + i)).toNat * 2 ^ (8 * i)).sum

/-- An untimed instruction may issue: trigger mode; not in serial issue mode, but for world 0 with no released store left; not suppressed. -/
structure UntimedOk (s : State) : Prop where
  trigger : s.hereCluster.trigger = true
  serial : s.here.tsr.getLsbD 3 = false ∨ (s.hereCluster.world = 0 ∧ ∀ e ∈ s.hereCore.wbuf, e.released = false)

/-- The answer is a next state in which the context's untimed queue has one more entry and nothing else of registers, bytes or engines differs. -/
def queues (s : State) (o : Out) (u : Untimed) : Prop :=
  ∃ t, o = .next t ∧ t.here = { s.here with untimed := s.here.untimed ++ [u], issuedSince := s.here.issuedSince ++ [u.id] } ∧
    t.nextUntimed = s.nextUntimed + 1 ∧ othersSame s t ∧ sameMemory s t ∧ sameEngineState s t

/-- Beside the bookkeeping of memory errors nothing differs: a word that a read met may have turned from uncorrectable to poison, and
corrections may wait; a counter of free values may have moved. -/
def onlyErrors (s t : State) : Prop :=
  t = { s with clusters := t.clusters, fresh := t.fresh } ∧ (∀ g, t.cluster g = { s.cluster g with cores := (t.cluster g).cores }) ∧
  ∀ g k, (∀ w, (t.core g k).err w = (s.core g k).err w ∨ ((s.core g k).err w = .uncorrectable ∧ (t.core g k).err w = .poison)) ∧
    t.core g k = { s.core g k with
      errs := (t.core g k).errs, fixes := (t.core g k).fixes, ceCount := (t.core g k).ceCount, poisonCount := (t.core g k).poisonCount }

/-- The six instructions that take a descriptor, by the number of their kind (R241). -/
def descriptorOp (kind : Nat) (a : BitVec 5) : Instr :=
  match kind with
  | 1 => .fput a
  | 2 => .fget a
  | 3 => .fatm a
  | 4 => .fflr a
  | 5 => .pinj a
  | _ => .tblw a

end Sys2Proof.Claims

/-- For every trigger-mode state in which untimed operations may issue, with room in the queue of 32 and no bank held: the descriptor
forms with a readable 32-aligned descriptor take one entry with its fields, queued where descriptor and target are accepted, and else
completed and refused with OPERAND_ILLEGAL or the refusal; CAIRN takes its status and count; a suppressed issue stands for the operation
it matches; a full queue blocks. UFNC goes on exactly with an empty queue. ASSAY queues its 64 request bytes and issues the submission
status at issue + 3. TBLR issues the item's word at issue + 24, or traps; memory errors apart, it changes nothing else. The model's
choices: the limits of a descriptor that 09 R223 and R225 leave out (log entry 57), the room and the reply range of an ASSAY (44), TBLR's
sample at its issue and UFNC's wait for every operation of the context (27), and the order of the checks (15). -/
def Obligations.UntimedOperations : Prop :=
  (∀ (s : State) (kind : Nat) (d a b : BitVec 5), 1 ≤ kind → kind ≤ 6 → UntimedOk s →
    let adr := (s.rs a).toNat
    (∀ r rs, s.here.replay = r :: rs → ∃ t, exec (descriptorOp kind a) s = .next t ∧
      t = s.modHere fun c => { c with replay := rs, issuedSince := c.issuedSince ++ [r] }) ∧
    (s.here.replay = [] → (adr % 32 ≠ 0 ∨ 0x100000 ≤ adr) → exec (descriptorOp kind a) s = .next (s.takeTrap codeOperandIllegal)) ∧
    (s.here.replay = [] → adr % 32 = 0 → openRange s s.cur.k adr 32 → quietPort s →
      (32 ≤ s.here.untimed.length → s.here.tsr.getLsbD 3 = false → exec (descriptorOp kind a) s = .next s.block) ∧
      (s.here.untimed.length < 32 → soundWords s adr 32 →
        let x := engineNumber s adr 32
        let u : Untimed := { descriptor kind x with id := s.nextUntimed, issued := s.t, world := s.hereCluster.world }
        let st := if descriptorOk kind x then s.sourceStatus s.hereCluster.world (descriptor kind x) else codeOperandIllegal
        (st = codeDone → queues s (exec (descriptorOp kind a) s) u) ∧
        (st ≠ codeDone → queues s (exec (descriptorOp kind a) s)
          { u with phase := .completed, status := st, refused := true, doneTick := s.tick.toNat }))) ∧
    (s.here.replay = [] → s.here.untimed.length < 32 →
      ((s.rs a).toNat < 2 ^ 17 → queues s (exec (.cairn a b) s)
        { id := s.nextUntimed, kind := 7, issued := s.t, world := s.hereCluster.world, status := (s.rs a).toNat % 2 ^ 16, cairn := true
          irq := (s.rs a).getLsbD 16, moved := (s.rs b).toNat }) ∧
      (2 ^ 17 ≤ (s.rs a).toNat → exec (.cairn a b) s = .next (s.takeTrap codeOperandIllegal))) ∧
    (s.hereCore.afault = none →
      (s.here.untimed = [] → exec .ufnc s = .next s) ∧
      (s.here.untimed ≠ [] → s.here.tsr.getLsbD 3 = false → exec .ufnc s = .next s.block)) ∧
    (Readable s adr 64 →
      let q : AssayReq := { world := s.hereCluster.world, cluster := s.cur.g, core := s.cur.k, fromHost := false, seq := s.assay.seq
                            bytes := (List.range 64).map fun i => s.hereCore.engineByte (adr + i) }
      let room := engineNumber s (adr + 8) 4
      let reply := engineNumber s (adr + 4) 4
      let status := fun (v : Word) => ∃ t, exec (.assay d a) s = .next t ∧
        t.here = { s.here with flight := s.here.flight ++ [toS s 3 d v] } ∧ othersSame s t ∧ sameMemory s t ∧ sameEngineState s t
      (32 ≤ s.assay.queue.length → status 0x74) ∧
      (s.assay.queue.length < 32 → (room < 64 ∨ 65536 < room ∨ 0x100000 < reply + room ∨ reply % 64 ≠ 0) → status 0x0B) ∧
      (s.assay.queue.length < 32 → 64 ≤ room → room ≤ 65536 → reply % 64 = 0 → openRange s s.cur.k reply room → status 0 ∧
        ∃ t, exec (.assay d a) s = .next t ∧ t.assay.queue = s.assay.queue ++ [q] ∧ t.assay.seq = s.assay.seq + 1))) ∧
  (∀ x, descriptorOk 1 x = descriptorOk 2 x ∧ (descriptorOk 1 x = true ↔
    1 ≤ x / 2 ^ 128 % 2 ^ 32 ∧ x / 2 ^ 128 % 2 ^ 32 ≤ 65536 ∧ x / 2 ^ 12 % 2 ^ 4 = 0 ∧ x / 2 ^ 64 % 2 ^ 64 < 2 ^ 40 ∧ x / 2 ^ 208 % 2 ^ 48 = 0 ∧
    x / 2 ^ 203 % 2 ^ 5 = 0 ∧ (x / 2 ^ 202 % 2 = 1 → x / 2 ^ 201 % 2 = 1) ∧ x / 2 ^ 160 % 2 ^ 32 + x / 2 ^ 128 % 2 ^ 32 ≤ 0x100000)) ∧
  (∀ (s : State) (d a b : BitVec 5),
    let h := (s.rs a).toNat
    let n := (s.rs b).toNat
    let fits := ∃ z, itemSize (hKind h) = some z ∧ 4 * n + 4 ≤ z
    (s.itemOk h (hIndex h) s.hereCluster.world = true → fits → ∃ u, onlyErrors s u ∧ exec (.tblr d a b) s =
      .next (issuing u [toS s 24 d (BitVec.ofNat 32 (field (s.itemRead (hPort h) (hKind h) (hStage h) (hPos h) (hIndex h)) (4 * n) 4))])) ∧
    (s.itemOk h (hIndex h) s.hereCluster.world = false ∨ ¬ fits → exec (.tblr d a b) s = .next (s.takeTrap codeTableDenied)))

namespace Sys2Proof.Claims

/-- A byte of a list, and n bytes of it as a little-endian number; bytes past its end read zero. -/
def byteOf (b : List Byte) (o : Nat) : Byte := b.getD o 0
def numberAt (b : List Byte) (o n : Nat) : Nat := ((List.range n).map fun i => (byteOf b (o + i)).toNat * 2 ^ (8 * i)).sum

/-- The answer changes only the header vector of the packet in hand, and of its 128 bytes only those that `f` gives a value. -/
def vectorWrite (s : State) (o : Out) (f : Nat → Option Byte) : Prop :=
  ∃ t, o = .next t ∧ t = { s with pkt := { s.pkt with hv := t.pkt.hv } } ∧ t.pkt.hv.length = 128 ∧
    ∀ q, q < 128 → byteOf t.pkt.hv q = (f q).getD (byteOf s.pkt.hv q)

/-- n bytes at o take the low bytes of v; byte 71 gains a disposition bit; two changes together. -/
def bytesAt (o n v : Nat) (q : Nat) : Option Byte := if o ≤ q ∧ q < o + n then some (BitVec.ofNat 8 (v / 2 ^ (8 * (q - o)))) else none
def disposed (s : State) (b : Nat) (q : Nat) : Option Byte := if q = 71 then some (byteOf s.pkt.hv 71 ||| BitVec.twoPow 8 b) else none
def both (f g : Nat → Option Byte) (q : Nat) : Option Byte := (f q).orElse fun _ => g q

/-- Byte i of cell j of an array of the packet's stage whose cells of `size` bytes begin in bank `first`, `per` to a bank: the core whose
scratchpad holds it, and its address there (12 R276, R283). -/
def cellCore (s : State) (first per j : Nat) : Nat := dirCore ((s.pipe s.pkt.port).dir (first + j / per))
def cellByte (s : State) (first per size j i : Nat) : Nat :=
  bankAddr (dirBank ((s.pipe s.pkt.port).dir (first + j / per))) (size * (j % per) + i)

/-- Beside the header vector only the scratchpad bytes of that cell differ, for every reader, and the error marks of its words. -/
def onlyCell (s t : State) (first per size j : Nat) : Prop :=
  t = { s with pkt := { s.pkt with hv := t.pkt.hv }, clusters := t.clusters, fresh := t.fresh } ∧
  (∀ g, t.cluster g = { s.cluster g with cores := (t.cluster g).cores }) ∧
  ∀ g k,
    let c := t.core g k
    let inCell := fun (a : Nat) => g = cellCore s first per j / 48 ∧ k = cellCore s first per j % 48 ∧ ∃ i, i < size ∧ a = cellByte s first per size j i
    c = { s.core g k with spad := c.spad, errs := c.errs, fixes := c.fixes, ceCount := c.ceCount, poisonCount := c.poisonCount, heads := c.heads
                          wbuf := c.wbuf } ∧
    (∀ a, ¬ inCell a → Memory.read c.spad a = Memory.read (s.core g k).spad a ∧ c.engineByte a = (s.core g k).engineByte a) ∧
    ∀ w, (∀ a, inCell a → a / 8 ≠ w) → c.err w = (s.core g k).err w

end Sys2Proof.Claims

/-- For every state with a 128-byte header vector and every X field inside it: A.SET, A.ADD, A.COPY and A.HASH write their value to X
alone; A.ABSORB, A.FWD, A.DROP, A.MIRROR, A.PUNT and A.TRUNC write their bytes and set their disposition bit; A.COUNT adds one bump to the
packet; A.ROUTE does nothing but on a token whose RT bit is 1, rewrites DMOD, EP and RT there, and absorbs, forwards or drops by the data.
A.REGADD adds X to the register cell and returns the new value, and 0 past the array; A.METER charges the cell's two buckets, stamps its
tick and returns the colour, and red past the array; for a packet that entered before the pipeline was ready both leave the cell. Beside
the vector nothing changes but the cell's own bytes, and a dropped token's count. The model's choices: that both give 0 and red for such a
packet (log entry 61), and the fractions of the meter's refill (log entry 33). -/
def Obligations.PacketActions : Prop :=
  ∀ (s : State) (x y : BitVec 7) (w v : BitVec 2) (q : BitVec 1) (im : BitVec 10) (k : BitVec 2) (p : BitVec 6),
    s.pkt.hv.length = 128 → x.toNat + 2 ^ w.toNat ≤ 128 →
    let hv := s.pkt.hv
    let data := s.pkt.bundle.data
    let n := 2 ^ w.toNat
    let X0 := numberAt hv 0 16
    let X := numberAt hv x.toNat n
    let Y := numberAt (if q = 1 then data else hv) y.toNat (2 ^ v.toNat)
    vectorWrite s (exec (.aSet x w im) s) (bytesAt x.toNat n im.toNat) ∧
    vectorWrite s (exec (.aAdd x w y v q) s) (bytesAt x.toNat n (X + Y)) ∧
    vectorWrite s (exec (.aCopy x w y v q) s) (bytesAt x.toNat n Y) ∧
    vectorWrite s (exec (.aHash x w y v) s) (bytesAt x.toNat n (crc64 ((hv.drop y.toNat).take (4 * 2 ^ v.toNat)))) ∧
    vectorWrite s (exec (.aAbsorb x w y v q) s) (both (bytesAt 84 4 X) (both (bytesAt 88 4 Y) (disposed s 1))) ∧
    vectorWrite s (exec (.aFwd k p) s) (both (bytesAt 72 1 p.toNat) (both (bytesAt 69 1 k.toNat) (disposed s 0))) ∧
    vectorWrite s (exec .aDrop s) (disposed s 2) ∧
    vectorWrite s (exec (.aTrunc im) s) (both (bytesAt 92 2 (16 * im.toNat)) (disposed s 5)) ∧
    (∃ t, exec (.aMirror im) s = .next t ∧ t.pkt.mirrorCls = im.toNat / 2 ^ 6 % 4 ∧
      vectorWrite s (.next { t with pkt := { t.pkt with mirrorCls := s.pkt.mirrorCls } }) (both (bytesAt 73 1 (im.toNat % 2 ^ 6)) (disposed s 4))) ∧
    (∃ t, exec (.aPunt im) s = .next t ∧ t.pkt.puntStage = s.pkt.stage ∧ t.pkt.puntHandle = s.pkt.bundle.handle ∧
      t.pkt.puntWorld = s.pkt.bundle.owner ∧ vectorWrite s (.next { t with pkt := { t.pkt with
        puntStage := s.pkt.puntStage, puntHandle := s.pkt.puntHandle, puntWorld := s.pkt.puntWorld } })
        (both (bytesAt 74 2 im.toNat) (disposed s 3))) ∧
    exec (.aCount x w im) s =
      .next { s with pkt := { s.pkt with counts := s.pkt.counts ++ [(X / 2 ^ 8 % 2 ^ 7, X % 2 ^ 8, im.toNat)] } } ∧
    (let token := s.pkt.edge = false ∧ numberAt s.pkt.bytes 0 16 / 2 ^ 12 % 2 ^ 3 = 0 ∧ X0 / 2 ^ 34 % 2 = 1
     let m := numberAt data 0 2 % 2 ^ 12
     let ep := (byteOf data 2).toNat + 128 * numberAt data 3 2
     let port := (byteOf data 5).toNat
     let routed := fun (f : Nat → Option Byte) (p : Nat → Pipe) (o : Out) => ∃ t, o = .next t ∧ t.pkt.hv.length = 128 ∧
       t = { s with pkt := { s.pkt with hv := t.pkt.hv }, pipes := t.pipes } ∧ (∀ n, t.pipe n = p n) ∧
       (∀ j, 16 ≤ j → j < 128 → byteOf t.pkt.hv j = (f j).getD (byteOf hv j)) ∧
       let h := numberAt t.pkt.hv 0 16
       h % 2 ^ 12 = m ∧ h / 2 ^ 40 % 2 ^ 16 = ep % 2 ^ 16 ∧ h / 2 ^ 34 % 2 = 0 ∧ h / 2 ^ 12 % 2 ^ 22 = X0 / 2 ^ 12 % 2 ^ 22 ∧
         h / 2 ^ 35 % 2 ^ 5 = X0 / 2 ^ 35 % 2 ^ 5 ∧ h / 2 ^ 56 = X0 / 2 ^ 56
     (¬ token → exec .aRoute s = .next s) ∧
     (token → m = s.moduleId.toNat →
       routed (both (bytesAt 84 4 ep) (both (bytesAt 88 4 (X0 / 2 ^ 104)) (disposed s 1))) s.pipe (exec .aRoute s)) ∧
     (token → m ≠ s.moduleId.toNat → port < 36 → routed (both (bytesAt 72 1 port) (disposed s 0)) s.pipe (exec .aRoute s)) ∧
     (token → m ≠ s.moduleId.toNat → 36 ≤ port → routed (disposed s 2) (fun n => if n = s.pkt.port then
       { s.pipe n with unclaimed := satAdd (s.pipe n).unclaimed 1 } else s.pipe n) (exec .aRoute s))) ∧
    (let c := (s.pipe s.pkt.port).cfg s.pkt.stage 0
     let cell := s.itemRead s.pkt.port 3 s.pkt.stage 0 Y
     let sum := (numberAt cell 0 8 + X) % 2 ^ 64
     let array := fun (o per : Nat) => s.pkt.ready = true ∧ Y < per * (byteOf c o).toNat
     (¬ array 53 4096 → vectorWrite s (exec (.aRegadd x w y v q) s) (bytesAt x.toNat n 0)) ∧
     (array 53 4096 → ∃ t, exec (.aRegadd x w y v q) s = .next t ∧
       vectorWrite s (.next { s with pkt := t.pkt }) (bytesAt x.toNat n sum) ∧ onlyCell s t (byteOf c 52).toNat 4096 8 Y ∧
       numberAt (t.itemRead s.pkt.port 3 s.pkt.stage 0 Y) 0 8 = sum) ∧
     let meter := s.itemRead s.pkt.port 4 s.pkt.stage 0 Y
     let now := s.pkt.tick + 18 + 8 * s.pkt.stage
     let bucket := fun (rate cap held : Nat) =>
       Min.min (numberAt meter cap 4) (numberAt meter held 4 + (numberAt meter rate 4 * now / 1024 - numberAt meter rate 4 * numberAt meter 24 8 / 1024))
     let length := numberAt hv 66 2
     let colour := if bucket 4 12 20 < length then 2 else if bucket 0 8 16 < length then 1 else 0
     (¬ array 55 1024 → vectorWrite s (exec (.aMeter x w y v q) s) (bytesAt x.toNat n 2)) ∧
     (array 55 1024 → ∃ t, exec (.aMeter x w y v q) s = .next t ∧
       vectorWrite s (.next { s with pkt := t.pkt }) (bytesAt x.toNat n colour) ∧ onlyCell s t (byteOf c 54).toNat 1024 32 Y ∧
       let after := t.itemRead s.pkt.port 4 s.pkt.stage 0 Y
       (∀ i, i < 16 → byteOf after i = byteOf meter i) ∧ numberAt after 24 8 = now % 2 ^ 64 ∧
       numberAt after 16 4 = bucket 0 8 16 - (if colour = 0 then length else 0) ∧
       numberAt after 20 4 = bucket 4 12 20 - (if colour = 2 then 0 else length)))

/-- For every state: ROLLBACK gives every context that rolls back the registers of its duplicate set and stands it at its belay bundle
(one whose handler runs keeps its place), drops its held stores, and gives the core of such a context its duplicate state; CONTEXT_LAUNCH
takes one pending fire of the lowest trigger and launches its kernel, on this cycle, in the lowest free context, with a belay there, in
serial issue mode where the task asked for it; CONTEXT_RESUME gives a vacant core to a context, three cycles after the one before;
WITHHOLD_DRAIN of one released entry of sound words writes its bytes, the youngest of each place, and no others, to the bank;
ARRIVAL_COUNTER_UPDATE applies the due bumps, saturating, which free the operations that waited for theirs alone, then fires, and after
the bundles makes the due read and clear; BAR_RELEASE without an anvil record gives every waiting core this cycle as its base;
PITCH_COMPLETE moves a core to the boundary. -/
def Obligations.CoreEvents : Prop :=
  ∀ (s : State) (g k : Nat),
    let cl := s.cluster g
    let c := s.core g k
    let now := cl.run
    (∀ tr n, cl.trap = some tr → tr.rollbackAt = some n → ∃ t, exec (.rollback g) s = .next t ∧
      (t.cluster g).trap = some { tr with rollbackAt := none } ∧ (∀ j a, Memory.read (t.core g j).spad a = Memory.read (s.core g j).spad a) ∧
      (∀ j, let p := s.core g j
        let q := t.core g j
        let any := ∃ x, x < 4 ∧ (cl.trigger = true ∨ x = 0) ∧ (p.ctx x).status ≠ .never ∧ (p.ctx x).status ≠ .halted ∧ (p.ctx x).status ≠ .faulted
        (any → q.acc = p.dup.acc ∧ q.rings = p.dup.rings ∧ q.shapes = p.dup.shapes ∧ q.patterns = p.dup.patterns ∧ q.patSel = p.dup.patSel ∧
          q.ts = p.dup.ts) ∧
        (¬ any → q.acc = p.acc ∧ q.rings = p.rings ∧ q.shapes = p.shapes ∧ q.patterns = p.patterns ∧ q.patSel = p.patSel ∧ q.ts = p.ts)) ∧
      (∀ j x, let y := s.ctx g j x
        let z := t.ctx g j x
        let back := (cl.trigger = true ∨ x = 0) ∧ y.status ≠ .never ∧ y.status ≠ .halted ∧ y.status ≠ .faulted
        (¬ back → z = y) ∧
        (back → z.s = y.dup.s ∧ z.c = y.dup.c ∧ z.p = y.dup.p ∧ z.v = y.dup.v ∧ z.hvb = y.dup.hvb ∧ z.fst = y.dup.fst ∧ z.fmd = y.dup.fmd ∧
          z.tsr = y.tsr ∧ z.tcr = y.tcr ∧ z.tva = y.tva ∧ (x < 4 → ∀ e ∈ (t.core g j).wbuf, e.ctx = x → e.released = true) ∧
          (if tr.release = none ∧ tr.handlers.contains (j, x) = true then z.pc = y.pc ∧ z.status = y.status
           else z.pc = y.blp.toNat ∧ z.status = .ready ∧ z.base = ((tr.release.getD 0 : Nat) : Int) ∧ z.shadow = none)))) ∧
    (∀ i e x, cl.triggers.find? (fun p => p.2.core == k && decide (0 < p.2.pending)) = some (i, e) → x < 4 → cl.isFree k x now = true →
      (∀ y, y < x → cl.isFree k y now = false) → ∃ t, exec (.contextLaunch g k) s = .next t ∧
      let z := t.ctx g k x
      z.status = .ready ∧ z.pc = e.entry ∧ z.base = (now : Int) ∧ z.notBefore = now ∧
      z.tsr = (if s.tasks.any (fun q => q.serial && q.clusters.contains g) then 8 else 0) ∧ z.tcr = 0 ∧ z.tva = 0 ∧ z.fst = 0 ∧ z.hvb = e.hvb ∧
      z.ring = e.ring ∧ z.blp = BitVec.ofNat 32 e.entry ∧ z.s = (c.ctx x).s ∧ z.v = (c.ctx x).v ∧ z.dup.s = (c.ctx x).s ∧ sameMemory s t ∧
      ∀ j, tget {} (t.cluster g).triggers j = if j = i then { e with pending := e.pending - 1 } else tget {} cl.triggers j) ∧
    (∀ x n, c.choosing = some n → (c.ctx x).status = .ready ∨ ((c.ctx x).status = .blocked ∧ (c.ctx x).fresh = false) → ∃ t, exec (.contextResume g k x) s = .next t ∧
      (t.core g k).running = x ∧ (t.core g k).choosing = none ∧ (t.ctx g k x).status = .ready ∧ n + 3 ≤ (t.ctx g k x).notBefore ∧
      (t.ctx g k x).pc = (c.ctx x).pc ∧ ((c.ctx x).fresh = true → (t.ctx g k x).base = ((t.ctx g k x).notBefore : Int)) ∧ onlyControl s t) ∧
    (∀ e, c.wbuf = [e] → e.released = true → (∀ b ∈ c.sched, ¬ (b.due = now ∧ b.bank = e.line % 32)) →
      (∀ b ∈ e.bytes, b.off < 64) → (e.bytes.map fun b => (b.off, b.age)).Nodup → (∀ b ∈ e.bytes, c.wordPoisoned (8 * e.line + b.off / 8) = false) →
      ∃ t, exec (.withholdDrain g k) s = .next t ∧ (t.core g k).wbuf = [] ∧ (∀ a, (t.core g k).engineByte a = c.engineByte a) ∧
        (∀ b ∈ e.bytes, (∀ d ∈ e.bytes, d.off = b.off → d.age ≤ b.age) → Memory.read (t.core g k).spad (64 * e.line + b.off) = b.val) ∧
        (∀ a, (∀ b ∈ e.bytes, a ≠ 64 * e.line + b.off) → Memory.read (t.core g k).spad a = Memory.read c.spad a) ∧ sameRegisters s t) ∧
    ((∀ e ∈ c.wbuf, e.released = false) → ∃ t, exec (.withholdDrain g k) s = .next t ∧ (t.core g k).wbuf = c.wbuf ∧ (t.core g k).spad = c.spad) ∧
    (cl.counted < now →
      ((∀ i, (tget {} cl.triggers i).flags % 2 = 0) → ∃ t, exec (.arrivalCounterUpdate g) s = .next t ∧
        (t.cluster g).bumps = cl.bumps.filter (fun b => decide (now < b.due)) ∧ onlyControl s t ∧
        (∀ j x, (t.ctx g j x).untimed = (s.ctx g j x).untimed.filter fun u => !(u.phase == .bumpDue &&
          cl.bumps.any fun b => decide (b.due ≤ now) && (b.op.map (·.id)) == some u.id)) ∧
        ∀ n, (t.cluster g).counter n = Min.min (2 ^ 32 - 1)
          (cl.counter n + ((cl.bumps.filter (fun b => decide (b.due ≤ now) && b.counter == n)).map (·.amount)).sum)) ∧
      (∀ i, i < 64 → (∀ b ∈ cl.bumps, now < b.due) → (∀ j, j ≠ i → (tget {} cl.triggers j).flags % 2 = 0) →
        let e := tget {} cl.triggers i
        e.flags % 2 = 1 → e.threshold ≤ cl.counter e.counter → e.pending < 255 → ∃ t, exec (.arrivalCounterUpdate g) s = .next t ∧
        (∀ n, (t.cluster g).counter n = if n = e.counter then cl.counter n - e.threshold else cl.counter n) ∧
        ∀ j, tget {} (t.cluster g).triggers j =
          if j = i then { e with pending := e.pending + 1, flags := if e.flags / 2 % 2 = 1 then e.flags - 1 else e.flags } else tget {} cl.triggers j)) ∧
    (∀ r, cl.counted = now → cl.reads = [r] → r.due ≤ now → r.sel < 256 → ∃ t, exec (.arrivalCounterUpdate g) s = .next t ∧
      (t.cluster g).reads = [] ∧
      (t.ctx g r.core r.ctx).flight = (s.ctx g r.core r.ctx).flight ++
        [⟨now + 2, now - 1, r.pos, .s r.d, 0xFFFFFFFF, BitVec.ofNat 1024 (cl.counter r.sel), 0⟩] ∧
      ∀ n, (t.cluster g).counter n = if r.clear = true ∧ n = r.sel then 0 else cl.counter n) ∧
    ((∀ j, (s.core g j).afault = none) → ∃ t, exec (.barRelease g) s = .next t ∧ (t.cluster g).arrived = [] ∧ onlyControl s t ∧
      ∀ j x, if x = 0 ∧ (s.ctx g j 0).status = .atBar then (t.ctx g j 0).status = .ready ∧ (t.ctx g j 0).base = (now : Int) ∧
          (t.ctx g j 0).notBefore = now ∧ (t.ctx g j 0).pc = (s.ctx g j 0).pc
        else t.ctx g j x = s.ctx g j x) ∧
    ((c.ctx 0).status = .atPitch → ∃ t, exec (.pitchComplete g k) s = .next t ∧ (t.ctx g k 0).status = .atBoundary ∧ onlyControl s t ∧
      ∀ j x, ¬ (j = k ∧ x = 0) → t.ctx g j x = s.ctx g j x)

namespace Sys2Proof.Claims

/-- Line l of a core holds the bytes, tag, form and poison of x, with no buffered byte over it. -/
def lineIs (c : Core) (l : Nat) (x : Line) : Prop :=
  (∀ i, i < 64 → c.engineByte (64 * l + i) = x.data.extractLsb' (8 * i) 8 ∧ Memory.read c.spad (64 * l + i) = x.data.extractLsb' (8 * i) 8) ∧
  tget 0 c.tags l = x.tag ∧ tget false c.forms l = x.sealed ∧ ∀ i, i < 8 → c.wordPoisoned (8 * l + i) = x.poison.getLsbD i

/-- No byte of any core differs but those of core k of cluster g that `b` names, no tag, form or poison of a line without such a byte, no
byte of instruction memory, no register and no other state of the engines. -/
def onlyBytes (s t : State) (g k : Nat) (b : Nat → Prop) : Prop :=
  sameRegisters s t ∧ sameEngineState s t ∧
  ∀ h j,
    let own := h = g ∧ j = k
    (∀ a, Memory.read (t.core h j).imem a = Memory.read (s.core h j).imem a) ∧
    (∀ a, ¬ (own ∧ b a) → (t.core h j).engineByte a = (s.core h j).engineByte a) ∧
    ∀ l, ¬ (own ∧ ∃ i, i < 64 ∧ b (64 * l + i)) → (t.core h j).tag l = (s.core h j).tag l ∧ (t.core h j).form l = (s.core h j).form l ∧
      ∀ i, i < 8 → (t.core h j).wordPoisoned (8 * l + i) = (s.core h j).wordPoisoned (8 * l + i)

/-- The same for whole lines. -/
def onlyLines (s t : State) (g k : Nat) (l : Nat → Prop) : Prop := onlyBytes s t g k fun a => l (a / 64)

end Sys2Proof.Claims

/-- For every state with one command of the kind in the core: a CPY's last lines are written with data, tag, form and poison; an HGET's
last lines take the HBM lines its pages name and keep their tags, or poison and TAG 0xFFF where no page maps them; an HPUT or CPY.hbm has
moved its data before; the entry is freed and the segment's busy count, one lower, is the only other change. A send's line that wins its
bank is written whole, a loser marks its line TAG 0xFFF, and the sends that are over are freed; a pull's source read becomes a write 12
cycles on, with TAG 0xFFF and TAG_MISMATCH where the tags differ, and the write puts the line. SEAL writes IV, four zeros and the GCM tag
to its record; OPEN decides by the tag, then writes plaintext and status 0, or status 1 alone. Marks of memory errors apart, no byte, tag,
form or poison of another line of any core changes, no register and no other engine state. That OPEN judges its record on issue + 13 + m,
and that a failed one keeps its cycles, is the model's choice (log entry 24). -/
def Obligations.EngineCompletions : Prop :=
  ∀ (s : State) (g k e : Nat) (c : Core) (m : Cmd), s.core g k = c →
    let now := (s.cluster g).run
    let cl := s.cluster g
    (∀ x : Nat → Line, c.cmds = [m] → m.kind = .cpy → m.done = now → m.done = m.issued + 2 + (m.n + 255) / 256 → 64 ≤ m.n → m.n % 64 = 0 →
      let first := 4 * ((m.n + 255) / 256 - 1)
      (∀ i, first ≤ i → i < m.n / 64 → m.buf.find? (fun q => q.1 == i) = some (i, x i)) →
      ∃ t, exec (.localCopyComplete g k) s = .next t ∧ t.hbm = s.hbm ∧ (t.core g k).cmds = [] ∧
        (∀ i, first ≤ i → i < m.n / 64 → lineIs (t.core g k) (m.dst / 64 + i) (x i)) ∧
        onlyLines s t g k (fun l => m.dst / 64 + first ≤ l ∧ l < m.dst / 64 + m.n / 64)) ∧
    (s.clusters = [(g, cl)] → cl.cores = [(k, c)] → c.cmds = [m] → m.engine = e → m.done = now → m.late = false → m.failed = false →
      (m.kind = .hget → 0 < m.n → m.done = m.issued + m.w + (m.n + 1) / 2 →
        let first := 2 * ((m.n + 1) / 2 - 1)
        ∃ t, exec (.copyEngineComplete g e) s = .next t ∧ (t.core g k).cmds = [] ∧
        (∀ i, first ≤ i → i < m.n →
          (∀ l, m.lineAt false (m.src + 64 * i) = some (l, false) → lineIs (t.core g k) (m.dst / 64 + i)
            { data := BitVec.ofNat 512 (leNat (Memory.readN m.view.cells (64 * l) 64)), tag := c.tag (m.dst / 64 + i), sealed := false
              poison := (tget {} m.view.lines l).poison }) ∧
          (m.lineAt false (m.src + 64 * i) = none → lineIs (t.core g k) (m.dst / 64 + i) { data := 0, tag := 0xFFF, sealed := false, poison := 0xFF })) ∧
        onlyLines s t g k (fun l => m.dst / 64 + first ≤ l ∧ l < m.dst / 64 + m.n) ∧
        ∀ q, Memory.read t.hbm.cells q = busyAt s m.world m.seg ((s.segment m.world m.seg).busy - 1) q) ∧
      ((m.kind = .hput ∧ m.issued + (m.n + 1) / 2 < now) ∨ m.kind = .cpyHbm → ∃ t, exec (.copyEngineComplete g e) s = .next t ∧
        (t.core g k).cmds = [] ∧ onlyLines s t g k (fun _ => False) ∧
        ∀ q, Memory.read t.hbm.cells q = busyAt s m.world m.seg ((s.segment m.world m.seg).busy - 1) q)) ∧
    (∀ a x, a.kind = .send → a.core = k → a.due = now → a.done = false → a.data = some x → a.fail = none →
      (cl.side = [a] → ∃ t, exec (.xsndDelivery g k) s = .next t ∧ t.hbm = s.hbm ∧ lineIs (t.core g k) a.line x ∧ onlyLines s t g k (fun l => l = a.line) ∧
        (t.cluster g).side = [{ a with done := true }] ∧
        ∀ j, (t.core g j).cmds = (s.core g j).cmds.filter (fun d => !(d.kind == .xsnd && d.other == k && decide (d.done ≤ now)))) ∧
      (∀ b y, cl.side = [a, b] → b.kind = .send → b.core = k → b.due = now → b.done = false → b.data = some y → b.line % 32 = a.line % 32 →
        b.line ≠ a.line → a.issued < b.issued ∨ (a.issued = b.issued ∧ a.source < b.source) →
        ∃ t, exec (.xsndDelivery g k) s = .next t ∧ lineIs (t.core g k) a.line x ∧ tget 0 (t.core g k).tags b.line = 0xFFF ∧
          (∀ i, i < 64 → (t.core g k).engineByte (64 * b.line + i) = c.engineByte (64 * b.line + i)) ∧
          onlyLines s t g k (fun l => l = a.line ∨ l = b.line))) ∧
    (∀ a, cl.side = [a] → a.source = k → a.due = now → a.done = false →
      (∀ x, a.kind = .pullRead → a.core ≠ k → x = (s.core g a.core).bankLine a.line →
        ∃ t w, exec (.xrcvComplete g k) s = .next t ∧ t.hbm = s.hbm ∧ (t.cluster g).side = [{ a with done := true }, w] ∧ w.kind = .pull ∧ w.due = now + 12 ∧
          w.core = k ∧ w.line = a.dst ∧ w.source = k ∧ w.done = false ∧ onlyLines s t g k (fun _ => False) ∧
          (x.tag = a.tag → x.tag ≠ 0xFFF → w.fail = none ∧ ∃ y, w.data = some y ∧ y.data = x.data ∧ y.tag = x.tag ∧ y.sealed = x.sealed) ∧
          (x.tag = 0xFFF → w.fail = some codeScheduleFault) ∧
          (x.tag ≠ a.tag → x.tag ≠ 0xFFF → w.fail = some codeTagMismatch ∧ ∃ y, w.data = some y ∧ y.data = x.data ∧ y.tag = 0xFFF)) ∧
      (∀ x, a.kind = .pull → a.core = k → a.data = some x → a.fail = none → ∃ t, exec (.xrcvComplete g k) s = .next t ∧
        t.hbm = s.hbm ∧ lineIs (t.core g k) a.line x ∧ onlyLines s t g k (fun l => l = a.line) ∧
        (t.core g k).cmds = c.cmds.filter (fun d => !(d.kind == .xrcv && decide (d.done ≤ now))))) ∧
    (c.cmds = [m] → m.kind = .sealOp → m.done ≤ now → m.other % 32 = 0 → m.iv.length = 12 → ∃ t, exec (.sealComplete g k) s = .next t ∧
      t.hbm = s.hbm ∧ (t.core g k).cmds = [] ∧ (∀ i, i < 32 → (t.core g k).engineByte (m.other + i) =
        (m.iv ++ ([0, 0, 0, 0] : List Byte) ++ gcmTag (s.sealKey m.world) m.iv (sealAad m.world m.n) (m.buf.flatMap (fun (q : Nat × Line) => q.2.bytes))).getD i 0) ∧
      onlyBytes s t g k (fun a => m.other ≤ a ∧ a < m.other + 32)) ∧
    (c.cmds = [m] → m.kind = .openOp → m.done = m.issued + 14 + 2 * m.n → m.other % 32 = 0 → 0 < m.n →
      let record := c.engineBytes m.other 32
      let good := gcmTag (s.sealKey m.world) (record.take 12) (sealAad m.world m.n) (m.buf.flatMap (fun (q : Nat × Line) => q.2.bytes)) = record.drop 16 ∧
        (∀ q ∈ m.buf, q.2.poison = 0) ∧ ∀ i, i < 4 → c.wordPoisoned (m.other / 8 + i) = false
      (now = m.issued + 13 + m.n → ∃ t m', exec (.openComplete g k) s = .next t ∧ (t.core g k).cmds = [m'] ∧ m'.done = m.done ∧ m'.dst = m.dst ∧
        (m'.failed = true ↔ ¬ good) ∧ onlyLines s t g k (fun _ => False)) ∧
      (∀ i x, now = m.issued + 14 + m.n + i → i < m.n → m.failed = false → m.buf.find? (fun q => q.1 == i) = some (i, x) →
        ∃ t, exec (.openComplete g k) s = .next t ∧ lineIs (t.core g k) (m.dst / 64 + i) { x with tag := c.tag (m.dst / 64 + i) } ∧
          onlyLines s t g k (fun l => l = m.dst / 64 + i)) ∧
      (c.wordPoisoned (m.other / 8 + 1) = false →
        (now = m.done → m.failed = false → m.buf.find? (fun q => q.1 == m.n) = none → ∃ t, exec (.openComplete g k) s = .next t ∧
          (t.core g k).cmds = [] ∧ (t.core g k).engineByte (m.other + 12) = 0 ∧ t.hbm = s.hbm ∧
          onlyBytes s t g k (fun a => a = m.other + 12)) ∧
        (now = m.issued + 14 + m.n → m.failed = true → ∃ t, exec (.openComplete g k) s = .next t ∧
          (t.core g k).engineByte (m.other + 12) = 1 ∧ t.hbm = s.hbm ∧ onlyBytes s t g k (fun a => a = m.other + 12))))

namespace Sys2Proof.Claims

/-- The operation u of context x is the one untimed operation of core k of cluster g, and none of the core's is parked. -/
def onlyOp (s : State) (g k x : Nat) (u : Untimed) : Prop :=
  s.parks = [] ∧ g < 96 ∧ k < 48 ∧ x < 4 ∧ (s.ctx g k x).untimed = [u] ∧ ∀ y, y ≠ x → (s.ctx g k y).untimed = []

/-- No register, no byte of a scratchpad, of instruction memory or of HBM and no engine state differs. -/
def quietly (s t : State) : Prop := sameRegisters s t ∧ sameMemory s t ∧ sameEngineState s t

/-- n bytes of core k's bank from a, as a little-endian number. -/
def bankNumber (s : State) (g k a n : Nat) : Nat := leNat (Memory.readN (s.core g k).spad a n)

/-- The answer writes the bytes at a of core k and changes no other byte of it and no register. -/
def writesBytes (s t : State) (g k a : Nat) (bs : List Byte) : Prop :=
  sameRegisters s t ∧ (∀ i, i < bs.length → (t.core g k).engineByte (a + i) = bs.getD i 0) ∧
  ∀ b, b < a ∨ a + bs.length ≤ b → (t.core g k).engineByte b = (s.core g k).engineByte b

/-- A ring of slots of `size` bytes at b that an untimed access meets as it stands: not fenced, valid, its control line's words sound. -/
def ringAt (s : State) (g k b size : Nat) : Prop :=
  (s.cluster g).fenced = false ∧ b ≠ 0 ∧ k < 48 ∧ (s.core g k).ringValid b (bankNumber s g k (b + 8) 4) size = true ∧
  ∀ i, i < 2 → (s.core g k).err (b / 8 + i) = .sound

/-- TAIL less HEAD, modulo 2^32, is below the ring's slots. -/
def ringRoom (s : State) (g k b : Nat) : Prop :=
  (bankNumber s g k b 4 + 2 ^ 32 - bankNumber s g k (b + 4) 4) % 2 ^ 32 < bankNumber s g k (b + 8) 4

end Sys2Proof.Claims

/-- For every state whose core has one untimed operation: a table write departs to its pipeline; a store, load, atomic or flush whose
bytes are read and whose packet has room leaves as one packet of at most 8,192 bytes, or completes with PEER_DOWN over a link that is
down; a completed operation raises its bump, then queues its cairn, or waits for the bump, or frees its entry, which is all it does where
its world is no longer ACTIVE; an answer overdue by 2^20 ticks completes with PEER_DOWN. The first cairn of a valid ring with room writes
its record at slot TAIL, then TAIL + 1 and its interrupt; with no room it counts one STALL and waits; a ring at 0 discards it, an invalid
one is counted. An imported request that fails its checks is answered and writes nothing; one that passes reads its window whole; world
0's write of an import-table entry sets its fields and nothing else. That a departure over an untrained port gives PEER_DOWN (log entry
27), and that the write of the import table is an operand of IMPORT_REQUEST (log entry 49), are the model's choices. -/
def Obligations.UntimedEvents : Prop :=
  (∀ (s : State) (g k x : Nat) (u : Untimed), onlyOp s g k x u →
    let r : OpRef := ⟨48 * g + k, x, u.id⟩
    let w := u.world
    (u.phase = .queued → u.kind = 6 → u.length ≤ u.data.length → u.handle % 64 < 36 → ∃ t, exec (.fabricDepart g k) s = .next t ∧ quietly s t ∧
      (t.pipe (u.handle % 64)).writes = (s.pipe (u.handle % 64)).writes ++ [⟨u.handle, u.index, u.data, w, r⟩] ∧
      (t.ctx g k x).untimed = [{ u with phase := .departed }]) ∧
    (u.phase = .queued → 1 ≤ u.kind → u.kind ≤ 4 → u.module ≠ s.moduleId.toNat →
      let p := routePort u.module
      let n := Min.min 8192 (u.length - u.gone)
      s.canDepart u = true →
      ((s.port p).trained = true → (s.port p).edge = false → ∃ t k', exec (.fabricDepart g k) s = .next t ∧ quietly s t ∧
        (t.port p).egress = (s.port p).egress ++ [k'] ∧ k'.bytes = s.packetOf u ∧ k'.cls = routeClass u.module ∧ k'.world = w ∧
        (u.module < 4096 → hdrDmod k'.bytes = u.module ∧ hdrType k'.bytes = [2, 1, 3, 4].getD (u.kind - 1) 0 ∧ hdrWorld k'.bytes = w % 32) ∧
        (u.kind ≤ 2 → u.offset + u.gone < 2 ^ 40 → hdrLen k'.bytes = n ∧ hdrOffset k'.bytes = u.offset + u.gone) ∧
        (u.kind = 1 → k'.bytes.drop 16 = (u.data.drop u.gone).take n) ∧
        (t.ctx g k x).untimed = [{ u with gone := u.gone + n, awaiting := u.awaiting + (if u.kind = 1 then 0 else 1), departTick := s.tick.toNat
                                          phase := if u.length ≤ u.gone + n ∨ 3 ≤ u.kind then .departed else .queued }]) ∧
      ((s.port p).trained = false → ∃ t, exec (.fabricDepart g k) s = .next t ∧ quietly s t ∧ (t.port p).egress = (s.port p).egress ∧
        (t.ctx g k x).untimed = [{ u with phase := .completed, status := codePeerDown, moved := 0, doneTick := s.tick.toNat, refused := true }])) ∧
    (u.phase = .queued → u.kind ≠ 7 → s.canDepart u = false → exec (.fabricDepart g k) s = .next s) ∧
    (u.phase = .completed → (s.world w).state ≠ 1 → ∃ t, exec (.untimedComplete g k x) s = .next t ∧ quietly s t ∧
      (t.cluster g).bumps = (s.cluster g).bumps ∧ t.cairns = s.cairns ∧ (t.ctx g k x).untimed = []) ∧
    (u.phase = .completed → (s.world w).state = 1 → ∃ t, exec (.untimedComplete g k x) s = .next t ∧ quietly s t ∧
      (t.cluster g).bumps = (s.cluster g).bumps ++ (if u.bump = true then [⟨(s.cluster g).run + 1, u.counter, 1, none, some r⟩] else []) ∧
      (u.cairn = false → u.refused = false → t.cairns = s.cairns ∧
        (t.ctx g k x).untimed = if u.bump = true then [{ u with phase := .bumpDue }] else []) ∧
      (u.cairn = true ∨ u.refused = true → (t.ctx g k x).untimed = [{ u with phase := .cairnDue }] ∧ ∃ q, t.cairns = s.cairns ++ [q] ∧
        q.core = 48 * g + k ∧ q.base = (s.ctx g k x).ring ∧ q.status = u.status ∧ q.kind = u.kind ∧ q.world = w ∧ q.source = g ∧
        q.count = u.moved ∧ q.stamp = u.doneTick ∧ q.op = some r)) ∧
    (2 ≤ u.kind → u.kind ≤ 4 → u.phase = .departed → 0 < u.awaiting → u.departTick + 2 ^ 20 ≤ s.tick.toNat →
      ∃ t, exec (.responseTimeout g k x) s = .next t ∧ quietly s t ∧
        (t.ctx g k x).untimed = [{ u with phase := .completed, status := codePeerDown, doneTick := s.tick.toNat, awaiting := 0 }])) ∧
  (∀ (s : State) (g k b : Nat) (q : CairnReq), s.cairns = [q] → q.core = 48 * g + k → k < 48 → q.base = b → q.op = none →
    (b = 0 ∨ (s.cluster g).fenced = true → ∃ t, exec (.cairnWrite (48 * g + k) b) s = .next t ∧ quietly s t ∧ t.cairns = []) ∧
    (b ≠ 0 → (s.cluster g).fenced = false → (∀ i, i < 2 → (s.core g k).err (b / 8 + i) = .sound) →
      (s.core g k).ringValid b (bankNumber s g k (b + 8) 4) 32 = false → ∃ t, exec (.cairnWrite (48 * g + k) b) s = .next t ∧ quietly s t ∧
        t.cairns = [] ∧ (t.cluster g).cairnErrors = satAdd (s.cluster g).cairnErrors 1) ∧
    (ringAt s g k b 32 →
      let tail := bankNumber s g k b 4
      let slots := bankNumber s g k (b + 8) 4
      (q.wrote = none → ringRoom s g k b → ∃ t, exec (.cairnWrite (48 * g + k) b) s = .next t ∧
        writesBytes s t g k (b + 64 + 32 * (tail % slots)) (s.record q tail) ∧ t.cairns = [{ q with wrote := some s.now }] ∧
        (q.stalled = true → exec (.cairnRetry (48 * g + k) b) s = .next t)) ∧
      (q.wrote = none → ¬ ringRoom s g k b → ∃ t, exec (.cairnWrite (48 * g + k) b) s = .next t ∧
        t.cairns = [{ q with stalled := true }] ∧ (t.core g k).headWritten b = false ∧
        (q.stalled = false → writesBytes s t g k (b + 12) (leBytes 4 (bankNumber s g k (b + 12) 4 + 1))) ∧
        (q.stalled = true → writesBytes s t g k b [])) ∧
      (∀ c, q.wrote = some c → ∃ t, exec (.cairnWrite (48 * g + k) b) s = .next t ∧ writesBytes s t g k b (leBytes 4 (tail + 1)) ∧ t.cairns = [] ∧
        (q.irq = none → t.irqs = s.irqs) ∧
        ∀ fn v, q.irq = some (fn, v) → (s.world fn).state = 1 → (s.func fn).masked.getLsbD v = false → (s.func fn).allMasked = false → t.irqs = s.irqs ++ [(fn, v)]))) ∧
  (∀ (s : State) (q : CairnReq), (s.record q 5).length = 32 ∧ field (s.record q 5) 0 2 = q.status % 2 ^ 16 ∧ field (s.record q 5) 28 4 = 5) ∧
  (∀ (s : State) (p : Nat) (m : Packet) (rest : List Packet), (s.port p).imports = m :: rest → m.held = false →
    let q := requestOf m
    let e := s.importEntry q.entry
    let st := s.ingressStatus m
    (q.type = 2 ∨ s.fabricRoom q.src (16 + q.n) = true → st ≠ codeDone → ∃ t, exec (.importRequest (.serve p)) s = .next t ∧ quietly s t ∧
      (t.port p).imports = rest ∧
      (st = codeImportInvalid → (t.port p).importErrors = satAdd (s.port p).importErrors 1) ∧
      (st ≠ codeImportInvalid → (t.importEntry q.entry).refusals = satAdd e.refusals 1)) ∧
    (∀ ms data, st = codeDone → q.type = 1 → q.src < 4096 → q.src ≠ s.moduleId.toNat → s.fabricRoom q.src (16 + q.n) = true →
      (s.segment e.exporter e.segment).busy < 65535 → (s.segment e.exporter e.segment).state = 1 →
      s.untimedPages e.exporter e.segment (e.base + hdrOffset m.bytes) q.n false = .ok ms →
      s.readSeg e.exporter ms (e.base + hdrOffset m.bytes) q.n = (data, false) → routePort q.src ≠ p →
      ∃ t k, exec (.importRequest (.serve p)) s = .next t ∧ quietly s t ∧ (t.port p).imports = rest ∧
        (t.port (routePort q.src)).egress = (s.port (routePort q.src)).egress ++ [k] ∧ k.bytes.drop 16 = data ∧
        hdrType k.bytes = 5 ∧ hdrKey k.bytes = q.id % 2 ^ 32 ∧ hdrDmod k.bytes = q.src ∧ hdrOffset k.bytes % 2 ^ 16 = codeDone)) ∧
  (∀ (s : State) (i : Nat) (b : List Byte),
    (8192 ≤ i → exec (.importRequest (.write i b)) s = .next s) ∧
    (i < 8192 → ∃ t, exec (.importRequest (.write i b)) s = .next t ∧ t = { s with imports := t.imports } ∧
      (∀ j, j ≠ i → t.importEntry j = s.importEntry j) ∧
      t.importEntry i = { flags := field b 0 1 % 2 ^ 5, exporter := field b 1 1, importer := field b 2 1
                          source := field b 4 2 % 2 ^ 12 + field b 4 2 / 2 ^ 15 * 2 ^ 15, segment := field b 6 2 % 2 ^ 12, key := field b 8 4
                          base := field b 12 8 % 2 ^ 40, length := field b 20 8, refusals := (s.importEntry i).refusals }))

/-- For every state: a packet of a legal length that arrives on a trained port joins its ingress, an edge frame without its frame check
sequence; one of another length, or with a bad check sequence, is dropped and counted, and on a port that is down nothing happens; a
packet whose stage is due does its lookups, all from its vector, or is taken in hand for its actions; else a packet enters the free parser
with its bytes and world; a dropped packet's disposition moves nothing; with none due, the state is the same. A line of an absorb is
written at its address and nowhere else, its last one bumps the landing's counter; a lent or sealed line stays unwritten and punts once,
reason 0x3F3; an absorb that waited 1,024 ticks is punted, reason 0x3F4. A punt writes 512 bytes at its slot, then TAIL + 1 and the
world's bump, or is dropped and counted. A table write that passes its checks replaces its item, in a lent bank those bytes alone; one of
the bank directory clears the banks it lends and returns; a refused one changes no item. The model's choices, behind the checks that they
name: what a table item may hold (log entry 33), an absorbing packet's wait for a full absorb buffer (76), what a lookup does before the
pipeline is ready (61). -/
def Obligations.PipelineEvents : Prop :=
  (∀ (s : State) (p : Nat) (b : List Byte), p < 36 →
    let x := s.port p
    let n := b.length
    (x.trained = false → exec (.packetIngress p (some b)) s = .next s) ∧
    (x.trained = true →
      (x.edge = false → 16 ≤ n → n ≤ 9216 → exec (.packetIngress p (some b)) s =
        .next (s.modPort p fun y => { y with ingress := y.ingress ++ [{ bytes := b }] })) ∧
      (x.edge = true → 64 ≤ n → n ≤ 9216 → field b (n - 4) 4 = crc32 (b.take (n - 4)) → x.ingress = [] → exec (.packetIngress p (some b)) s =
        .next (s.modPort p fun y => { y with ingress := y.ingress ++ [{ bytes := b.take (n - 4) }] })) ∧
      ((x.edge = false ∧ (n < 16 ∨ 9216 < n)) ∨ (x.edge = true ∧ (n < 64 ∨ 9216 < n ∨ field b (n - 4) 4 ≠ crc32 (b.take (n - 4)))) → exec (.packetIngress p (some b)) s =
        .next (s.modPort p fun y => { y with drops := satAdd y.drops 1 })))) ∧
  (∀ (s : State) (p : Nat), p < 36 →
    (∀ q, s.stageDue p = some q → q.port = p →
      (q.looked ≤ q.stage → ∃ t, exec (.packetIngress p none) s = .next t ∧ quietly s t ∧ t.pkt = s.pkt ∧
        let r := if q.stage = 0 then { q with bundles := (s.pipe p).bundles } else q
        (t.pipe p).staged = (s.pipe p).staged.map fun y =>
          if y.tick = q.tick then { r with looked := q.stage + 1, todo := (List.range 4).filterMap (s.bundleAt r) } else y) ∧
      (q.stage < q.looked → exec (.packetIngress p none) s = .next { s with pkt := { q with active := true } })) ∧
    (s.stageDue p = none → s.nextDisp p = none → s.parserFree p = false ∨ s.nextPacket p = none → exec (.packetIngress p none) s = .next s) ∧
    (∀ d, s.stageDue p = none → s.nextDisp p = some d → d.bit 2 = true → d.counts = [] → ∃ t, exec (.packetIngress p none) s = .next t ∧ quietly s t ∧
      (t.pipe p).flight = dropDisp d (s.pipe p).flight ∧ (∀ i, (t.port i).egress = (s.port i).egress) ∧ (t.pipe p).punts = (s.pipe p).punts) ∧
    (∀ k, s.stageDue p = none → s.nextDisp p = none → s.parserFree p = true → s.nextPacket p = some (k, true) → ∃ t, exec (.packetIngress p none) s = .next t ∧
      quietly s t ∧ (t.pipe p).lastEntry = some s.tick.toNat ∧ (t.port p).ingress = dropPacket k (s.port p).ingress ∧
      ((s.port p).edge = false → 16 ≤ k.bytes.length → k.bytes.length ≤ 9216 → ∃ q, (t.pipe p).staged = (s.pipe p).staged ++ [q] ∧
        q.port = p ∧ q.bytes = k.bytes ∧ q.world = hdrWorld k.bytes ∧ q.cls = k.cls ∧ q.tick = s.tick.toNat ∧ q.stage = 0 ∧ q.looked = 0 ∧
        q.ready = (s.pipe p).ready))) ∧
  (∀ (s : State) (g k b : Nat) (q : AbsorbLine) (rest : List AbsorbLine) (a : Absorb), s.queueOf g k b = q :: rest → (s.cluster g).fenced = false →
    (s.pipe q.pipe).absorbs = [a] → a.id = q.absorb → a.op = none → a.faulted = false → a.counts = [] →
    q.addr % 64 + q.bytes.length ≤ 64 → 0 < q.bytes.length →
    let l := q.addr / 64
    let sound := ∀ i, i < 8 → (s.core g k).err (8 * l + i) = .sound
    let shut := tget 0 (s.core g k).lent (l % 32) ≠ 0 ∨ tget false (s.core g k).forms l = true
    (¬ shut → sound → ∃ t, exec (.absorbLineWrite g k b) s = .next t ∧ writesBytes s t g k q.addr q.bytes ∧ t.queueOf g k b = rest ∧
      (a.queued = 1 ∧ a.handed = a.bytes.length → (t.pipe q.pipe).absorbs = [] ∧ (∀ h, a.landing = some h → (s.cluster a.cluster).fenced = false →
        (t.cluster a.cluster).bumps = (s.cluster a.cluster).bumps ++ [⟨(s.cluster a.cluster).run + 1, h % 256, 1, none, none⟩])) ∧
      (1 < a.queued → (t.pipe q.pipe).absorbs = [{ a with queued := a.queued - 1 }])) ∧
    (shut → (s.pipe q.pipe).punts.length < 64 → 1 < a.queued → ∃ t u, exec (.absorbLineWrite g k b) s = .next t ∧ quietly s t ∧
      t.queueOf g k b = rest ∧ (t.pipe q.pipe).absorbs = [{ a with queued := a.queued - 1, faulted := true }] ∧
      (t.pipe q.pipe).punts = (s.pipe q.pipe).punts ++ [u] ∧ field u.header 0 2 = 0x3F3 ∧ u.bytes = a.packet.take 480 ∧ u.world = a.world)) ∧
  (∀ (s : State) (p : Nat) (a : Absorb), (s.pipe p).absorbs = [a] → a.op = none → a.counts = [] → a.handed < a.bytes.length →
    (a.waiting + 1024 ≤ s.tick.toNat → (s.pipe p).punts.length < 64 → ∃ t u, exec (.absorbAbandon p) s = .next t ∧ quietly s t ∧
      (t.pipe p).absorbs = [] ∧ (t.pipe p).punts = (s.pipe p).punts ++ [u] ∧ field u.header 0 2 = 0x3F4 ∧ u.bytes = a.packet.take 480 ∧
      ∀ g, (t.cluster g).bumps = (s.cluster g).bumps) ∧
    (s.tick.toNat < a.waiting + 1024 → exec (.absorbAbandon p) s = .next s)) ∧
  (∀ (s : State) (p : Nat) (q : Punt) (rest : List Punt), (s.pipe p).punts = q :: rest →
    let w := s.world q.world
    let g := w.puntCore / 48
    let k := w.puntCore % 48
    let b := w.puntBase
    (b = 0 ∨ w.state ≠ 1 → ∃ t, exec (.puntDelivery p) s = .next t ∧ quietly s t ∧ (t.pipe p).punts = rest ∧
      (t.pipe p).puntDrops = satAdd (s.pipe p).puntDrops 1) ∧
    (w.state = 1 → ringAt s g k b 512 →
      let tail := bankNumber s g k b 4
      (q.wrote = none → ringRoom s g k b → ∃ t, exec (.puntDelivery p) s = .next t ∧
        writesBytes s t g k (b + 64 + 512 * (tail % bankNumber s g k (b + 8) 4)) (padTo 512 (q.header ++ q.bytes.take 480)) ∧
        (t.pipe p).punts = { q with wrote := some s.now } :: rest) ∧
      (q.wrote = none → ¬ ringRoom s g k b → ∃ t, exec (.puntDelivery p) s = .next t ∧ quietly s t ∧ (t.pipe p).punts = q :: rest) ∧
      (∀ c, q.wrote = some c → ∃ t, exec (.puntDelivery p) s = .next t ∧ writesBytes s t g k b (leBytes 4 (tail + 1)) ∧
        (t.pipe p).punts = rest ∧ (t.cluster g).bumps = (s.cluster g).bumps ++ [⟨(s.cluster g).run + 1, w.puntCounter, 1, none, none⟩]))) ∧
  (∀ (s : State) (p g k x : Nat) (q : TableWrite) (rest : List TableWrite) (u : Untimed), (s.pipe p).writes = q :: rest → hPort q.handle = p →
    onlyOp s g k x u → q.op = ⟨48 * g + k, x, u.id⟩ →
    let kind := hKind q.handle
    let item := fun (r : State) => r.itemRead p kind (hStage q.handle) (hPos q.handle) q.index
    let done := fun (t : State) => item t = q.data ∧ (t.pipe p).writes = rest ∧
      (t.ctx g k x).untimed = [{ u with phase := .completed, status := codeDone, moved := q.data.length, doneTick := s.tick.toNat }]
    let place := itemPlace kind q.index ((s.pipe p).cfg (hStage q.handle) (if kind = 0 then hPos q.handle else 0))
    let at0 := (s.pipe p).dir place.1
    let old := (s.pipe p).dir q.index
    let new := field q.data 0 4
    let ofBank := fun (d h j l : Nat) => h = dirCore d / 48 ∧ j = dirCore d % 48 ∧ ∃ r, r < 512 ∧ l = 32 * r + dirBank d
    let cleared := fun (t : State) (d mark : Nat) => (∀ h j l, ofBank d h j l → lineIs (t.core h j) l {}) ∧
      tget 0 (t.core (dirCore d / 48) (dirCore d % 48)).lent (dirBank d) = mark
    (s.writeStatus q = codeDone → kind = 0 ∨ kind = 3 ∨ kind = 4 → ∃ t, exec (.tableWriteApply p) s = .next t ∧ done t ∧ t.hbm = s.hbm ∧
      onlyBytes s t (dirCore at0 / 48) (dirCore at0 % 48) fun a => ∃ i, i < q.data.length ∧ a = bankAddr (dirBank at0) (place.2 + i)) ∧
    (s.writeStatus q = codeDone → kind = 8 → ∃ t, exec (.tableWriteApply p) s = .next t ∧ done t ∧ t.hbm = s.hbm ∧ sameRegisters s t ∧
      (∀ h j a, old = new ∨ (¬ ofBank old h j (a / 64) ∧ ¬ ofBank new h j (a / 64)) → (t.core h j).engineByte a = (s.core h j).engineByte a) ∧
      (old ≠ new → dirValid new = true → cleared t new (p + 1)) ∧
      (old ≠ new → dirValid old = true → ¬ (dirValid new = true ∧ dirCore old = dirCore new ∧ dirBank old = dirBank new) → cleared t old 0)) ∧
    (s.writeStatus q = codeDone → kind = 1 ∨ kind = 2 ∨ kind = 5 ∨ kind = 6 ∨ kind = 7 → ∃ t, exec (.tableWriteApply p) s = .next t ∧ quietly s t ∧ done t) ∧
    (s.writeStatus q ≠ codeDone → ∃ t, exec (.tableWriteApply p) s = .next t ∧ quietly s t ∧ item t = item s ∧ (t.pipe p).writes = rest ∧
      (t.ctx g k x).untimed = [{ u with phase := .completed, status := s.writeStatus q, moved := 0, doneTick := s.tick.toNat, refused := true }]))

namespace Sys2Proof.Claims

/-- The one frame that the answer sends on a port: its kind and its bytes without the CRC, which is that of R347 over the seed of this tick. -/
def sends (s t : State) (p kind : Nat) (flit : List Byte) : Prop :=
  let x := s.port p
  let seed := leBytes 2 s.moduleId.toNat ++ leBytes 1 p ++ [0] ++ leBytes 2 x.peer ++ leBytes 1 x.peerPort ++ [0] ++ leBytes 8 s.tick.toNat
  t.sent = s.sent ++ [(p, kind, flit ++ leBytes 4 (crc32c (seed ++ leBytes 1 kind ++ padTo 128 flit)))]

/-- The port's acknowledgement: the number of the last accepted flit, its NAK bit, and the credits it returns, in the header of a frame. -/
def headerOf (s : State) (p seq cls : Nat) (sop eop : Bool) : List Byte :=
  let x := s.port p
  let bit := fun (b : Bool) => if b then 1 else 0
  let c := fun (i : Nat) => Min.min 255 (tget 0 x.owed i)
  linkHeader seq (x.expected + 4095) (bit x.nakDue) cls (bit sop) (bit eop) (c 0) (c 1) (c 2) (c 3)

end Sys2Proof.Claims

/-- For every state and port: a free tick of a Burcon port sends one frame with the CRC of R347 (SYNC IDLE in a reserved tick that no
record fills): a held flit again, else a new packet's flit, with the next sequence number and one credit less, held until acknowledged,
else an IDLE; an edge port sends its packet with its check sequence, 160 bytes a tick or 80. An IDLE that passes adds its credits and
frees the flits it acknowledges; one that fails changes nothing. A packet flit in order joins its packet, else the port asks once for a
replay; a scheduled flit waits in the landing buffer or leaves a failed landing. 4,096 silent ticks replay the held flits, the 33rd time
the link goes down. Training fixes the delay, which a later one keeps or leaves for packets only, or clears a link that is down, and says
so only where BPORTS or the peer table changes. No register and no byte of memory changes; a port of 36 on stops. The model's choices: the
calibration frame (log entry 66), a first training beyond 1,023 ticks (67), the peer entries that LINK_TRAIN brings (49), and an edge port
by its peer number with its form, its rate and its pace (35). -/
def Obligations.LinkEvents : Prop :=
  ∀ (s : State) (p : Nat) (fr : Frame) (ln : LinkInfo),
    let x := s.port p
    let tk := s.tick.toNat
    (36 ≤ p → exec (.frameIdle p fr) s = .fault .noSuchInput ∧ exec (.framePacket p fr) s = .fault .noSuchInput ∧
      exec (.frameScheduled p fr) s = .fault .noSuchInput ∧ exec (.frameCalibration p fr) s = .fault .noSuchInput ∧
      exec (.linkTrain p ln) s = .fault .noSuchInput) ∧
    (s.egressDue p = false → exec (.packetEgress p) s = .next s) ∧
    (∀ d, s.egressDue p = true → x.edge = false → s.unfilled p tk = some d → ∃ t f, exec (.packetEgress p) s = .next t ∧ quietly s t ∧
      sends s t p 3 f ∧ field f 0 1 = 0 ∧ field f 2 2 = 0 ∧ field f 4 4 = (d.pcn + 1).toNat ∧ field f 8 8 = 0 ∧ field f 24 32 = d.digest.toNat ∧
      (t.port p).egress = x.egress ∧ (t.port p).resend = x.resend ∧ (t.port p).retry = x.retry) ∧
    (s.egressDue p = true → x.edge = false → s.unfilled p tk = none →
      (∀ f rest, x.resend = f :: rest → ∃ t, exec (.packetEgress p) s = .next t ∧ quietly s t ∧
        sends s t p 1 (headerOf s p f.seq f.cls f.sop f.eop ++ f.bytes) ∧ (t.port p).resend = rest ∧ (t.port p).retry = x.retry) ∧
      (x.resend = [] → x.egress = [] → ∃ t, exec (.packetEgress p) s = .next t ∧ quietly s t ∧
        sends s t p 0 (headerOf s p x.nextSeq 0 false false ++ List.replicate 120 0) ∧ (t.port p).nextSeq = x.nextSeq ∧ (t.port p).retry = x.retry) ∧
      (∀ k, x.resend = [] → x.egress = [k] → k.sent = 0 → k.bytes.length ≤ 120 → 0 < k.bytes.length → k.cls < 4 → k.world < 32 → k.op = none →
        0 < tget 0 x.credits k.cls → x.retry.length < 512 →
        ∃ t, exec (.packetEgress p) s = .next t ∧ quietly s t ∧ sends s t p 1 (headerOf s p x.nextSeq k.cls true true ++ padTo 120 k.bytes) ∧
          (t.port p).egress = [] ∧ (t.port p).nextSeq = (x.nextSeq + 1) % 4096 ∧
          (t.port p).retry = x.retry ++ [⟨x.nextSeq, k.cls, true, true, padTo 120 k.bytes⟩] ∧
          tget 0 (t.port p).credits k.cls = tget 0 x.credits k.cls - 1)) ∧
    (∀ k, s.egressDue p = true → x.edge = true → x.egress = [k] → k.cls < 4 → k.world < 32 → k.op = none →
      ∃ t, exec (.packetEgress p) s = .next t ∧ quietly s t ∧ t.sent = s.sent ++ [(p, 16, k.bytes ++ leBytes 4 (crc32 k.bytes))] ∧
        (t.port p).egress = [] ∧
        let r := if x.half = true then 80 else 160
        (t.port p).sentTick = some (tk + (k.bytes.length + 24 + r - 1) / r - 1)) ∧
    (p < 36 → x.trained = true → x.edge = false → s.reservedIn p tk = false →
      let h := field fr.flit 0 8
      let good := fun (kind : Nat) => fr.crc.toNat = crc32c (leBytes 2 x.peer ++ leBytes 1 x.peerPort ++ [0] ++ leBytes 2 s.moduleId.toNat ++
        leBytes 1 p ++ [0] ++ leBytes 8 (tk - x.delay) ++ leBytes 1 kind ++ padTo 128 fr.flit)
      let asked := fun (t : State) => quietly s t ∧ (t.port p).discarding = true ∧ (t.port p).ingress = x.ingress ∧
        (x.discarding = false → (t.port p).nakDue = true) ∧ (t.port p).expected = x.expected
      (good 0 → h / 2 ^ 24 % 2 = 0 → ∃ t, exec (.frameIdle p fr) s = .next t ∧ quietly s t ∧ (t.port p).retry = freeThrough (h / 2 ^ 12 % 4096) x.retry ∧
        ∀ c, c < 4 → tget 0 (t.port p).credits c = tget 0 x.credits c + h / 2 ^ (32 + 8 * c) % 256) ∧
      (¬ good 0 → exec (.frameIdle p fr) s = .next s) ∧
      (good 1 → h / 2 ^ 24 % 2 = 0 → h % 4096 = x.expected → h / 2 ^ 27 % 4 = 3 → ∃ t k, exec (.framePacket p fr) s = .next t ∧ quietly s t ∧
        (t.port p).expected = (x.expected + 1) % 4096 ∧ (t.port p).nakDue = x.nakDue ∧ (t.port p).ingress = x.ingress ++ [k] ∧
        k.bytes = trimPacket ((fr.flit.drop 8).take 120) ∧ k.cls = h / 2 ^ 25 % 4) ∧
      (good 1 → h / 2 ^ 24 % 2 = 0 → h % 4096 ≠ x.expected → ∃ t, exec (.framePacket p fr) s = .next t ∧ asked t) ∧
      (¬ good 1 → ∃ t, exec (.framePacket p fr) s = .next t ∧ asked t) ∧
      (∃ t, exec (.frameScheduled p fr) s = .next t ∧ quietly s t ∧ (t.port p).crcFails = satAdd x.crcFails 1 ∧ (t.port p).landing = x.landing) ∧
      exec (.frameCalibration p fr) s = .next s) ∧
    (p < 36 → x.trained = true → x.edge = false → s.reservedIn p tk = true → (s.lineOn 3 p tk).isSome = true →
      (s.frameOk p 2 fr = true → x.landing.length < 1024 → ∃ t, exec (.frameScheduled p fr) s = .next t ∧ quietly s t ∧
        (t.port p).landing = x.landing ++ [⟨tk, some (padTo 131 fr.flit)⟩]) ∧
      (s.frameOk p 2 fr = false → ∃ t, exec (.frameScheduled p fr) s = .next t ∧ quietly s t ∧
        (t.port p).landing = x.landing ++ [⟨tk, none⟩] ∧ (t.port p).crcFails = satAdd x.crcFails 1)) ∧
    (p < 36 → x.trained = false → (∃ t, exec (.frameCalibration p fr) s = .next t ∧ quietly s t ∧ (t.port p).calibrating = true ∧
        (x.edge = false → x.sentTick ≠ some tk → sends s t p 4 (List.replicate 128 0)) ∧ (x.edge = true ∨ x.sentTick = some tk → t.sent = s.sent)) ∧
      exec (.frameIdle p fr) s = .next s ∧ exec (.framePacket p fr) s = .next s ∧ exec (.frameScheduled p fr) s = .next s) ∧
    (x.trained = true → x.edge = false → x.retry ≠ [] → x.ackTick + 4096 ≤ tk →
      (x.fruitless < 32 → ∃ t, exec (.linkSilenceTimeout p) s = .next t ∧ quietly s t ∧ (t.port p).resend = x.retry ∧
        (t.port p).fruitless = x.fruitless + 1 ∧ (t.port p).replays = satAdd x.replays 1 ∧ (t.port p).ackTick = tk) ∧
      (32 ≤ x.fruitless → ∃ t, exec (.linkSilenceTimeout p) s = .next t ∧ quietly s t ∧ (t.port p).trained = false ∧ (t.port p).retry = [] ∧
        (t.port p).egress = [] ∧ (tget 0 t.peers x.peer) = 2)) ∧
    (x.retry = [] → exec (.linkSilenceTimeout p) s = .next s) ∧
    (p < 36 →
      (ln.up = false → ∃ t, exec (.linkTrain p ln) s = .next t ∧ quietly s t ∧ (t.port p).trained = false ∧ (t.port p).egress = [] ∧
        t.bports.getLsbD p = false ∧ (x.edge = false → ln.peers = [] → tget 0 t.peers x.peer = 2) ∧
        (t.peers = s.peers → t.bports = s.bports → t.irqs = s.irqs)) ∧
      (∀ q v, ln.peers = [(q, v)] → q < 4096 → v < 4 → ln.up = false ∨ ln.peer < 4096 → ∃ t, exec (.linkTrain p ln) s = .next t ∧
        tget 0 t.peers q = v) ∧
      (ln.up = true → ln.peer < 4096 → ∃ t, exec (.linkTrain p ln) s = .next t ∧ quietly s t ∧ (t.port p).trained = true ∧
        (t.port p).edge = false ∧ (t.port p).peer = ln.peer ∧ (t.port p).peerPort = ln.peerPort ∧ t.bports.getLsbD p = true ∧
        (ln.peers = [] → tget 0 t.peers ln.peer = 1) ∧ (ln.parent = false → t.tick = s.tick) ∧
        (ln.parent = true → t.tick = BitVec.ofNat 64 (ln.peerTick + (t.port p).delay)) ∧
        (t.peers = s.peers → t.bports = s.bports → t.irqs = s.irqs) ∧
        (1 ≤ ln.rawDelay → ln.rawDelay ≤ 1023 → x.fixed = 0 → (t.port p).delay = ln.rawDelay ∧ (t.port p).fixed = ln.rawDelay ∧
          (t.port p).packetsOnly = false) ∧
        (1 ≤ ln.rawDelay → ln.rawDelay ≤ x.fixed → x.fixed ≤ 1023 → (t.port p).delay = x.fixed ∧ (t.port p).fixed = x.fixed ∧
          (t.port p).packetsOnly = false) ∧
        (1023 < ln.rawDelay ∨ (x.fixed ≠ 0 ∧ x.fixed < ln.rawDelay) → (t.port p).packetsOnly = true ∧ (t.port p).fixed = x.fixed)) ∧
      (ln.up = true → 4096 ≤ ln.peer → s.edges < 8 → ∃ t, exec (.linkTrain p ln) s = .next t ∧ quietly s t ∧ (t.port p).trained = true ∧
        (t.port p).edge = true ∧ (t.port p).edgeWorld = ln.peerPort % 32 ∧ (t.port p).half = ln.half) ∧
      (ln.up = true → 4096 ≤ ln.peer → 8 ≤ s.edges → x.edge = false → exec (.linkTrain p ln) s = .next s))

/-- For every state with one domain: a departure's read takes two lines, their form and poison bits into the flit of its tick, and fails
the pitch as LATE, then for a poisoned tag, then for a tag that differs; on its tick the flit leaves as a scheduled frame; a landing
writes its half of the flit that arrived on its tick, or the poisoned tag and FLIT_CRC where none did; a cluster exchange's read fills its
writes with the lines and the record's tag, and a write puts its line; a step's read combines 32 INT32 sums into two writes eight cycles
on, and a write stores its whole words. With no such record and nothing due, each of the four leaves the state the same. That LATE comes
before the failures of the tags is the model's choice (log entry 36). -/
def Obligations.TimetableEvents : Prop :=
  ∀ (s : State) (d : Domain) (m r : Nat), s.domains = [d] → d.id = m →
    (∀ x, d.recordOf 2 r = some x → x.port < 36 →
      let i := tget 0 d.done r
      let g := d.physCluster (x.src / 48)
      let k := x.src % 48
      let l := fun (j : Nat) => (s.core g k).engineLine (x.srcAddr / 64 + 2 * i + j)
      let late := d.startTick + x.time + i < s.tick.toNat + 8
      let poisoned := (l 0).tag = 0xFFF ∨ (l 1).tag = 0xFFF
      let differs := x.pull = true ∧ ((l 0).tag.toNat ≠ x.tag ∨ (l 1).tag.toNat ≠ x.tag)
      (s.departReadDue d x = true → ∃ t d' f, exec (.scheduledDeparture m r) s = .next t ∧ quietly s t ∧ t.domains = [d'] ∧
        tget 0 d'.done r = i + 1 ∧ (t.port x.port).departing = (s.port x.port).departing ++ [f] ∧ f.tick = d.startTick + x.time + i ∧
        (f.bad = true ↔ late ∨ poisoned ∨ differs) ∧ (∀ j, j < 64 → f.bytes.getD j 0 = (l 0).data.extractLsb' (8 * j) 8 ∧
          f.bytes.getD (64 + j) 0 = (l 1).data.extractLsb' (8 * j) 8) ∧
        (d.failure = none → d'.failure = if late then some codeLateDeparture else if poisoned then some codeScheduleFault
          else if differs then some codeTagMismatch else none)) ∧
      (∀ f, s.departReadDue d x = false → s.departDue d x = true → (s.port x.port).departing = [f] → f.tick = s.tick.toNat → f.bad = false →
        (s.port x.port).trained = true → (s.port x.port).edge = false → ∃ t, exec (.scheduledDeparture m r) s = .next t ∧ quietly s t ∧
        sends s t x.port 2 f.bytes ∧ (t.port x.port).departing = []) ∧
      (s.departReadDue d x = false → s.departDue d x = false → exec (.scheduledDeparture m r) s = .next s)) ∧
    (d.recordOf 2 r = none → exec (.scheduledDeparture m r) s = .next s) ∧ (d.recordOf 1 r = none → exec (.clusterExchange m r) s = .next s) ∧
    (d.recordOf 4 r = none → exec (.reductionStep m r) s = .next s) ∧
    (∀ p, (∀ q ∈ s.clusters, ∀ a ∈ q.2.side, a.kind = .landing → a.source = p → a.done = true ∨ a.due ≠ q.2.run) →
      exec (.scheduledLanding p) s = .next s) ∧
    (∀ (p g : Nat) (a : SideAcc), g ∈ d.clusters → d.phase ≠ .ended → s.clusters = [(g, s.cluster g)] → (s.cluster g).side = [a] →
      (s.cluster g).holding = none → (s.cluster g).fenced = false → (s.cluster g).frozen = false → a.kind = .landing → a.source = p →
      a.due = (s.cluster g).run → a.done = false → a.fail = none → a.data = none →
      let tk := d.startTick + (a.due - (s.cluster g).pitchRun - 8)
      (∀ f b, (s.port p).landing = [f] → f.tick = tk → f.bytes = some b → ∃ t, exec (.scheduledLanding p) s = .next t ∧
        lineIs (t.core g a.core) a.line (landLine b a.dst a.tag) ∧ onlyLines s t g a.core (fun l => l = a.line) ∧
        (a.dst = 1 → (t.port p).landing = []) ∧ (a.dst = 0 → (t.port p).landing = [f])) ∧
      ((s.port p).landing = [] → ∃ t d', exec (.scheduledLanding p) s = .next t ∧ tget 0 (t.core g a.core).tags a.line = 0xFFF ∧
        onlyLines s t g a.core (fun _ => False) ∧ t.domains = [d'] ∧
        (s.inExchange g = true → d.failure = none → d'.failure = some codeFlitCrc))) ∧
    (∀ x, d.recordOf 1 r = some x →
      let i := tget 0 d.done r
      let gs := d.physCluster (x.src / 48)
      let gd := d.physCluster (x.dst / 48)
      (∀ a, s.readDue d x x.chunks = true → (s.cluster gd).side = [a] → a.kind = .exchange → a.dst = r → a.done = false → x.pull = false →
        a.line = x.dstAddr / 64 + 2 * i → 64 ≤ x.count - 128 * i →
        let l := (s.core gs (x.src % 48)).engineLine (x.srcAddr / 64 + 2 * i)
        ∃ t d', exec (.clusterExchange m r) s = .next t ∧ quietly s t ∧ t.domains = [d'] ∧ tget 0 d'.done r = i + 1 ∧
          (t.cluster gd).side = [{ a with data := some { l with tag := BitVec.ofNat 12 x.tag }, fail := none }]) ∧
      (s.readDue d x x.chunks = false →
        (∀ a ∈ (s.cluster gd).side, a.kind = .exchange → a.dst = r → a.done = true ∨ a.due ≠ (s.cluster gd).run) →
        exec (.clusterExchange m r) s = .next s) ∧
      (∀ a y, s.readDue d x x.chunks = false → (s.cluster gd).holding = none → (s.cluster gd).fenced = false → (s.cluster gd).frozen = false →
        (s.cluster gd).side = [a] → a.kind = .exchange → a.dst = r → a.due = (s.cluster gd).run → a.done = false → a.data = some y → a.fail = none →
        ∃ t, exec (.clusterExchange m r) s = .next t ∧ lineIs (t.core gd a.core) a.line y ∧ onlyLines s t gd a.core (fun l => l = a.line) ∧
          (t.cluster gd).side = [{ a with done := true }])) ∧
    (∀ x, d.recordOf 4 r = some x →
      let i := tget 0 d.done r
      let g := d.physCluster (x.src / 48)
      let k := x.src % 48
      let c := ttColl d.timetable x.port
      let word := fun (a : Nat) => leNat ((s.core g k).engineBytes a 4)
      (s.readDue d x (x.count / 128) = true → c.type = 2 → c.op = 0 → ∃ t d' u v, exec (.reductionStep m r) s = .next t ∧ quietly s t ∧
        t.domains = [d'] ∧ d'.writes = d.writes ++ [u, v] ∧ tget 0 d'.done r = i + 1 ∧ u.due = (s.cluster g).run + 8 ∧ v.due = u.due ∧
        u.core = 48 * g + k ∧ v.core = u.core ∧ u.addr = x.dstAddr + 128 * i ∧ v.addr = x.srcAddr + 128 * i ∧
        ∀ j, j < 32 → field u.bytes (4 * j) 4 = (word (u.addr + 4 * j) + word (v.addr + 4 * j)) % 2 ^ 32 ∧
          field v.bytes (4 * j) 4 = field u.bytes (4 * j) 4) ∧
      (s.readDue d x (x.count / 128) = false → (∀ w ∈ d.writes, s.stepWriteDue w = false) → exec (.reductionStep m r) s = .next s) ∧
      (∀ w, s.readDue d x (x.count / 128) = false → d.writes = [w] → s.stepWriteDue w = true → w.poison = 0 → w.addr % 8 = 0 → w.bytes.length % 8 = 0 →
        ∃ t d', exec (.reductionStep m r) s = .next t ∧ writesBytes s t (w.core / 48) (w.core % 48) w.addr w.bytes ∧ t.domains = [d'] ∧
          d'.writes = []))

namespace Sys2Proof.Claims

/-- The domain stops with a status at its boundary, and a cairn of kind 10 with its pitch number reports it to a world that has a management ring. -/
def stopsWith (s : State) (o : Out) (m c : Nat) (d : Domain) : Prop :=
  ∃ t d', o = .next t ∧ quietly s t ∧ t.domain m = some d' ∧ d'.phase = .stopped c ∧ d'.stop = some c ∧ d'.pcn = d.pcn ∧
    ((s.world d.world).mgmtBase ≠ 0 → ∃ q ∈ t.cairns, q.kind = 10 ∧ q.status = c ∧ q.world = d.world ∧ q.count = d.pcn.toNat)

/-- The module hold line is raised for the domain's running clusters and the domain stops with a status. -/
def evacuates (s : State) (o : Out) (m c : Nat) (d : Domain) : Prop :=
  ∃ t d', o = .next t ∧ quietly s t ∧ t.domain m = some d' ∧ d'.phase = .stopped c ∧ d'.stop = some c ∧
    ∀ g ∈ d.clusters, (s.cluster g).fenced = false → (s.cluster g).frozen = false → (∀ h ∈ (s.cluster g).holds, h.kind ≠ .capture) →
      (t.cluster g).holds = (s.cluster g).holds ++ [⟨(s.cluster g).run + 47, 0, .capture⟩]

/-- The answer only changes the domain's own entry, as `f` says. -/
def domainBecomes (s : State) (o : Out) (m : Nat) (f : Domain → Prop) : Prop := ∃ t d', o = .next t ∧ quietly s t ∧ t.domain m = some d' ∧ f d'

/-- A sync flit of a kind from a neighbour arrives on its tick of a trained port and passes its CRC. -/
def syncArrives (s : State) (m p kind : Nat) (fr : Frame) (d : Domain) (n : Neighbour) : Prop :=
  p < 36 ∧ (s.port p).trained = true ∧ (s.port p).edge = false ∧ s.domain m = some d ∧ d.neighbours.find? (fun n => n.port == p) = some n ∧
  s.tick.toNat % 256 = Config.syncArrival m p % 256 ∧ s.frameOk p 3 fr = true ∧ field fr.flit 0 1 = kind ∧ (∀ q ∈ d.neighbours, q.port = p → q = n)

end Sys2Proof.Claims

/-- For every state and domain: a ready boundary begins the col, ready 16 cycles on, or stops the domain with its fatal fault (evacuating
it where a STOP gave it), REPLAY_LIMIT or PEER_DOWN; a pitch start sets PCN and start tick and gives every waiting core of a running
cluster this cycle as its base; a replay counts and reports its status. On its sync tick a stopped domain sends STOP, a ready child READY
or REPLAY. IDLE and PENDING only note the neighbour; READY or REPLAY of a child that agrees is noted, of one that differs stops the col
with COLL_MISMATCH and outside a col says nothing; GO sets the col's start tick, or is late, or repeats the last; STOP stops a col, for a
straggler by evacuating it. Sixteen lost flits stop a col with PEER_DOWN, a late GO with SCHEDULE_FAULT; a straggler is held and stopped;
a part that is over leaves a DONE cairn and no domain, and TT of the segments that no loaded timetable names is 0. A port number of 36 on
stops. The model's choices: a late GO as a timeout, a sync flit outside a col as only noted, when a part is over (log entry 38), and the
status that a replay asked for by a child reports (62). -/
def Obligations.DomainEvents : Prop :=
  ∀ (s : State) (m p : Nat) (fr : Frame),
    (36 ≤ p → exec (.syncIdle m p fr) s = .fault .noSuchInput ∧ exec (.syncReady m p fr) s = .fault .noSuchInput ∧
      exec (.syncPending m p fr) s = .fault .noSuchInput ∧ exec (.syncGo m p fr) s = .fault .noSuchInput ∧
      exec (.syncStop m p fr) s = .fault .noSuchInput ∧ exec (.syncReplay m p fr) s = .fault .noSuchInput) ∧
    (∀ d, s.domain m = some d →
      let timed := fun (d : Domain) => (allRecords d.timetable).filter fun x => x.kind == 5 || x.kind == 6
      let failed := d.pcn.toNat % 2 = 1 ∧ d.failure.isSome = true
      (s.boundaryReady d = false → exec (.localBoundary m) s = .next s) ∧
      (s.boundaryReady d = true → (∀ g k, (s.core g k).afault = none) →
        (∀ c, d.fatal = some c → d.stop = none → stopsWith s (exec (.localBoundary m) s) m c d) ∧
        (∀ c, d.fatal = some c → d.stop ≠ none → evacuates s (exec (.localBoundary m) s) m c d) ∧
        (d.fatal = none → failed → 3 ≤ d.replays → stopsWith s (exec (.localBoundary m) s) m codeReplayLimit d) ∧
        (d.fatal = none → ¬ (failed ∧ 3 ≤ d.replays) → s.linksLost d = true → stopsWith s (exec (.localBoundary m) s) m codePeerDown d) ∧
        (d.fatal = none → ¬ (failed ∧ 3 ≤ d.replays) → s.linksLost d = false → domainBecomes s (exec (.localBoundary m) s) m fun e =>
          e = { d with phase := .col s.now, readyAt := s.now + 16, delayed := [] })) ∧
      (s.startNow d = none → exec (.pitchStart m) s = .next s) ∧
      (∀ tk q, s.startNow d = some (tk, q) → q ≠ d.pcn → ∃ t e, exec (.pitchStart m) s = .next t ∧ quietly s t ∧ t.domain m = some e ∧ e.pcn = q ∧
        e.phase = .pitch ∧ e.startTick = tk ∧ e.startCycle = s.now ∧ e.failure = none ∧ e.replays = 0 ∧ e.done = [] ∧ e.go = none ∧
        e.dccBase = tk - d.t0 ∧
        ∀ g ∈ d.clusters, (s.cluster g).fenced = false → (t.cluster g).pitchRun = (s.cluster g).run ∧
          ∀ k, k < 48 → (s.ctx g k 0).status = .atBoundary → (t.ctx g k 0).status = .ready ∧
            (t.ctx g k 0).base = ((s.cluster g).run : Int) ∧ (t.ctx g k 0).pc = (s.ctx g k 0).pc) ∧
      (∀ tk, s.startNow d = some (tk, d.pcn) → ∃ t e, exec (.pitchStart m) s = .next t ∧ t.domain m = some e ∧ e.pcn = d.pcn ∧ e.phase = .pitch ∧
        e.startTick = tk ∧ e.failure = none ∧ e.replays = d.replays + 1 ∧
        ((s.world d.world).mgmtBase ≠ 0 → ∃ q ∈ t.cairns, q.kind = 10 ∧ q.world = d.world ∧ q.count = d.pcn.toNat ∧
          (∀ c, d.failure = some c → q.status = c) ∧
          ∀ n, d.failure = none → d.neighbours.find? (fun n => !n.parent && n.replay) = some n → q.status = n.status)) ∧
      (s.syncDue d p = false → exec (.syncTick m p) s = .next s) ∧
      (∀ n c, s.syncDue d p = true → d.neighbours.find? (fun n => n.port == p) = some n → d.stop = some c →
        ∃ t fl, exec (.syncTick m p) s = .next t ∧ quietly s t ∧ sends s t p 3 fl ∧ field fl 0 1 = 4 ∧ field fl 2 2 = c % 2 ^ 16) ∧
      (∀ n, s.syncDue d p = true → d.neighbours.find? (fun n => n.port == p) = some n → d.stop = none →
        ∃ t fl, exec (.syncTick m p) s = .next t ∧ quietly s t ∧ sends s t p 3 fl ∧ field fl 24 32 = d.digest.toNat ∧
          (n.parent = true → s.locallyReady d = true → d.childrenReady = true → d.wantsReplay = false →
            field fl 0 1 = 1 ∧ field fl 4 4 = (d.pcn + 1).toNat) ∧
          (n.parent = true → s.locallyReady d = true → d.childrenReady = true → d.wantsReplay = true →
            field fl 0 1 = 5 ∧ field fl 4 4 = d.pcn.toNat ∧ (∀ c, d.failure = some c → field fl 2 2 = c % 2 ^ 16) ∧
            ∀ n', d.failure = none → d.neighbours.find? (fun n => !n.parent && n.replay) = some n' → field fl 2 2 = n'.status % 2 ^ 16) ∧
          (n.parent = true → s.locallyReady d = false → d.delayed ≠ [] → field fl 0 1 = 2) ∧
          (∀ tk q, n.parent = false → d.go = some (tk, q) → tk < 2 ^ 64 → field fl 0 1 = 3 ∧ field fl 8 8 = tk)) ∧
      ((∃ b, d.phase = .col b) →
        ((∃ n ∈ d.neighbours, n.port = p ∧ 16 ≤ n.losses) → stopsWith s (exec (.syncLoss m p) s) m codePeerDown d) ∧
        (d.goLate = true → stopsWith s (exec (.goTimeout m) s) m codeScheduleFault d) ∧
        (d.goLate = false → exec (.goTimeout m) s = .next s)) ∧
      ((∀ n ∈ d.neighbours, n.port = p → n.losses < 16) → exec (.syncLoss m p) s = .next s) ∧
      (s.straggles d = true → evacuates s (exec (.straggler m) s) m codeStraggler d) ∧
      (s.straggles d = false → exec (.straggler m) s = .next s) ∧
      (s.partOver d = false → exec (.domainPartEnd m) s = .next s) ∧
      (s.partOver d = true → ∃ t, exec (.domainPartEnd m) s = .next t ∧ sameRegisters s t ∧ sameEngineState s t ∧
        (∀ g k a, (t.core g k).engineByte a = (s.core g k).engineByte a ∧ Memory.read (t.core g k).imem a = Memory.read (s.core g k).imem a) ∧
        (∀ a, ¬ (∃ x ∈ timed d, a = s.segAddr d.world x.dst) → Memory.read t.hbm.cells a = Memory.read s.hbm.cells a) ∧
        (∀ x ∈ timed d, let a := s.segAddr d.world x.dst
          Memory.read t.hbm.cells a &&& 0xDF = Memory.read s.hbm.cells a &&& 0xDF ∧
          ((∀ e ∈ s.domains, e.id ≠ m → e.image ≠ d.image) → (∀ q ∈ t.loadedTables, q.world = d.world → ∀ y ∈ allRecords q.bytes,
            y.kind = 5 ∨ y.kind = 6 → y.dst ≠ x.dst) → (Memory.read t.hbm.cells a).getLsbD 5 = false)) ∧ t.domains = s.domains.filter (fun e => e.id != m) ∧
        t.tasks = s.tasks.filter (fun t => t.id != m) ∧ ((s.world d.world).mgmtBase ≠ 0 → ∃ q ∈ t.cairns, q.kind = 10 ∧ q.status = codeDone ∧
          q.world = d.world ∧ q.count = d.pcn.toNat))) ∧
    (∀ d n kind, syncArrives s m p kind fr d n → (∀ b, d.phase = .col b → laterPitch (field fr.flit 4 4) (d.pcn + 1).toNat = false) →
      let heard : Neighbour := { n with heard := some s.tick.toNat, losses := 0 }
      let becomes := fun (o : Out) (x : Neighbour) => domainBecomes s o m fun e =>
        e.phase = d.phase ∧ e.go = d.go ∧ e.neighbours.find? (fun n => n.port == p) = some x
      let agrees := fun (q : Nat) => field fr.flit 4 4 = q ∧ field fr.flit 16 8 = d.collHash (d.pcn + 1).toNat ∧ field fr.flit 24 32 = d.digest.toNat
      (kind = 0 → becomes (exec (.syncIdle m p fr) s) heard) ∧
      (kind = 2 → becomes (exec (.syncPending m p fr) s) heard) ∧
      let col := ∃ b, d.phase = .col b
      let running := (∀ c, d.phase ≠ .stopped c) ∧ d.phase ≠ .ended
      (kind = 1 → n.parent = false → let o := exec (.syncReady m p fr) s
        (running → agrees (d.pcn + 1).toNat → becomes o { heard with ready := true }) ∧
        (col → ¬ agrees (d.pcn + 1).toNat → stopsWith s o m codeCollMismatch d) ∧
        (¬ running ∨ (¬ col ∧ ¬ agrees (d.pcn + 1).toNat) → becomes o heard)) ∧
      (kind = 5 → n.parent = false → let o := exec (.syncReplay m p fr) s
        (running → agrees d.pcn.toNat → becomes o { heard with replay := true, status := field fr.flit 2 2 }) ∧
        (col → ¬ agrees d.pcn.toNat → stopsWith s o m codeCollMismatch d) ∧
        (¬ running ∨ (¬ col ∧ ¬ agrees d.pcn.toNat) → becomes o heard)) ∧
      (kind = 3 → n.parent = true → d.go = none →
        let tk := field fr.flit 8 8
        let again := field fr.flit 4 4 = d.pcn.toNat ∧ tk = d.startTick
        (¬ col ∨ again → becomes (exec (.syncGo m p fr) s) heard) ∧
        (col → ¬ again → s.tick.toNat ≤ tk →
          domainBecomes s (exec (.syncGo m p fr) s) m fun e => e.go = some (tk, field fr.flit 4 4) ∧ e.phase = d.phase) ∧
        (col → ¬ again → tk < s.tick.toNat → domainBecomes s (exec (.syncGo m p fr) s) m fun e => e.go = none ∧ e.goLate = true)) ∧
      (kind = 4 →
        let c := field fr.flit 2 2
        (col → c ≠ codeStraggler → stopsWith s (exec (.syncStop m p fr) s) m c d) ∧
        (col → c = codeStraggler → evacuates s (exec (.syncStop m p fr) s) m c d) ∧
        (d.phase = .errorPhase ∨ (d.phase = .pitch ∧ d.pcn.toNat % 2 = 0) → evacuates s (exec (.syncStop m p fr) s) m c d) ∧
        (d.phase = .pitch → d.pcn.toNat % 2 = 1 → d.fatal = none → domainBecomes s (exec (.syncStop m p fr) s) m fun e =>
          e.fatal = some c ∧ e.stop = some c ∧ e.phase = .pitch)))

namespace Sys2Proof.Claims

/-- A world that has a management ring gets a cairn of a kind with a status, about world w. -/
def cairnTo (s t : State) (r w kind status : Nat) : Prop :=
  (s.world r).mgmtBase ≠ 0 → ∃ q ∈ t.cairns, q.kind = kind ∧ q.status = status ∧ q.world = w ∧ q.core = (s.world r).mgmtCore ∧ q.base = (s.world r).mgmtBase

/-- Entry i of a start vector (R263). -/
def vectorEntry (v : List Byte) (i : Nat) : List Byte := (v.drop (64 + 16 * i)).take 16

end Sys2Proof.Claims

/-- For every state: LAUNCH advances the launch status and queues the vector that passes its checks; a REFUSED entry is withdrawn;
TOKEN_REFILL adds each world's refill up to its depth; ADMISSION of the first entry that does not wait refuses it with a cairn, or starts
its task: each cluster in its mode and place, each entry's context 0 on the next cycle. CAPTURE of a stopped task enters the next image
set and streams, of a killed one zeroes; CAPTURE_END zeroes and requeues, a fenced cluster may be captured for diagnosis, a domain stopped
at its boundary captured or ended, a set discarded; RESTORE_RELEASE puts the captured contexts and bytes back, but for the operations of
the park record. SHOOTW invalidates the range, PTCHG signals it; MIGRATION queues each request, takes a segment HELD, then moves it or
aborts; REKEY advances the major counter, counts in the parent node and each verified line reads as before; a task that is over leaves a
DONE cairn. The model's choices: the cairn of a refused admission and the start on the next cycle (log entry 40), the times of captures,
restores, shootdowns and migrations (39), the captures and the discarding as inputs of world 0 (49), the integrity tree that REKEY works
on (26). -/
def Obligations.ControlEvents : Prop :=
  (∀ (s : State) (fn : Nat) (v : BitVec 64) (w : Word),
    (17 ≤ fn → exec (.launch fn v) s = .fault .noSuchInput ∧ exec (.ptchg fn w) s = .fault .noSuchInput) ∧
    (fn < 17 → (s.func fn).resetting = true → exec (.launch fn v) s = .next s) ∧
    (fn < 17 → (s.func fn).resetting = false →
      let x := v.toNat
      let sg := x % 2 ^ 12
      let off := x / 2 ^ 12 % 2 ^ 40
      let legal := (s.world fn).state = 1 ∧ x / 2 ^ 52 = 0 ∧ off % 64 = 0
      let replies := fun (t : State) (acc p st : Nat) => quietly s t ∧ (t.func fn).lstat.toNat / 2 ^ 20 = ((s.func fn).lstat.toNat / 2 ^ 20 + 1) % 4096 ∧
        (t.func fn).lstat.toNat / 2 ^ 19 % 2 = acc ∧ (t.func fn).lstat.toNat / 2 ^ 16 % 8 = p ∧ (t.func fn).lstat.toNat % 2 ^ 16 = st
      (¬ legal → ∃ t, exec (.launch fn v) s = .next t ∧ replies t 0 0 codeStartInvalid ∧ t.launchQ = s.launchQ) ∧
      (legal → s.readVector fn sg off 64 = none → ∃ t, exec (.launch fn v) s = .next t ∧ replies t 0 0 codeStartInvalid ∧ t.launchQ = s.launchQ) ∧
      (∀ h, legal → s.readVector fn sg off 64 = some h →
        let p := field h 4 1 % 8
        let fine := startHeaderOk h = true ∧ ∃ i, s.imageOf (field h 8 4) = some i ∧ i.clusters = field h 6 2
        (¬ fine → ∃ t, exec (.launch fn v) s = .next t ∧ replies t 0 p codeStartInvalid ∧ t.launchQ = s.launchQ) ∧
        (fine → 8 ≤ (s.queue fn p).length → ∃ t, exec (.launch fn v) s = .next t ∧ replies t 0 p codeQueueFull ∧ t.launchQ = s.launchQ) ∧
        (fine → (s.queue fn p).length < 8 → ∃ t, exec (.launch fn v) s = .next t ∧ replies t 1 p codeDone ∧
          t.queue fn p = s.queue fn p ++ [{ segment := sg, offset := off }]))) ∧
    (fn < 17 → (∀ d ∈ s.domains, d.delayed = []) → ∃ t, exec (.ptchg fn w) s = .next t ∧ quietly s t ∧
      ∀ g, (s.cluster g).trigger = true → (s.cluster g).world = (if fn = 0 then w.toNat % 32 else fn) → g ∈ s.clusters.map (·.1) →
        (t.cluster g).rewalk = true) ∧
    (let va := (s.func 0).shootVa.toNat
     let n := (s.func 0).shootLen.toNat
     let legal := w.toNat < 17 ∧ va % 65536 = 0 ∧ n ≠ 0 ∧ n ≤ 2 ^ 36
     (¬ legal → ∃ t, exec (.shootw w) s = .next t ∧ quietly s t ∧ t.clusters = s.clusters ∧ t.shootdowns = s.shootdowns ∧
       cairnTo s t 0 (w.toNat % 32) 10 codeOperandIllegal) ∧
     (legal → ∃ t, exec (.shootw w) s = .next t ∧ quietly s t ∧
       t.shootdowns = s.shootdowns ++ [⟨w.toNat, va / 65536, n, s.now + 64⟩] ∧
       ∀ g, ∀ e ∈ (t.cluster g).tlb0 ++ (t.cluster g).tlb1, e.inRange w.toNat (va / 65536) n = true → e.pinned = true ∧ e.stale = true))) ∧
  (∀ (s : State) (wd pr ix : Nat) (e : LaunchEntry), (s.queue wd pr)[ix]? = some e →
    (e.refused = true → exec (.launchWithdrawal wd pr ix) s = .next (s.modQueue wd pr (fun q => q.take ix ++ q.drop (ix + 1)))) ∧
    (e.refused = false → exec (.launchWithdrawal wd pr ix) s = .next s)) ∧
  (∀ s : State, ∃ t, exec .tokenRefill s = .next t ∧ quietly s t ∧ ∀ w ∈ s.worlds.map (·.1),
    (t.world w).tokens = Min.min (s.world w).depth ((s.world w).tokens + (s.world w).refill)) ∧
  (∀ (s : State) (w p : Nat), (s.nextVerdict = none → exec (.admission w p) s = .next s) ∧
    (∀ e c, s.nextVerdict = some (w, p, e, .refuse c) → ∃ t, exec (.admission w p) s = .next t ∧ quietly s t ∧ cairnTo s t w w 10 c ∧
      t.queue w p = if c = codePlacementRefused then markRefused (s.queue w p) else dropWaiting (s.queue w p)) ∧
    (∀ e v image need, s.nextVerdict = some (w, p, e, .accept v image need none) → need.Nodup → ∃ t, exec (.admission w p) s = .next t ∧
      t.queue w p = dropWaiting (s.queue w p) ∧ (image.unloaded = false → sameMemory s t) ∧
      (∀ h j a, (t.core h j).engineByte a = (s.core h j).engineByte a ∧ Memory.read (t.core h j).imem a = Memory.read (s.core h j).imem a) ∧ (t.tasks.map (·.clusters)) = (s.tasks.map (·.clusters)) ++ [need] ∧
      (t.world w).tokens = (s.world w).tokens - s.effective w p ∧
      (field v 5 1 = 0 → t.domains.map (·.clusters) = s.domains.map (·.clusters) ++ [need]) ∧
      ∀ i g, need[i]? = some g → (t.cluster g).trigger = (field v 5 1 != 0) ∧ (t.cluster g).logical = i ∧
        ∀ k, k < 48 → (field v 5 1 = 0 ∨ field (vectorEntry v (48 * i + k)) 0 4 ≠ 0) →
          (t.ctx g k 0).status = .ready ∧ (t.ctx g k 0).tsr = (if field v 4 1 / 2 ^ 4 % 2 = 1 then 8 else 0) ∧ (t.ctx g k 0).pc = field (vectorEntry v (48 * i + k)) 0 4 ∧
          (t.ctx g k 0).hvb = BitVec.ofNat 32 (field (vectorEntry v (48 * i + k)) 4 4) ∧ (t.ctx g k 0).base = ((s.cluster g).run + 1 : Nat) ∧
          (field v 5 1 = 0 → (t.ctx g k 0).s = [] ∧ (t.ctx g k 0).v = []))) ∧
  (∀ (s : State) (n : Nat) (k : Task), s.task n = some k →
    let stopped := k.stopping = 0 ∧ ∃ d c, s.domain k.id = some d ∧ d.phase = .stopped c
    (stopped → ∃ t, exec (.capture (.task n)) s = .next t ∧ quietly s t ∧ t.tasks = s.tasks.map (fun u => if u.id = n then { u with stopping := 3 } else u) ∧
      ∀ g ∈ k.clusters, (s.cluster g).frozen = false → (∀ h ∈ (s.cluster g).holds, h.kind ≠ .capture) →
        (t.cluster g).holds = (s.cluster g).holds ++ [⟨(s.cluster g).run + 47, 0, .capture⟩]) ∧
    (stopped → ∃ t, exec (.capture (.endStopped n)) s = .next t ∧ quietly s t ∧
      t.tasks = s.tasks.map (fun u => if u.id = n then { u with stopping := 2 } else u)) ∧
    (¬ stopped → exec (.capture (.endStopped n)) s = .next s) ∧
    (¬ stopped → s.captureDue k = false → exec (.capture (.task n)) s = .next s) ∧
    (s.captureDue k = true → k.stopping = 2 → ∃ t, exec (.capture (.task n)) s = .next t ∧ cairnTo s t k.world k.world 10 codeKilled ∧
      t.tasks = s.tasks.filter (fun u => u.id != k.id) ∧ ∀ g ∈ k.clusters, ∀ j x, (t.ctx g j x) = {}) ∧
    (s.captureDue k = true → k.stopping ≠ 2 → ∃ t i, exec (.capture (.task n)) s = .next t ∧ t.stopSeq = s.stopSeq + 1 ∧ t.imageSets = s.imageSets ++ [i] ∧
      i.seq = s.stopSeq + 1 ∧ i.world = k.world ∧ i.stopCycle = s.now ∧ i.clusters.map (·.1) = k.clusters ∧ sameMemory s t ∧
      (∀ g ∈ k.clusters, (t.cluster g).frozen = true ∧ (t.cluster g).streaming = some (s.now + 24576)) ∧ t.domains = s.domains.map fun d => if d.id = k.id then { d with phase := .stopped i.status } else d) ∧
    (s.taskOver k = false → exec (.triggerTaskEnd n) s = .next s) ∧
    (s.taskOver k = true → ∃ t, exec (.triggerTaskEnd n) s = .next t ∧ quietly s t ∧ t.tasks = s.tasks.filter (fun u => u.id != n) ∧
      cairnTo s t k.world k.world 10 codeDone)) ∧
  (∀ (s : State) (q : Nat) (k : Task) (i : ImageSet), s.streamer q = some k → s.imageSet q = some i → ∃ t, exec (.captureEnd (.ended q)) s = .next t ∧
    t.tasks = s.tasks.filter (fun u => u.id != k.id) ∧ (∀ g ∈ k.clusters, ∀ j x, (t.ctx g j x) = {}) ∧ cairnTo s t k.world k.world 10 i.status ∧
    (k.stopping = 1 → t.queue k.world k.level = { segment := k.segment, offset := k.offset, restore := some q } :: s.queue k.world k.level) ∧
    t.domains = s.domains.filter (fun d => d.id != k.id) ∧ (∃ j, t.imageSet q = some j ∧ j = { i with ended := true }) ∧
    (k.stopping ≠ 1 → t.launchQ = s.launchQ)) ∧
  (∀ (s : State) (g q : Nat), let cl := s.cluster g
    (cl.fenced = false → exec (.capture (.fenced g)) s = .next s) ∧
    (cl.fenced = true → ∃ t i, exec (.capture (.fenced g)) s = .next t ∧ t.stopSeq = s.stopSeq + 1 ∧ t.imageSets = s.imageSets ++ [i] ∧
      i.seq = s.stopSeq + 1 ∧ i.kind = 3 ∧ i.world = cl.world ∧ i.status = cl.fenceCode ∧ i.stopCycle = s.now ∧ i.clusters.map (·.1) = [g] ∧
      t.clusters = s.clusters ∧ quietly s t) ∧
    ((s.streamer q).isSome = true ∨ (∃ r ∈ s.restores, r.seq = q) → exec (.captureEnd (.discard q)) s = .next s) ∧
    (s.streamer q = none → (∀ r ∈ s.restores, r.seq ≠ q) → ∃ t, exec (.captureEnd (.discard q)) s = .next t ∧
      t.imageSets = s.imageSets.filter (fun i => i.seq != q) ∧ sameRegisters s t ∧ t.clusters = s.clusters)) ∧
  (∀ (s : State) (q g g0 : Nat) (r : Restore) (i : ImageSet) (k : Task) (old : Cluster), s.restores = [r] → r.seq = q → s.imageSet q = some i →
    r.clusters = [g] → i.clusters = [(g0, old)] → (∀ j b, tget 0 (old.core j).lent b = 0) → s.tasks.find? (fun t => t.clusters == r.clusters) = some k → s.parks = [] →
    ∃ t, exec (.restoreRelease q) s = .next t ∧ t.restores = [] ∧ (t.cluster g).frozen = false ∧
      (∀ j x, j < 48 → let y := (old.core j).ctx x
        t.ctx g j x = { y with untimed := y.untimed.filter ((old.core j).keeps x) }) ∧
      (∀ j a, j < 48 → tget 0 (s.core g j).lent (a / 64 % 32) = 0 → Memory.read (t.core g j).spad a = Memory.read (old.core j).spad a) ∧
      (i.domain = none → t.domains = s.domains) ∧
      ∀ d, i.domain = some d → ∃ e, t.domains = s.domains ++ [e] ∧ e.clusters = [g] ∧ e.id = k.id ∧ e.share = k.share ∧ e.pcn = d.pcn ∧
        e.phase = (if i.kind = 0 then .col s.now else .pitch)) ∧
  (∀ (s : State) (mq : MigrationReq),
    exec (.migration (.request mq)) s = .next { s with migrations := s.migrations ++ [{ req := mq, asked := s.now }] } ∧
    (s.migrations = [] → exec (.migration .proceed) s = .next s) ∧
    (∀ m rest, s.migrations = m :: rest → m.req = mq →
      (s.migrationReady = false → exec (.migration .proceed) s = .next s) ∧
      (s.migrationReady = true → m.held = false → ∃ t, exec (.migration .proceed) s = .next t ∧ sameRegisters s t ∧
        (t.segment mq.world mq.segment).state = 2 ∧ t.migrations = { m with held := true } :: rest) ∧
      (m.held = true →
        let x := s.segment mq.world mq.segment
        let r := s.migrateAll mq.world x.vbase mq.newVbase x.limit
        (r.2.1 = true → ∃ t, exec (.migration .proceed) s = .next t ∧ sameRegisters s t ∧ t.migrations = rest ∧
          cairnTo s t mq.world mq.world 9 codeDone ∧
          (t.segment mq.world mq.segment).state = 1 ∧ (t.segment mq.world mq.segment).vbase = mq.newVbase % 2 ^ 36) ∧
        (r.2.1 = false → ∃ t, exec (.migration .proceed) s = .next t ∧ sameRegisters s t ∧ t.migrations = rest ∧
          cairnTo s t mq.world mq.world 9 codeMigrationAbort)))) ∧
  (∀ (s : State) (n : Nat), (n ∉ s.rekeys → exec (.rekey n) s = .next s) ∧
    (n ∈ s.rekeys → ∃ t, exec (.rekey n) s = .next t ∧ sameRegisters s t ∧ n ∉ t.rekeys ∧
      (∀ x ∈ s.rekeys, x ≠ n → x / 2 ^ 40 ≤ n / 2 ^ 40 → x ∈ t.rekeys) ∧
      (tget {} t.nodes n).major = (tget {} s.nodes n).major + 1 ∧ (tget {} t.nodes n).minors = [] ∧
      (n / 2 ^ 40 < 6 → let p := (n / 2 ^ 40 + 1) * 2 ^ 40 + n % 2 ^ 40 / 64
        tget 0 (tget {} s.nodes p).minors (n % 64) < 127 →
          tget 0 (tget {} t.nodes p).minors (n % 64) = tget 0 (tget {} s.nodes p).minors (n % 64) + 1) ∧
      ∀ w j, n / 2 ^ 40 = 1 → j < 64 → (s.memKey w).isSome = true → s.verifies s.hbm w (64 * (n % 2 ^ 40) + j) = true →
        t.readHbm t.hbm w (64 * (n % 2 ^ 40) + j) true = s.readHbm s.hbm w (64 * (n % 2 ^ 40) + j) true))

namespace Sys2Proof.Claims

/-- The instruction is the command of a code (R367) with the request. -/
def isCommand (code : Nat) (rq : AssayReq) (i : Instr) : Prop :=
  (code = 0x0001 ∧ i = .fuseRead rq) ∨
  (code = 0x0002 ∧ i = .nonce rq) ∨
  (code = 0x0003 ∧ i = .debugToken rq) ∨
  (code = 0x0010 ∧ i = .worldCreate rq) ∨
  (code = 0x0011 ∧ i = .worldConfig rq) ∨
  (code = 0x0012 ∧ i = .keyImport rq) ∨
  (code = 0x0013 ∧ i = .imageLoad rq) ∨
  (code = 0x0014 ∧ i = .imageUnload rq) ∨
  (code = 0x0015 ∧ i = .worldReset rq) ∨
  (code = 0x0016 ∧ i = .report rq) ∨
  (code = 0x0017 ∧ i = .extend rq) ∨
  (code = 0x0020 ∧ i = .deploy rq) ∨
  (code = 0x0021 ∧ i = .retire rq)

/-- The request is at the head of the serving controller's queue, came from a core of an ACTIVE world, and carries the code. -/
def atHead (s : State) (rq : AssayReq) (rest : List AssayReq) (code : Nat) (c : AssayCmd) : Prop :=
  s.assay.queue = rq :: rest ∧ s.assay.serving = true ∧ field rq.bytes 0 2 = code ∧ assayCmd code = some c ∧ rq.fromHost = false ∧
  (s.world rq.world).state = 1 ∧ s.assay.unlock = none

/-- The command's buffer, as it stands in the submitter's bank. -/
def bufferOf (s : State) (rq : AssayReq) (c : AssayCmd) : List Byte :=
  match c.buffer with
  | some p => (s.buffer rq p).1
  | none => []

/-- The reply of R318 is in the submitter's core, unless its cluster is fenced: status, code, 16 and the body's length, sequence number; and the bump. -/
def replied (s t : State) (rq : AssayReq) (code st body : Nat) : Prop :=
  let reply := field rq.bytes 4 4
  (s.cluster rq.cluster).fenced = false → 64 ≤ field rq.bytes 8 4 → reply % 64 = 0 →
    (∀ i, i < 16 → (t.core rq.cluster rq.core).engineByte (reply + i) =
      (leBytes 2 st ++ leBytes 2 code ++ leBytes 4 (16 + body) ++ leBytes 8 rq.seq).getD i 0) ∧
    ∃ b ∈ (t.cluster rq.cluster).bumps, b.counter = byteAt rq.bytes 2 ∧ b.amount = 1

/-- Nothing but the controller's own state, the reply and its bump differs: no world, image, task, HBM byte or register. -/
def onlyAssay (s t : State) : Prop :=
  sameRegisters s t ∧ t.worlds = s.worlds ∧ t.images = s.images ∧ t.tasks = s.tasks ∧ t.hbm = s.hbm ∧ t.launchQ = s.launchQ

/-- A section that loads with no further condition: in clear, for placed clusters, and code, scratchpad content or shapes within their limits (16 R371). -/
def plainSection (file : List Byte) (ps : List (Nat × Nat)) (i : Nat) : Prop :=
  let x := sectionAt file i
  let p := (file.drop x.start).take x.len
  let a := field p 0 4
  x.ok (hdrClusters file) = true ∧ x.sealed = false ∧ (∃ q ∈ ps, q.1 = x.cluster) ∧
  ((x.kind = 0 ∧ 8 ≤ p.length ∧ field p 4 4 = 0 ∧ a % 4 = 0 ∧ p.length % 4 = 0 ∧ a + (p.length - 8) ≤ 0x20000) ∨
   (x.kind = 1 ∧ 8 ≤ p.length ∧ field p 4 4 = 0 ∧ a + (p.length - 8) ≤ 0x100000) ∨
   (x.kind = 2 ∧ 4 ≤ p.length ∧ (p.length - 4) % 48 = 0 ∧ a + (p.length - 4) / 48 ≤ 16))

/-- An image that loads: of the module's own stepping and the world, with its digest, an ascending remaining-time table and plain sections alone. -/
def plainImage (s : State) (w : Nat) (ps : List (Nat × Nat)) (file : List Byte) : Prop :=
  hdrStepping file = s.moduleStepping ((ps.headD (0, 0)).2) ∧ (hdrStepping file = 0xA1 ∨ hdrStepping file = 0xB0) ∧ hdrImageWorld file = w ∧
  digestBytes (imageDigest file) = (file.drop 64).take 32 ∧ (rttOf file).isSome = true ∧ (∀ i, i < hdrSections file → plainSection file ps i) ∧
  ∀ g k b, tget 0 (s.core g k).lent b = 0

end Sys2Proof.Claims

/-- For every state with a request at the head of the serving controller's queue: a refusal of R368 is answered with its status and
changes nothing else; else FUSE_READ returns the lifecycle, NONCE the next drawn nonce, EXTEND extends its world's configuration hallmark,
DEPLOY and RETIRE move the lifecycle and destroy the key, WORLD_CREATE makes an ACTIVE world with its keys and clusters, WORLD_CONFIG
rewrites its entry, KEY_IMPORT takes the section key once, IMAGE_LOAD names what fails, and loads an image of the module's stepping whose
digest agrees and whose sections are plain and in limits, IMAGE_UNLOAD forgets a handle, WORLD_RESET begins the departure, then destroys
the keys and lists the world's frames for the scrub, REPORT is drawn and signed, DEBUG_TOKEN unlocks after the tenants have departed. A
scrub that is done frees its world; provisioning fuses the key once. The model's choices: where the list of the scrub stands (log entry
46), when a command executes and how its reply is cut (44), an unknown handle as IMAGE_INVALID, KEY_IMPORT's SIGNATURE_INVALID and
DEPLOY's LIFECYCLE_ILLEGAL (45), the order in which a load is judged (42), the random numbers behind the keys (4). -/
def Obligations.AssayCommands : Prop :=
  (∀ (s : State) (rq : AssayReq) (rest : List AssayReq) (code : Nat) (c : AssayCmd) (i : Instr), atHead s rq rest code c → isCommand code rq i →
    let b := bufferOf s rq c
    let w := byteAt rq.bytes 12
    let st := s.refusal c rq b
    let o := exec i s
    let done := fun (t : State) (body : Nat) => t.assay.queue = rest ∧ replied s t rq code codeDone body
    let refused := fun (st : Nat) => ∃ t, o = .next t ∧ onlyAssay s t ∧ t.assay.queue = rest ∧ replied s t rq code st 0 ∧
      t.assay.keys = s.assay.keys ∧ t.assay.lifecycle = s.assay.lifecycle ∧ t.assay.hallmarks = s.assay.hallmarks
    (st ≠ codeDone → ¬ (code = 0x0015 ∧ (s.world w).state = 2 ∧ 1 ≤ w) → refused st) ∧
    (st = codeDone →
      (code = 0x0001 → ∃ t, o = .next t ∧ onlyAssay s t ∧ done t (56 + Min.min 1024 Config.certificate.length) ∧ t.assay.keys = s.assay.keys ∧
        ((s.cluster rq.cluster).fenced = false → 64 ≤ field rq.bytes 8 4 → field rq.bytes 4 4 % 64 = 0 →
          (t.core rq.cluster rq.core).engineByte (field rq.bytes 4 4 + 24) = BitVec.ofNat 8 s.assay.lifecycle)) ∧
      (code = 0x0002 → ∃ t, o = .next t ∧ onlyAssay s t ∧ done t 32 ∧ t.assay.nonceOut = some (Config.random s.assay.draws) ∧
        t.assay.draws = s.assay.draws + 1 ∧ t.assay.keys = s.assay.keys) ∧
      (code = 0x0017 → ∃ t, o = .next t ∧ onlyAssay s t ∧ done t 0 ∧ ∀ n, t.hallmark n = if n = 2 * rq.world + 1 then
        digestOf (leBytes 32 (s.hallmark n).toNat ++ (rq.bytes.drop 32).take 32) else s.hallmark n) ∧
      (code = 0x0020 → s.assay.lifecycle = 1 → ∃ t, o = .next t ∧ onlyAssay s t ∧ done t 0 ∧ t.assay.lifecycle = 2 ∧ t.assay.fused = 2) ∧
      (code = 0x0020 → s.assay.lifecycle ≠ 1 → refused codeLifecycleIllegal) ∧
      (code = 0x0021 → ∃ t, o = .next t ∧ onlyAssay s t ∧ done t 0 ∧ t.assay.attestKey = none ∧ t.assay.lifecycle = 5 ∧ t.assay.fused = 5) ∧
      (code = 0x0010 → ∃ t body, o = .next t ∧ done t body ∧ (t.world w).state = 1 ∧ (t.world w).flags = byteAt b 1 ∧
        (t.world w).clusters = BitVec.ofNat 96 (field b 16 12) ∧ (t.world w).segments = field b 8 4 ∧ (t.world w).weight = byteAt b 64 ∧
        t.hallmark (2 * w) = 0 ∧ (tget {} t.assay.keys w).pair.isSome = true ∧ (tget {} t.assay.keys w).memory.isSome = true ∧
        (tget {} t.assay.keys w).sectionKey = none ∧
        ∀ g, g < 96 → (BitVec.ofNat 96 (field b 16 12)).getLsbD g = true → (s.world w).clusters.getLsbD g = false → (t.cluster g).world = w) ∧
      (code = 0x0011 → ∃ t, o = .next t ∧ done t 0 ∧ (t.world w).state = (s.world w).state ∧ (t.world w).weight = byteAt b 64 ∧
        (t.world w).maxPriority = byteAt b 65 ∧ (t.world w).mgmtBase = field b 38 4 ∧ (w = 0 → (t.world 0).clusters = (s.world 0).clusters) ∧
        (1 ≤ w → (t.world w).clusters = BitVec.ofNat 96 (field b 16 12))) ∧
      (code = 0x0012 →
        let k := tget {} s.assay.keys w
        (k.sectionKey.isSome = true → refused codeNotPermitted) ∧
        (k.sectionKey = none → k.pair.bind (fun d => sm2Decrypt d.toNat b) = none → refused codeSignatureInvalid) ∧
        (∀ m, k.sectionKey = none → k.pair.bind (fun d => sm2Decrypt d.toNat b) = some m → ∃ t, o = .next t ∧ onlyAssay s t ∧ done t 0 ∧
          (tget {} t.assay.keys w).sectionKey = some (BitVec.ofNat 128 (leNat m)) ∧ (tget {} t.assay.keys w).pair = k.pair)) ∧
      (code = 0x0013 →
        (s.placementAccepted w (mapPairs b) = false → refused codePlacementRefused) ∧
        (∀ e, s.placementAccepted w (mapPairs b) = true → s.readImage (field rq.bytes 16 2) (field rq.bytes 20 8) = .error e → refused e) ∧
        (∀ file, s.placementAccepted w (mapPairs b) = true → s.readImage (field rq.bytes 16 2) (field rq.bytes 20 8) = .ok file →
          (hdrStepping file = 0xA1 ∨ (hdrStepping file = 0xB0 ∧ s.moduleStepping (((mapPairs b).headD (0, 0)).2) ≠ 0xA1)) →
          digestBytes (imageDigest file) ≠ (file.drop 64).take 32 → refused codeImageInvalid) ∧
        (∀ file, s.placementAccepted w (mapPairs b) = true → s.readImage (field rq.bytes 16 2) (field rq.bytes 20 8) = .ok file →
          plainImage s w (mapPairs b) file → ∃ t i, o = .next t ∧ done t 72 ∧ t.images = s.images ++ [i] ∧ i.world = w ∧
          i.handle = rq.seq % 2 ^ 32 ∧ i.digest = imageDigest file ∧ i.rewritten = none ∧ i.header = file.take 96 ∧
          (∀ q ∈ mapPairs b, (t.cluster q.2).image = some i.handle ∧ (t.cluster q.2).logical = q.1) ∧
          let x := sectionAt file 0
          (hdrSections file = 1 → x.kind = 0 → ∀ q ∈ mapPairs b, q.1 = x.cluster → ∀ k j, x.first ≤ k → k ≤ x.last → 8 + j < x.len →
            x.start + x.len ≤ file.length →
            Memory.read (t.core q.2 k).imem (field (file.drop x.start) 0 4 + j) = file.getD (x.start + 8 + j) 0)) ∧
        ∃ t st body, o = .next t ∧ t.assay.queue = rest ∧ replied s t rq code st body ∧ (st = codeDone → ∃ i, t.images = s.images ++ [i] ∧
          i.world = w ∧ i.handle = rq.seq % 2 ^ 32 ∧ ∀ q ∈ mapPairs b, (t.cluster q.2).image = some i.handle) ∧
          (st ≠ codeDone → t.images = s.images ∧ body = 0)) ∧
      (code = 0x0014 →
        let mine := fun (i : Image) => i.handle == field rq.bytes 16 4 && i.world == w
        (s.images.any mine = true → ∃ t, o = .next t ∧ sameRegisters s t ∧ done t 0 ∧ t.images = s.images.filter (fun i => !mine i) ∧
          t.worlds = s.worlds) ∧
        (s.images.any mine = false → refused codeImageInvalid)) ∧
      (code = 0x0016 → ∃ t, o = .next t ∧ onlyAssay s t ∧ t.assay.queue = rest ∧ (∃ body, replied s t rq code codeDone body ∧ 832 ≤ body) ∧
        t.assay.draws = s.assay.draws + 1 ∧ t.assay.keys = s.assay.keys) ∧
      (code = 0x0015 → (s.world w).state = 1 → s.tasks = [] → ∃ t, o = .next t ∧ (t.world w).state = 2 ∧ t.assay.queue = s.assay.queue ∧
        (∀ p, p < 8 → t.queue w p = []) ∧ (∀ j e, (j, e) ∈ t.imports → (e.exporter = w ∨ e.importer = w) → e.flags % 2 = 0) ∧
        t.assay.keys = s.assay.keys) ∧
      (code = 0x0003 →
        (s.tokenStatus b ≠ codeDone → ∃ t, o = .next t ∧ onlyAssay s t ∧ t.assay.queue = rest ∧ replied s t rq code (s.tokenStatus b) 0 ∧
          t.assay.nonceOut = none ∧ t.assay.lifecycle = s.assay.lifecycle) ∧
        (s.tokenStatus b = codeDone → s.tasks = [] → ∃ t, o = .next t ∧ t.assay.lifecycle = 3 ∧ t.assay.nonceOut = none ∧
          t.assay.queue = s.assay.queue ∧ ∀ v, 1 ≤ v → v ≤ 16 → (s.world v).state = 1 → (t.world v).state = 2))) ∧
    (code = 0x0015 → (s.world w).state = 2 → 1 ≤ w →
      (s.departed = false → o = .next s) ∧
      (s.departed = true → ∃ t, o = .next t ∧ done t 0 ∧ (t.world w).state = 3 ∧ tget {} t.assay.keys w = {} ∧
        (∃ x, t.assay.scrubs = s.assay.scrubs ++ [x] ∧ x.world = w ∧ x.pointer = 0 ∧ x.done = 0 ∧ x.length = 4 * x.frames.length ∧
          x.address = Config.scrubFrame w * 65536 ∧ x.digest = digestOf (listBytes x.frames) ∧ (s.world w).segments ∈ x.frames ∧
          (∀ va f, s.walk w va = some f → f.phys / 65536 ∈ x.frames) ∧
          ∀ i, i < x.length → Memory.read t.hbm.cells (x.address + i) = (listBytes x.frames).getD i 0) ∧
        ∀ g, g < 96 → (s.world w).clusters.getLsbD g = true → (t.cluster g).world = 0))) ∧
  (∀ (s : State) (rq : AssayReq) (rest : List AssayReq) (d : BitVec 256), s.assay.queue = rq :: rest → s.assay.unlock = some d →
    (s.departed = false → exec (.debugToken rq) s = .next s) ∧
    (s.departed = true → ∃ t, exec (.debugToken rq) s = .next t ∧ t.assay.lifecycle = 4 ∧ t.assay.debugOpen = true ∧ t.assay.unlock = none ∧
      t.assay.queue = rest ∧ ∀ v, 1 ≤ v → v ≤ 16 → (s.world v).state = 2 → (t.world v).state = 3)) ∧
  (∀ (s : State) (w : Nat) (x : Scrub), s.assay.scrubs.find? (fun x => x.world == w) = some x →
    (x.done < x.frames.length → exec (.scrubComplete w) s = .next s) ∧
    (x.frames.length ≤ x.done → ∃ t, exec (.scrubComplete w) s = .next t ∧ quietly s t ∧ (t.world w).state = 0 ∧
      t.assay.scrubs = s.assay.scrubs.filter (fun z => z.world != w) ∧ (w ≠ 0 → cairnTo s t 0 w 10 codeDone))) ∧
  (∀ (s : State) (ky : BitVec 256),
    (s.assay.fused = 0 → ∃ t, exec (.provisioning ky) s = .next t ∧ onlyAssay s t ∧ t.assay.fused = 1 ∧ t.assay.lifecycle = 1 ∧
      t.assay.attestKey = some ky) ∧
    (s.assay.fused ≠ 0 → exec (.provisioning ky) s = .next s))

namespace Sys2Proof.Claims

/-- Step b of bring-up is done: only what BRING shows, and perhaps an interrupt on a change of it, differs. Bit 13 shows its step at once, bit 12 and then
the dies only after it, bit 14 after every die, bit 15 after bit 14 (log entry 47). -/
def bringsUp (s : State) (o : Out) (b : Nat) : Prop :=
  ∃ t, o = .next t ∧ quietly s t ∧ t.worlds = s.worlds ∧ t.clusters = s.clusters ∧ t.bringDone = s.bringDone ||| BitVec.twoPow 32 b ∧
    let d := fun (n : Nat) => t.bringDone.getLsbD n
    t.bring.getLsbD 13 = d 13 ∧ t.bring.getLsbD 12 = (d 13 && d 12) ∧ (∀ n, n < 12 → t.bring.getLsbD n = (d 13 && d 12 && d n)) ∧
    let ticks := d 13 && d 12 && d 14 && (List.range 12).all d
    t.bring.getLsbD 14 = ticks ∧ t.bring.getLsbD 15 = (ticks && d 15)

/-- The writes that R382 lists for a function, by offset and width, and those of its configuration space (log entry 64). -/
def listedWrite (fn off wd : Nat) : Prop :=
  (off = 0x000 ∧ wd = 8) ∨ (off = 0x010 ∧ wd = 4) ∨
  (fn = 0 ∧ ((off = 0x014 ∧ wd = 4) ∨ (off = 0x018 ∧ wd = 8) ∨ (off = 0x020 ∧ wd = 8) ∨ (off = 0x040 ∧ wd = 4))) ∨
  (0x800 ≤ off ∧ off < 0x800 + 16 * (if fn = 0 then 16 else 8) ∧ (wd = 4 ∨ wd = 8) ∧ off % wd = 0) ∨
  (0x1000 ≤ off ∧ off + wd ≤ 0x2000 ∧ (wd = 1 ∨ wd = 2 ∨ wd = 4) ∧ off % wd = 0)

end Sys2Proof.Claims

/-- For every state: a register write of its width does what its register does, one of configuration space sets its bytes (log entry 64),
and any other is ignored; GO accepts a fenced cluster of world 0 and sets RES 1, for any other cluster RES 3 (an acceptable GO during a
test starts none, log entry 65), and its completion 2^23 cycles on lifts the fence where it passed, with zeroed memories and the registers
as they stood, and frees the memories' bytes where it failed (log entry 65). A function-level reset clears the page and enters the world's
departure, and changes nothing of a world that departs already; that of the physical function clears its page and world 0's launch queues;
a hot reset masks every vector, clears the configuration and changes no world. Power-on keeps the fuses, and after a warm reset HBM's
bytes and the scrubs whose lists verify, and returns every register and world to reset; each bring-up step is shown by its bit of BRING
when its turn has come (log entry 47). A sag counts once and skips within two ticks, a recovery ends it. A read of FSTAT answers the
world's state and the lifecycle. Numbers out of range stop. The model's choices beside these: the owner worlds of bundles that
PIPELINE_READY brings (log entry 49), the reset of a FREE world in the controller's order (46). -/
def Obligations.PlatformEvents : Prop :=
  ∀ (s : State) (fn off wd n : Nat) (v : BitVec 64) (x : Word) (flag : Bool),
    (17 ≤ fn → exec (.registerWrite fn off wd v) s = .fault .noSuchInput ∧ exec (.functionLevelReset fn) s = .fault .noSuchInput) ∧
    (12 ≤ n → exec (.hbmTrain n) s = .fault .noSuchInput) ∧ (36 ≤ n → exec (.pipelineReady ⟨n, []⟩) s = .fault .noSuchInput) ∧
    (fn < 17 →
      exec (.registerWrite fn 0x000 8 v) s = exec (.launch fn v) s ∧
      exec (.registerWrite fn 0x010 4 v) s = exec (.ptchg fn (v.setWidth 32)) s ∧
      exec (.registerWrite 0 0x014 4 v) s = exec (.shootw (v.setWidth 32)) s ∧
      exec (.registerWrite 0 0x040 4 v) s = exec (.selftGo (v.setWidth 32)) s ∧
      exec (.registerWrite 0 0x018 8 v) s = .next (s.modFunc 0 fun f => { f with shootVa := v }) ∧
      exec (.registerWrite 0 0x020 8 v) s = .next (s.modFunc 0 fun f => { f with shootLen := v }) ∧
      (¬ listedWrite fn off wd → exec (.registerWrite fn off wd v) s = .next s) ∧
      (0x1000 ≤ off → off + wd ≤ 0x2000 → wd = 1 ∨ wd = 2 ∨ wd = 4 → off % wd = 0 → ∃ t, exec (.registerWrite fn off wd v) s = .next t ∧
        quietly s t ∧ ∀ i, tget 0 (t.func fn).config i = if off ≤ 0x1000 + i ∧ 0x1000 + i < off + wd then
          v.toNat / 2 ^ (8 * (0x1000 + i - off)) % 2 ^ 8 else tget 0 (s.func fn).config i) ∧
      (0x800 ≤ off → off < 0x800 + 16 * (if fn = 0 then 16 else 8) → wd = 4 ∨ wd = 8 → off % wd = 0 → off % 16 + wd ≤ 12 →
        ∃ t, exec (.registerWrite fn off wd v) s = .next t ∧ quietly s t ∧ t.readRegister fn off wd = v.toNat % 2 ^ (8 * wd) ∧
          (t.func fn).masked = (s.func fn).masked) ∧
      (∀ i, i < (if fn = 0 then 16 else 8) → ∃ t, exec (.registerWrite fn (0x800 + 16 * i + 12) 4 v) s = .next t ∧ quietly s t ∧
        (t.func fn).masked.getLsbD i = v.getLsbD 0 ∧ (∀ j, j ≠ i → (t.func fn).masked.getLsbD j = (s.func fn).masked.getLsbD j) ∧
        (v.getLsbD 0 = false → (s.world fn).state = 1 → (s.func fn).allMasked = false → (s.func fn).pendingBits.getLsbD i = true →
          t.irqs = s.irqs ++ [(fn, i)]))) ∧
    (let g := x.toNat % 2 ^ 7
     let fit := g < 96 ∧ (s.cluster g).fenced = true ∧ (s.cluster g).world = 0
     (x.getLsbD 31 = true → s.selftDone = none → fit → ∃ t, exec (.selftGo x) s = .next t ∧ quietly s t ∧ t.selftDone = some (s.now + 2 ^ 23, g) ∧
       t.selft = BitVec.ofNat 32 (2 ^ 29 + g)) ∧
     (x.getLsbD 31 = true → ¬ fit → ∃ t, exec (.selftGo x) s = .next t ∧ quietly s t ∧ t.selftDone = s.selftDone ∧
       t.selft = BitVec.ofNat 32 (3 * 2 ^ 29 + g)) ∧
     (x.getLsbD 31 = false ∨ (fit ∧ s.selftDone.isSome = true) → ∃ t, exec (.selftGo x) s = .next t ∧ quietly s t ∧ t.selftDone = s.selftDone ∧
       t.selft.toNat / 2 ^ 29 = s.selft.toNat / 2 ^ 29 % 4)) ∧
    s.readRegister fn 0x00C 4 = (if fn = 0 then 1 else (s.world fn).state % 8) + s.assay.lifecycle % 16 * 2 ^ 8 ∧
    (s.selftDone = none → exec (.selftComplete flag) s = .next s) ∧
    (∀ c g, s.selftDone = some (c, g) → c ≤ s.now → ∃ t, exec (.selftComplete flag) s = .next t ∧ t.selftDone = none ∧
      t.selft.toNat / 2 ^ 29 = (if flag then 2 else 3) ∧
      (flag = false → (t.cluster g).fenced = (s.cluster g).fenced ∧ (∀ h, h ≠ g → t.cluster h = s.cluster h) ∧
        ∀ k, k < 48 → t.core g k = { s.core g k with
          spad := (t.core g k).spad, imem := (t.core g k).imem, errs := [], imemErrs := [], fixes := (t.core g k).fixes }) ∧
      (flag = true → (t.cluster g).fenced = false ∧ (t.cluster g).image = none ∧ (t.cluster g).run = (s.cluster g).run ∧
        (t.cluster g).counters = (s.cluster g).counters ∧ sameEngineState s t ∧ (∀ h, h ≠ g → t.cluster h = s.cluster h) ∧
        ∀ k, (∀ a, (t.core g k).engineByte a = 0 ∧ Memory.read (t.core g k).imem a = 0) ∧
          (∀ l, (t.core g k).tag l = 0 ∧ (t.core g k).form l = false) ∧ (∀ w, (t.core g k).err w = .sound) ∧
          ∀ i, t.ctx g k i = { s.ctx g k i with status := .never, flight := [] })) ∧
    (1 ≤ fn → fn < 17 →
      ((s.world fn).state = 2 ∨ (s.world fn).state = 3 → exec (.functionLevelReset fn) s = .next s) ∧
      ((s.world fn).state ≠ 2 → (s.world fn).state ≠ 3 → ∃ t q, exec (.functionLevelReset fn) s = .next t ∧ quietly s t ∧
        (t.func fn).resetting = true ∧ (t.func fn).lstat = 0 ∧ (t.func fn).config = [] ∧
        (t.func fn).masked = 0xFFFF ∧ t.assay.queue = s.assay.queue ++ [q] ∧ q.fromHost = true ∧ field q.bytes 0 2 = 0x15 ∧ byteAt q.bytes 12 = fn)) ∧
    (∃ t, exec .pfFunctionLevelReset s = .next t ∧ quietly s t ∧ t.func 0 = {} ∧ t.selft = 0 ∧ t.selftDone = s.selftDone ∧ (∀ p, p < 8 → t.queue 0 p = []) ∧ t.worlds = s.worlds ∧
      (∀ f, f ≠ 0 → t.func f = s.func f)) ∧
    (∃ t, exec .pcieHotReset s = .next t ∧ quietly s t ∧ t.worlds = s.worlds ∧ t.tasks = s.tasks ∧ t.launchQ = s.launchQ ∧ t.clusters = s.clusters ∧
      ∀ f, f < 17 → (t.func f).masked = 0xFFFF ∧ (t.func f).config = [] ∧ (t.func f).pendingBits = (s.func f).pendingBits ∧ (t.func f).lstat = (s.func f).lstat) ∧
    (∃ t, exec (.powerOn flag) s = .next t ∧ t.moduleId = s.moduleId ∧ t.stopSeq = s.stopSeq ∧ t.clusters = State.reset.clusters ∧ t.tick = State.reset.tick ∧
      t.launchQ = State.reset.launchQ ∧ t.images = [] ∧ t.tasks = [] ∧ t.assay.fused = s.assay.fused ∧ t.assay.lifecycle = s.assay.fused ∧
      t.assay.deviceId = s.assay.deviceId ∧ t.assay.authority = s.assay.authority ∧
      t.assay.serving = true ∧ t.bring.getLsbD 13 = true ∧ (flag = false → t.hbm.cells = s.hbm.cells ∧
        ∀ l, (tget {} t.hbm.lines l).owner = none) ∧ (flag = true → t.hbm = {}) ∧
      (flag = false → t.assay.scrubs = s.assay.scrubs.map fun x =>
        let b := Memory.readN s.hbm.cells x.address x.length
        if digestOf b = x.digest then { x with frames := listFrames b, done := x.pointer, resumed := true }
        else { x with frames := List.range (poolTop / 65536), pointer := 0, done := 0, resumed := true }) ∧
      t.assay.scrubs.map (·.world) = s.assay.scrubs.map (·.world) ∧ (∀ z ∈ t.assay.scrubs, (t.world z.world).state = 3)) ∧
    exec .powerFaultReset s = exec (.powerOn true) s ∧
    bringsUp s (exec .pcieLinkUp s) 12 ∧ bringsUp s (exec .tickCalibration s) 14 ∧
    (n < 12 → bringsUp s (exec (.hbmTrain n) s) n) ∧
    (∀ os : List (Nat × Nat), n < 36 → ∃ t, exec (.pipelineReady ⟨n, os⟩) s = .next t ∧ quietly s t ∧ (t.pipe n).ready = true ∧
      t.pipe n = { s.pipe n with ready := true, owners := (t.pipe n).owners } ∧ (os = [] → (t.pipe n).owners = (s.pipe n).owners) ∧
      (∀ b w, os = [(b, w)] → b < 1024 → ∀ i, tget 0 (t.pipe n).owners i = if i = b then w else tget 0 (s.pipe n).owners i) ∧
      (∀ p, p ≠ n → t.pipe p = s.pipe p) ∧
      ((∀ p, p < 36 → p ≠ n → (s.pipe p).ready = true) → t.bringDone.getLsbD 15 = true) ∧
      ((∃ p, p < 36 ∧ p ≠ n ∧ (s.pipe p).ready = false) → t.bring = s.bring ∧ t.bringDone = s.bringDone)) ∧
    (s.sagging = true → exec .supplySag s = .next s) ∧
    (s.sagging = false → ∃ t, exec .supplySag s = .next t ∧ quietly s t ∧ t.sagging = true ∧ t.stretchEvents = satAdd s.stretchEvents 1 ∧
      t.skipWait ≤ 1) ∧
    exec .supplyRecovery s = .next { s with sagging := false }

namespace Sys2Proof.Claims

/-- Every memory of the module is in its canonical form: HBM, each core's scratchpad and instruction memory, and those of the captured image sets. -/
def canonical (s : State) : Prop :=
  let sound := fun (cl : Cluster) => ∀ p ∈ cl.cores, Memory.wf p.2.spad = true ∧ Memory.wf p.2.imem = true
  Memory.wf s.hbm.cells = true ∧ (∀ q ∈ s.clusters, sound q.2) ∧ ∀ i ∈ s.imageSets, ∀ q ∈ i.clusters, sound q.2

end Sys2Proof.Claims

/-- In State.reset every context's s, c, p, v, TSR, TCR, TVA, HVB, FST, FMD and BLP, every core's accumulators, rings, shapes, patterns
and status file, every line's tag, form and poison, every counter, BRING and the launch queues read as the reset columns say; only world 0
is ACTIVE; no input is to come; the memories are canonical. That a byte with nothing listed reads 0 is the model's choice (log entry 2),
and so are, as the spec gives them no reset value, the peer states, the import table, the function registers with their MSI-X masks and
the trigger table (log entry 3). -/
def Obligations.ResetState : Prop :=
  (∀ g k x, let c := State.reset.ctx g k x
    (∀ n, tget 0 c.s n = 0 ∧ tget 0 c.c n = 0 ∧ tget 0 c.v n = 0) ∧ c.p = 1 ∧ c.tsr = 0 ∧ c.tcr = 0 ∧ c.tva = 0 ∧ c.hvb = 0 ∧ c.fst = 0 ∧
      c.fmd = 8 ∧ c.blp = 0 ∧ c.status = .never ∧ c.untimed = []) ∧
  (∀ g k, let c := State.reset.core g k
    (∀ n, tget 0 c.acc n = 0 ∧ tget 0 c.accPoison n = 0 ∧ tget {} c.rings n = {} ∧ tget 0 c.shapes n = 0 ∧ tget 0 c.patterns n = 0 ∧
      tget 0 c.ts n = 0 ∧ tget 0 c.tags n = 0 ∧ tget false c.forms n = false ∧ tget .sound c.errs n = .sound ∧ Memory.read c.spad n = 0 ∧
      tget .sound c.imemErrs n = .sound ∧ Memory.read c.imem n = 0) ∧
    c.fixes = [] ∧ c.patSel = 0 ∧ c.collisions = 0 ∧ c.ceCount = 0 ∧ c.poisonCount = 0 ∧ c.sealCtr = 0 ∧ c.wbuf = []) ∧
  (∀ g, (∀ n, (State.reset.cluster g).counter n = 0 ∧ (tget {} (State.reset.cluster g).triggers n).pending = 0) ∧
    (State.reset.cluster g).run = 0 ∧ (State.reset.cluster g).holdCount = 0 ∧ (State.reset.cluster g).compatCount = 0 ∧
    (State.reset.cluster g).dupCount = 0 ∧ (State.reset.cluster g).satCount = 0 ∧ (State.reset.cluster g).fenced = false) ∧
  (∀ n, State.reset.hallmark n = 0) ∧ State.reset.bring = 0 ∧ State.reset.bringDone = 0 ∧ State.reset.selft = 0 ∧ State.reset.sagging = false ∧
  (∀ f, State.reset.func f = {}) ∧ (∀ n, tget 0 State.reset.peers n = 0 ∧ State.reset.importEntry n = {}) ∧ State.reset.stretchCount = 0 ∧ State.reset.stretchEvents = 0 ∧
  (State.reset.world 0).state = 1 ∧ (∀ w, w ≠ 0 → (State.reset.world w).state = 0) ∧ (∀ w p, State.reset.queue w p = []) ∧
  (∀ p, (State.reset.pipe p).ready = false ∧ (State.reset.port p).trained = false) ∧ State.reset.inputsOk ∧ canonical State.reset

/-- From every state whose inputs to come are events that name ports, functions and dies of the module, the next step answers a next
state, whose inputs are again such, and so does every run of any length, from reset among them: no instruction, event or cycle stops the
machine. The one stop is an input, next in order with nothing in hand, that is no event or names no object: that step ends in the fault
noSuchInput. Inputs are the model's own (log entry 5), and that one waits for its step of bring-up is its choice (log entry 47). -/
def Obligations.StepsGoOn : Prop :=
  (∀ s : State, s.inputsOk → ∃ t, step s = .next t ∧ t.inputsOk) ∧
  (∀ (s : State) (k : Nat), s.inputsOk → RunsOn k s) ∧
  (∀ (s : State) (before after : List (Nat × Instr)) (d : Nat) (i : Instr), s.actions = [] → s.pkt.active = false →
    s.inputs = before ++ (d, i) :: after → d ≤ s.tick.toNat → s.tooEarly i = false →
    (∀ q ∈ before, s.tick.toNat < q.1 ∨ s.tooEarly q.2 = true) →
    (i.isEvent = false ∨ Instr.inRange i = false) → step s = .fault .noSuchInput)

/-- For every state in which HBM, every core's scratchpad and instruction memory, and those of every captured image set list their bytes
in strictly rising order of the address with no byte equal to what an unlisted address reads as, the state that the next step answers is
such a state: no instruction, event, copy, drain, absorb, load, capture, restore, scrub or reset breaks the form on which reading and
comparing memories rests. -/
def Obligations.MemoriesStayCanonical : Prop :=
  ∀ s t : State, canonical s → step s = .next t → canonical t
end

