-- ==== Sys2Proof/Laws/Tbl.lean ====
section
/-! SUPPORT. Reading after writing in a sparse table, and the rising order of its numbers. -/

namespace Sys2Proof.Machine

variable {α : Type}

@[simp] theorem tget_nil (d : α) (n : Nat) : tget d [] n = d := rfl

theorem tget_cons (d : α) (k : Nat) (v : α) (t : Tbl α) (n : Nat) :
    tget d ((k, v) :: t) n = if k = n then v else tget d t n := rfl

@[simp] theorem tget_tput_same (d : α) (t : Tbl α) (n : Nat) (v : α) : tget d (tput t n v) n = v := by
  induction t with
  | nil => simp [tput, tget]
  | cons p t ih =>
    obtain ⟨k, w⟩ := p
    by_cases h1 : n < k
    · simp [tput, h1, tget]
    · by_cases h2 : n = k
      · simp [tput, h2, tget]
      · have h3 : k ≠ n := fun h => h2 h.symm
        simp [tput, h1, h2, h3, tget, ih]

theorem tget_tput_ne (d : α) (t : Tbl α) {n m : Nat} (v : α) (h : m ≠ n) : tget d (tput t n v) m = tget d t m := by
  induction t with
  | nil => simp [tput, tget, Ne.symm h]
  | cons p t ih =>
    obtain ⟨k, w⟩ := p
    by_cases h1 : n < k
    · simp [tput, h1, tget, Ne.symm h]
    · by_cases h2 : n = k
      · subst h2
        simp [tput, tget, Ne.symm h]
      · simp only [tput, h1, h2, if_false, tget, ih]

theorem tget_tput (d : α) (t : Tbl α) (n m : Nat) (v : α) :
    tget d (tput t n v) m = if m = n then v else tget d t m := by
  by_cases h : m = n
  · subst h; simp
  · simp [h, tget_tput_ne d t v h]

theorem tget_tdel_ne (d : α) (t : Tbl α) {n m : Nat} (h : m ≠ n) : tget d (tdel t n) m = tget d t m := by
  induction t with
  | nil => rfl
  | cons p t ih =>
    obtain ⟨k, w⟩ := p
    by_cases h2 : k = n
    · subst h2
      simp [tdel, tget, Ne.symm h, ih]
    · simp only [tdel, h2, if_false, tget, ih]

theorem tget_tset_ne [DecidableEq α] (d : α) (t : Tbl α) {n m : Nat} (v : α) (h : m ≠ n) :
    tget d (tset d t n v) m = tget d t m := by
  by_cases hv : v = d
  · simp [tset, hv, tget_tdel_ne d t h]
  · simp [tset, hv, tget_tput_ne d t v h]

/-- The numbers of a table strictly rise. -/
def Rising (t : Tbl α) : Prop := t.Pairwise (fun a b => a.1 < b.1)

theorem tget_of_lt (d : α) (t : Tbl α) (n : Nat) (h : ∀ p ∈ t, n < p.1) : tget d t n = d := by
  induction t with
  | nil => rfl
  | cons p t ih =>
    obtain ⟨k, w⟩ := p
    have hk : n < k := h (k, w) (by simp)
    have : k ≠ n := by omega
    simp [tget, this, ih (fun p hp => h p (by simp [hp]))]

@[simp] theorem tget_tdel_same (d : α) (t : Tbl α) (n : Nat) : tget d (tdel t n) n = d := by
  induction t with
  | nil => rfl
  | cons p t ih =>
    obtain ⟨k, w⟩ := p
    by_cases hk : k = n
    · simp [tdel, hk, ih]
    · simp [tdel, hk, tget, ih]

@[simp] theorem tget_tset_same [DecidableEq α] (d : α) (t : Tbl α) (n : Nat) (v : α) :
    tget d (tset d t n v) n = v := by
  by_cases hv : v = d
  · subst hv
    simp [tset]
  · simp [tset, hv]

theorem mem_tdel {t : Tbl α} {n : Nat} {p : Nat × α} (h : p ∈ tdel t n) : p ∈ t := by
  induction t with
  | nil => simp [tdel] at h
  | cons q t ih =>
    obtain ⟨k, w⟩ := q
    by_cases hk : k = n
    · simp only [tdel, hk, if_true] at h
      exact List.mem_cons_of_mem _ (ih h)
    · simp [tdel, hk] at h
      rcases h with h | h
      · simp [h]
      · simp [ih h]

theorem mem_tput {t : Tbl α} {n : Nat} {v : α} {p : Nat × α} (h : p ∈ tput t n v) : p = (n, v) ∨ p ∈ t := by
  induction t with
  | nil => simp [tput] at h; exact .inl h
  | cons q t ih =>
    obtain ⟨k, w⟩ := q
    by_cases h1 : n < k
    · simp [tput, h1] at h
      rcases h with h | h | h <;> simp [h]
    · by_cases h2 : n = k
      · simp [tput, h2] at h
        rcases h with h | h <;> simp [h, h2]
      · simp [tput, h1, h2] at h
        rcases h with h | h
        · simp [h]
        · rcases ih h with h | h <;> simp [h]

theorem rising_tdel {t : Tbl α} (n : Nat) (h : Rising t) : Rising (tdel t n) := by
  induction t with
  | nil => exact h
  | cons p t ih =>
    obtain ⟨k, w⟩ := p
    obtain ⟨h1, h2⟩ := List.pairwise_cons.mp h
    by_cases hk : k = n
    · simp only [tdel, hk, if_true]
      exact ih h2
    · simp only [tdel, hk, if_false]
      exact List.pairwise_cons.mpr ⟨fun p hp => h1 p (mem_tdel hp), ih h2⟩

theorem rising_tput {t : Tbl α} (n : Nat) (v : α) (h : Rising t) : Rising (tput t n v) := by
  induction t with
  | nil => simp [tput, Rising]
  | cons p t ih =>
    obtain ⟨k, w⟩ := p
    obtain ⟨h1, h2⟩ := List.pairwise_cons.mp h
    by_cases hk : n < k
    · simp only [tput, hk, if_true]
      refine List.pairwise_cons.mpr ⟨fun p hp => ?_, h⟩
      rcases List.mem_cons.mp hp with rfl | hp
      · exact hk
      · exact Nat.lt_trans hk (h1 p hp)
    · by_cases hn : n = k
      · subst hn
        simp only [tput, hk, if_false, if_true]
        exact List.pairwise_cons.mpr ⟨h1, h2⟩
      · simp only [tput, hk, hn, if_false]
        refine List.pairwise_cons.mpr ⟨fun p hp => ?_, ih h2⟩
        rcases mem_tput hp with rfl | hp
        · have : k < n := by omega
          exact this
        · exact h1 p hp

theorem rising_tset [DecidableEq α] {t : Tbl α} (d : α) (n : Nat) (v : α) (h : Rising t) : Rising (tset d t n v) := by
  by_cases hv : v = d
  · simpa [tset, hv] using rising_tdel n h
  · simpa [tset, hv] using rising_tput n v h

end Sys2Proof.Machine
end

