-- ==== Sys2Proof/Laws/Memory.lean ====
section
/-! SUPPORT. The canonical form of a memory, which every memory operation keeps, and reading after writing. -/

namespace Sys2Proof.Machine

/-- The canonical form in words: addresses rise, and no entry holds what an unlisted address reads as. -/
theorem Memory.wf_iff (m : List Host.Cell) : Memory.wf m = true ↔ Rising m ∧ ∀ p ∈ m, p.2 ≠ (0 : Byte) := by
  induction m with
  | nil => simp [Memory.wf, Rising]
  | cons p t ih =>
    obtain ⟨a, b⟩ := p
    cases t with
    | nil => simp [Memory.wf, Rising]
    | cons q t =>
      obtain ⟨a', b'⟩ := q
      simp only [Memory.wf, Bool.and_eq_true, decide_eq_true_eq, bne_iff_ne, ne_eq]
      rw [ih]
      constructor
      · rintro ⟨⟨hb, ha⟩, hr, hn⟩
        refine ⟨List.pairwise_cons.mpr ⟨fun p hp => ?_, hr⟩, fun p hp => ?_⟩
        · rcases List.mem_cons.mp hp with rfl | hp
          · exact ha
          · exact Nat.lt_trans ha ((List.pairwise_cons.mp hr).1 p hp)
        · rcases List.mem_cons.mp hp with rfl | hp
          · exact hb
          · exact hn p hp
      · rintro ⟨hr, hn⟩
        obtain ⟨h1, h2⟩ := List.pairwise_cons.mp hr
        exact ⟨⟨hn (a, b) (by simp), h1 (a', b') (by simp)⟩, h2, fun p hp => hn p (by simp [hp])⟩

@[simp] theorem Memory.wf_nil : Memory.wf [] = true := rfl

theorem Memory.wf_write {m : List Host.Cell} (a : Nat) (b : Byte) (h : Memory.wf m = true) :
    Memory.wf (Memory.write m a b) = true := by
  rw [Memory.wf_iff] at *
  obtain ⟨hr, hn⟩ := h
  refine ⟨rising_tset 0 a b hr, fun p hp => ?_⟩
  by_cases hb : b = 0
  · simp only [Memory.write, tset, hb, if_true] at hp
    exact hn p (mem_tdel hp)
  · simp only [Memory.write, tset, hb, if_false] at hp
    rcases mem_tput hp with rfl | hp
    · exact hb
    · exact hn p hp

theorem Memory.wf_writeN {m : List Host.Cell} (a : Nat) (bs : List Byte) (h : Memory.wf m = true) :
    Memory.wf (Memory.writeN m a bs) = true := by
  induction bs generalizing m a with
  | nil => exact h
  | cons b t ih => exact ih (a + 1) (Memory.wf_write a b h)

theorem Memory.wf_foldl_write {β : Type} {m : List Host.Cell} (ps : List β) (f : β → Nat × Byte) (h : Memory.wf m = true) :
    Memory.wf (ps.foldl (fun m p => Memory.write m (f p).1 (f p).2) m) = true := by
  induction ps generalizing m with
  | nil => exact h
  | cons p t ih => exact ih (Memory.wf_write (f p).1 (f p).2 h)

@[simp] theorem Memory.read_write_same (m : List Host.Cell) (a : Nat) (b : Byte) : Memory.read (Memory.write m a b) a = b :=
  tget_tset_same 0 m a b

theorem Memory.read_write_ne (m : List Host.Cell) {a a' : Nat} (b : Byte) (h : a' ≠ a) :
    Memory.read (Memory.write m a b) a' = Memory.read m a' :=
  tget_tset_ne 0 m b h

theorem Memory.read_writeN_out (m : List Host.Cell) (a : Nat) (bs : List Byte) {a' : Nat} (h : a' < a ∨ a + bs.length ≤ a') :
    Memory.read (Memory.writeN m a bs) a' = Memory.read m a' := by
  induction bs generalizing m a with
  | nil => rfl
  | cons b t ih =>
    simp only [List.length_cons] at h
    rw [Memory.writeN, ih _ (a + 1) (by omega), Memory.read_write_ne m b (by omega)]

theorem Memory.read_writeN_in (m : List Host.Cell) (a : Nat) (bs : List Byte) (i : Nat) (hi : i < bs.length) : Memory.read (Memory.writeN m a bs) (a + i) = bs[i] := by
  induction bs generalizing m a i with
  | nil => simp at hi
  | cons b t ih =>
    cases i with
    | zero =>
      rw [Memory.writeN, Memory.read_writeN_out _ _ _ (by omega)]
      simp
    | succ i =>
      have := ih (Memory.write m a b) (a + 1) i (by simpa using hi)
      rw [Memory.writeN, show a + (i + 1) = a + 1 + i by omega, this]
      simp

@[simp] theorem leBytes_length (n v : Nat) : (leBytes n v).length = n := by
  induction n generalizing v with
  | zero => rfl
  | succ n ih => simp [leBytes, ih]

theorem leNat_leBytes (n v : Nat) : leNat (leBytes n v) = v % 256 ^ n := by
  induction n generalizing v with
  | zero => simp [leBytes, leNat, Nat.mod_one]
  | succ n ih =>
    rw [leBytes, leNat, ih, Nat.pow_succ, Nat.mul_comm (256 ^ n), Nat.mod_mul]
    simp

end Sys2Proof.Machine
end

