-- ==== Sys2Proof/Laws/State.lean ====
section
/-! SUPPORT. What each update of the state leaves alone, one lemma per field, and what it does to the cluster, core and context
that it names. -/

namespace Sys2Proof.Machine


/-! ### State.modCluster -/

@[simp] theorem State.modCluster_now (s : State) (g : Nat) (f : Cluster → Cluster) : (s.modCluster g f).now = s.now := rfl
@[simp] theorem State.modCluster_tick (s : State) (g : Nat) (f : Cluster → Cluster) : (s.modCluster g f).tick = s.tick := rfl
@[simp] theorem State.modCluster_moduleId (s : State) (g : Nat) (f : Cluster → Cluster) : (s.modCluster g f).moduleId = s.moduleId := rfl
@[simp] theorem State.modCluster_hbm (s : State) (g : Nat) (f : Cluster → Cluster) : (s.modCluster g f).hbm = s.hbm := rfl
@[simp] theorem State.modCluster_nodes (s : State) (g : Nat) (f : Cluster → Cluster) : (s.modCluster g f).nodes = s.nodes := rfl
@[simp] theorem State.modCluster_rekeys (s : State) (g : Nat) (f : Cluster → Cluster) : (s.modCluster g f).rekeys = s.rekeys := rfl
@[simp] theorem State.modCluster_moved (s : State) (g : Nat) (f : Cluster → Cluster) : (s.modCluster g f).moved = s.moved := rfl
@[simp] theorem State.modCluster_worlds (s : State) (g : Nat) (f : Cluster → Cluster) : (s.modCluster g f).worlds = s.worlds := rfl
@[simp] theorem State.modCluster_peers (s : State) (g : Nat) (f : Cluster → Cluster) : (s.modCluster g f).peers = s.peers := rfl
@[simp] theorem State.modCluster_imports (s : State) (g : Nat) (f : Cluster → Cluster) : (s.modCluster g f).imports = s.imports := rfl
@[simp] theorem State.modCluster_images (s : State) (g : Nat) (f : Cluster → Cluster) : (s.modCluster g f).images = s.images := rfl
@[simp] theorem State.modCluster_imageSets (s : State) (g : Nat) (f : Cluster → Cluster) : (s.modCluster g f).imageSets = s.imageSets := rfl
@[simp] theorem State.modCluster_parks (s : State) (g : Nat) (f : Cluster → Cluster) : (s.modCluster g f).parks = s.parks := rfl
@[simp] theorem State.modCluster_restores (s : State) (g : Nat) (f : Cluster → Cluster) : (s.modCluster g f).restores = s.restores := rfl
@[simp] theorem State.modCluster_launchQ (s : State) (g : Nat) (f : Cluster → Cluster) : (s.modCluster g f).launchQ = s.launchQ := rfl
@[simp] theorem State.modCluster_tasks (s : State) (g : Nat) (f : Cluster → Cluster) : (s.modCluster g f).tasks = s.tasks := rfl
@[simp] theorem State.modCluster_domains (s : State) (g : Nat) (f : Cluster → Cluster) : (s.modCluster g f).domains = s.domains := rfl
@[simp] theorem State.modCluster_nextTask (s : State) (g : Nat) (f : Cluster → Cluster) : (s.modCluster g f).nextTask = s.nextTask := rfl
@[simp] theorem State.modCluster_admitted (s : State) (g : Nat) (f : Cluster → Cluster) : (s.modCluster g f).admitted = s.admitted := rfl
@[simp] theorem State.modCluster_stopSeq (s : State) (g : Nat) (f : Cluster → Cluster) : (s.modCluster g f).stopSeq = s.stopSeq := rfl
@[simp] theorem State.modCluster_migrations (s : State) (g : Nat) (f : Cluster → Cluster) : (s.modCluster g f).migrations = s.migrations := rfl
@[simp] theorem State.modCluster_shootdowns (s : State) (g : Nat) (f : Cluster → Cluster) : (s.modCluster g f).shootdowns = s.shootdowns := rfl
@[simp] theorem State.modCluster_assay (s : State) (g : Nat) (f : Cluster → Cluster) : (s.modCluster g f).assay = s.assay := rfl
@[simp] theorem State.modCluster_ports (s : State) (g : Nat) (f : Cluster → Cluster) : (s.modCluster g f).ports = s.ports := rfl
@[simp] theorem State.modCluster_clockParent (s : State) (g : Nat) (f : Cluster → Cluster) : (s.modCluster g f).clockParent = s.clockParent := rfl
@[simp] theorem State.modCluster_pipes (s : State) (g : Nat) (f : Cluster → Cluster) : (s.modCluster g f).pipes = s.pipes := rfl
@[simp] theorem State.modCluster_absorbQ (s : State) (g : Nat) (f : Cluster → Cluster) : (s.modCluster g f).absorbQ = s.absorbQ := rfl
@[simp] theorem State.modCluster_cairns (s : State) (g : Nat) (f : Cluster → Cluster) : (s.modCluster g f).cairns = s.cairns := rfl
@[simp] theorem State.modCluster_funcs (s : State) (g : Nat) (f : Cluster → Cluster) : (s.modCluster g f).funcs = s.funcs := rfl
@[simp] theorem State.modCluster_bring (s : State) (g : Nat) (f : Cluster → Cluster) : (s.modCluster g f).bring = s.bring := rfl
@[simp] theorem State.modCluster_bringDone (s : State) (g : Nat) (f : Cluster → Cluster) : (s.modCluster g f).bringDone = s.bringDone := rfl
@[simp] theorem State.modCluster_bports (s : State) (g : Nat) (f : Cluster → Cluster) : (s.modCluster g f).bports = s.bports := rfl
@[simp] theorem State.modCluster_selft (s : State) (g : Nat) (f : Cluster → Cluster) : (s.modCluster g f).selft = s.selft := rfl
@[simp] theorem State.modCluster_selftDone (s : State) (g : Nat) (f : Cluster → Cluster) : (s.modCluster g f).selftDone = s.selftDone := rfl
@[simp] theorem State.modCluster_sagging (s : State) (g : Nat) (f : Cluster → Cluster) : (s.modCluster g f).sagging = s.sagging := rfl
@[simp] theorem State.modCluster_stretchCount (s : State) (g : Nat) (f : Cluster → Cluster) : (s.modCluster g f).stretchCount = s.stretchCount := rfl
@[simp] theorem State.modCluster_stretchEvents (s : State) (g : Nat) (f : Cluster → Cluster) : (s.modCluster g f).stretchEvents = s.stretchEvents := rfl
@[simp] theorem State.modCluster_skipPhase (s : State) (g : Nat) (f : Cluster → Cluster) : (s.modCluster g f).skipPhase = s.skipPhase := rfl
@[simp] theorem State.modCluster_skipWait (s : State) (g : Nat) (f : Cluster → Cluster) : (s.modCluster g f).skipWait = s.skipWait := rfl
@[simp] theorem State.modCluster_skipped (s : State) (g : Nat) (f : Cluster → Cluster) : (s.modCluster g f).skipped = s.skipped := rfl
@[simp] theorem State.modCluster_refilled (s : State) (g : Nat) (f : Cluster → Cluster) : (s.modCluster g f).refilled = s.refilled := rfl
@[simp] theorem State.modCluster_nextUntimed (s : State) (g : Nat) (f : Cluster → Cluster) : (s.modCluster g f).nextUntimed = s.nextUntimed := rfl
@[simp] theorem State.modCluster_inputs (s : State) (g : Nat) (f : Cluster → Cluster) : (s.modCluster g f).inputs = s.inputs := rfl
@[simp] theorem State.modCluster_irqs (s : State) (g : Nat) (f : Cluster → Cluster) : (s.modCluster g f).irqs = s.irqs := rfl
@[simp] theorem State.modCluster_sent (s : State) (g : Nat) (f : Cluster → Cluster) : (s.modCluster g f).sent = s.sent := rfl
@[simp] theorem State.modCluster_fresh (s : State) (g : Nat) (f : Cluster → Cluster) : (s.modCluster g f).fresh = s.fresh := rfl
@[simp] theorem State.modCluster_cur (s : State) (g : Nat) (f : Cluster → Cluster) : (s.modCluster g f).cur = s.cur := rfl
@[simp] theorem State.modCluster_pkt (s : State) (g : Nat) (f : Cluster → Cluster) : (s.modCluster g f).pkt = s.pkt := rfl
@[simp] theorem State.modCluster_actions (s : State) (g : Nat) (f : Cluster → Cluster) : (s.modCluster g f).actions = s.actions := rfl

/-! ### State.modCore -/

@[simp] theorem State.modCore_now (s : State) (g k : Nat) (f : Core → Core) : (s.modCore g k f).now = s.now := rfl
@[simp] theorem State.modCore_tick (s : State) (g k : Nat) (f : Core → Core) : (s.modCore g k f).tick = s.tick := rfl
@[simp] theorem State.modCore_moduleId (s : State) (g k : Nat) (f : Core → Core) : (s.modCore g k f).moduleId = s.moduleId := rfl
@[simp] theorem State.modCore_hbm (s : State) (g k : Nat) (f : Core → Core) : (s.modCore g k f).hbm = s.hbm := rfl
@[simp] theorem State.modCore_nodes (s : State) (g k : Nat) (f : Core → Core) : (s.modCore g k f).nodes = s.nodes := rfl
@[simp] theorem State.modCore_rekeys (s : State) (g k : Nat) (f : Core → Core) : (s.modCore g k f).rekeys = s.rekeys := rfl
@[simp] theorem State.modCore_moved (s : State) (g k : Nat) (f : Core → Core) : (s.modCore g k f).moved = s.moved := rfl
@[simp] theorem State.modCore_worlds (s : State) (g k : Nat) (f : Core → Core) : (s.modCore g k f).worlds = s.worlds := rfl
@[simp] theorem State.modCore_peers (s : State) (g k : Nat) (f : Core → Core) : (s.modCore g k f).peers = s.peers := rfl
@[simp] theorem State.modCore_imports (s : State) (g k : Nat) (f : Core → Core) : (s.modCore g k f).imports = s.imports := rfl
@[simp] theorem State.modCore_images (s : State) (g k : Nat) (f : Core → Core) : (s.modCore g k f).images = s.images := rfl
@[simp] theorem State.modCore_imageSets (s : State) (g k : Nat) (f : Core → Core) : (s.modCore g k f).imageSets = s.imageSets := rfl
@[simp] theorem State.modCore_parks (s : State) (g k : Nat) (f : Core → Core) : (s.modCore g k f).parks = s.parks := rfl
@[simp] theorem State.modCore_restores (s : State) (g k : Nat) (f : Core → Core) : (s.modCore g k f).restores = s.restores := rfl
@[simp] theorem State.modCore_launchQ (s : State) (g k : Nat) (f : Core → Core) : (s.modCore g k f).launchQ = s.launchQ := rfl
@[simp] theorem State.modCore_tasks (s : State) (g k : Nat) (f : Core → Core) : (s.modCore g k f).tasks = s.tasks := rfl
@[simp] theorem State.modCore_domains (s : State) (g k : Nat) (f : Core → Core) : (s.modCore g k f).domains = s.domains := rfl
@[simp] theorem State.modCore_nextTask (s : State) (g k : Nat) (f : Core → Core) : (s.modCore g k f).nextTask = s.nextTask := rfl
@[simp] theorem State.modCore_admitted (s : State) (g k : Nat) (f : Core → Core) : (s.modCore g k f).admitted = s.admitted := rfl
@[simp] theorem State.modCore_stopSeq (s : State) (g k : Nat) (f : Core → Core) : (s.modCore g k f).stopSeq = s.stopSeq := rfl
@[simp] theorem State.modCore_migrations (s : State) (g k : Nat) (f : Core → Core) : (s.modCore g k f).migrations = s.migrations := rfl
@[simp] theorem State.modCore_shootdowns (s : State) (g k : Nat) (f : Core → Core) : (s.modCore g k f).shootdowns = s.shootdowns := rfl
@[simp] theorem State.modCore_assay (s : State) (g k : Nat) (f : Core → Core) : (s.modCore g k f).assay = s.assay := rfl
@[simp] theorem State.modCore_ports (s : State) (g k : Nat) (f : Core → Core) : (s.modCore g k f).ports = s.ports := rfl
@[simp] theorem State.modCore_clockParent (s : State) (g k : Nat) (f : Core → Core) : (s.modCore g k f).clockParent = s.clockParent := rfl
@[simp] theorem State.modCore_pipes (s : State) (g k : Nat) (f : Core → Core) : (s.modCore g k f).pipes = s.pipes := rfl
@[simp] theorem State.modCore_absorbQ (s : State) (g k : Nat) (f : Core → Core) : (s.modCore g k f).absorbQ = s.absorbQ := rfl
@[simp] theorem State.modCore_cairns (s : State) (g k : Nat) (f : Core → Core) : (s.modCore g k f).cairns = s.cairns := rfl
@[simp] theorem State.modCore_funcs (s : State) (g k : Nat) (f : Core → Core) : (s.modCore g k f).funcs = s.funcs := rfl
@[simp] theorem State.modCore_bring (s : State) (g k : Nat) (f : Core → Core) : (s.modCore g k f).bring = s.bring := rfl
@[simp] theorem State.modCore_bringDone (s : State) (g k : Nat) (f : Core → Core) : (s.modCore g k f).bringDone = s.bringDone := rfl
@[simp] theorem State.modCore_bports (s : State) (g k : Nat) (f : Core → Core) : (s.modCore g k f).bports = s.bports := rfl
@[simp] theorem State.modCore_selft (s : State) (g k : Nat) (f : Core → Core) : (s.modCore g k f).selft = s.selft := rfl
@[simp] theorem State.modCore_selftDone (s : State) (g k : Nat) (f : Core → Core) : (s.modCore g k f).selftDone = s.selftDone := rfl
@[simp] theorem State.modCore_sagging (s : State) (g k : Nat) (f : Core → Core) : (s.modCore g k f).sagging = s.sagging := rfl
@[simp] theorem State.modCore_stretchCount (s : State) (g k : Nat) (f : Core → Core) : (s.modCore g k f).stretchCount = s.stretchCount := rfl
@[simp] theorem State.modCore_stretchEvents (s : State) (g k : Nat) (f : Core → Core) : (s.modCore g k f).stretchEvents = s.stretchEvents := rfl
@[simp] theorem State.modCore_skipPhase (s : State) (g k : Nat) (f : Core → Core) : (s.modCore g k f).skipPhase = s.skipPhase := rfl
@[simp] theorem State.modCore_skipWait (s : State) (g k : Nat) (f : Core → Core) : (s.modCore g k f).skipWait = s.skipWait := rfl
@[simp] theorem State.modCore_skipped (s : State) (g k : Nat) (f : Core → Core) : (s.modCore g k f).skipped = s.skipped := rfl
@[simp] theorem State.modCore_refilled (s : State) (g k : Nat) (f : Core → Core) : (s.modCore g k f).refilled = s.refilled := rfl
@[simp] theorem State.modCore_nextUntimed (s : State) (g k : Nat) (f : Core → Core) : (s.modCore g k f).nextUntimed = s.nextUntimed := rfl
@[simp] theorem State.modCore_inputs (s : State) (g k : Nat) (f : Core → Core) : (s.modCore g k f).inputs = s.inputs := rfl
@[simp] theorem State.modCore_irqs (s : State) (g k : Nat) (f : Core → Core) : (s.modCore g k f).irqs = s.irqs := rfl
@[simp] theorem State.modCore_sent (s : State) (g k : Nat) (f : Core → Core) : (s.modCore g k f).sent = s.sent := rfl
@[simp] theorem State.modCore_fresh (s : State) (g k : Nat) (f : Core → Core) : (s.modCore g k f).fresh = s.fresh := rfl
@[simp] theorem State.modCore_cur (s : State) (g k : Nat) (f : Core → Core) : (s.modCore g k f).cur = s.cur := rfl
@[simp] theorem State.modCore_pkt (s : State) (g k : Nat) (f : Core → Core) : (s.modCore g k f).pkt = s.pkt := rfl
@[simp] theorem State.modCore_actions (s : State) (g k : Nat) (f : Core → Core) : (s.modCore g k f).actions = s.actions := rfl

/-! ### State.modCtx -/

@[simp] theorem State.modCtx_now (s : State) (g k x : Nat) (f : Ctx → Ctx) : (s.modCtx g k x f).now = s.now := rfl
@[simp] theorem State.modCtx_tick (s : State) (g k x : Nat) (f : Ctx → Ctx) : (s.modCtx g k x f).tick = s.tick := rfl
@[simp] theorem State.modCtx_moduleId (s : State) (g k x : Nat) (f : Ctx → Ctx) : (s.modCtx g k x f).moduleId = s.moduleId := rfl
@[simp] theorem State.modCtx_hbm (s : State) (g k x : Nat) (f : Ctx → Ctx) : (s.modCtx g k x f).hbm = s.hbm := rfl
@[simp] theorem State.modCtx_nodes (s : State) (g k x : Nat) (f : Ctx → Ctx) : (s.modCtx g k x f).nodes = s.nodes := rfl
@[simp] theorem State.modCtx_rekeys (s : State) (g k x : Nat) (f : Ctx → Ctx) : (s.modCtx g k x f).rekeys = s.rekeys := rfl
@[simp] theorem State.modCtx_moved (s : State) (g k x : Nat) (f : Ctx → Ctx) : (s.modCtx g k x f).moved = s.moved := rfl
@[simp] theorem State.modCtx_worlds (s : State) (g k x : Nat) (f : Ctx → Ctx) : (s.modCtx g k x f).worlds = s.worlds := rfl
@[simp] theorem State.modCtx_peers (s : State) (g k x : Nat) (f : Ctx → Ctx) : (s.modCtx g k x f).peers = s.peers := rfl
@[simp] theorem State.modCtx_imports (s : State) (g k x : Nat) (f : Ctx → Ctx) : (s.modCtx g k x f).imports = s.imports := rfl
@[simp] theorem State.modCtx_images (s : State) (g k x : Nat) (f : Ctx → Ctx) : (s.modCtx g k x f).images = s.images := rfl
@[simp] theorem State.modCtx_imageSets (s : State) (g k x : Nat) (f : Ctx → Ctx) : (s.modCtx g k x f).imageSets = s.imageSets := rfl
@[simp] theorem State.modCtx_parks (s : State) (g k x : Nat) (f : Ctx → Ctx) : (s.modCtx g k x f).parks = s.parks := rfl
@[simp] theorem State.modCtx_restores (s : State) (g k x : Nat) (f : Ctx → Ctx) : (s.modCtx g k x f).restores = s.restores := rfl
@[simp] theorem State.modCtx_launchQ (s : State) (g k x : Nat) (f : Ctx → Ctx) : (s.modCtx g k x f).launchQ = s.launchQ := rfl
@[simp] theorem State.modCtx_tasks (s : State) (g k x : Nat) (f : Ctx → Ctx) : (s.modCtx g k x f).tasks = s.tasks := rfl
@[simp] theorem State.modCtx_domains (s : State) (g k x : Nat) (f : Ctx → Ctx) : (s.modCtx g k x f).domains = s.domains := rfl
@[simp] theorem State.modCtx_nextTask (s : State) (g k x : Nat) (f : Ctx → Ctx) : (s.modCtx g k x f).nextTask = s.nextTask := rfl
@[simp] theorem State.modCtx_admitted (s : State) (g k x : Nat) (f : Ctx → Ctx) : (s.modCtx g k x f).admitted = s.admitted := rfl
@[simp] theorem State.modCtx_stopSeq (s : State) (g k x : Nat) (f : Ctx → Ctx) : (s.modCtx g k x f).stopSeq = s.stopSeq := rfl
@[simp] theorem State.modCtx_migrations (s : State) (g k x : Nat) (f : Ctx → Ctx) : (s.modCtx g k x f).migrations = s.migrations := rfl
@[simp] theorem State.modCtx_shootdowns (s : State) (g k x : Nat) (f : Ctx → Ctx) : (s.modCtx g k x f).shootdowns = s.shootdowns := rfl
@[simp] theorem State.modCtx_assay (s : State) (g k x : Nat) (f : Ctx → Ctx) : (s.modCtx g k x f).assay = s.assay := rfl
@[simp] theorem State.modCtx_ports (s : State) (g k x : Nat) (f : Ctx → Ctx) : (s.modCtx g k x f).ports = s.ports := rfl
@[simp] theorem State.modCtx_clockParent (s : State) (g k x : Nat) (f : Ctx → Ctx) : (s.modCtx g k x f).clockParent = s.clockParent := rfl
@[simp] theorem State.modCtx_pipes (s : State) (g k x : Nat) (f : Ctx → Ctx) : (s.modCtx g k x f).pipes = s.pipes := rfl
@[simp] theorem State.modCtx_absorbQ (s : State) (g k x : Nat) (f : Ctx → Ctx) : (s.modCtx g k x f).absorbQ = s.absorbQ := rfl
@[simp] theorem State.modCtx_cairns (s : State) (g k x : Nat) (f : Ctx → Ctx) : (s.modCtx g k x f).cairns = s.cairns := rfl
@[simp] theorem State.modCtx_funcs (s : State) (g k x : Nat) (f : Ctx → Ctx) : (s.modCtx g k x f).funcs = s.funcs := rfl
@[simp] theorem State.modCtx_bring (s : State) (g k x : Nat) (f : Ctx → Ctx) : (s.modCtx g k x f).bring = s.bring := rfl
@[simp] theorem State.modCtx_bringDone (s : State) (g k x : Nat) (f : Ctx → Ctx) : (s.modCtx g k x f).bringDone = s.bringDone := rfl
@[simp] theorem State.modCtx_bports (s : State) (g k x : Nat) (f : Ctx → Ctx) : (s.modCtx g k x f).bports = s.bports := rfl
@[simp] theorem State.modCtx_selft (s : State) (g k x : Nat) (f : Ctx → Ctx) : (s.modCtx g k x f).selft = s.selft := rfl
@[simp] theorem State.modCtx_selftDone (s : State) (g k x : Nat) (f : Ctx → Ctx) : (s.modCtx g k x f).selftDone = s.selftDone := rfl
@[simp] theorem State.modCtx_sagging (s : State) (g k x : Nat) (f : Ctx → Ctx) : (s.modCtx g k x f).sagging = s.sagging := rfl
@[simp] theorem State.modCtx_stretchCount (s : State) (g k x : Nat) (f : Ctx → Ctx) : (s.modCtx g k x f).stretchCount = s.stretchCount := rfl
@[simp] theorem State.modCtx_stretchEvents (s : State) (g k x : Nat) (f : Ctx → Ctx) : (s.modCtx g k x f).stretchEvents = s.stretchEvents := rfl
@[simp] theorem State.modCtx_skipPhase (s : State) (g k x : Nat) (f : Ctx → Ctx) : (s.modCtx g k x f).skipPhase = s.skipPhase := rfl
@[simp] theorem State.modCtx_skipWait (s : State) (g k x : Nat) (f : Ctx → Ctx) : (s.modCtx g k x f).skipWait = s.skipWait := rfl
@[simp] theorem State.modCtx_skipped (s : State) (g k x : Nat) (f : Ctx → Ctx) : (s.modCtx g k x f).skipped = s.skipped := rfl
@[simp] theorem State.modCtx_refilled (s : State) (g k x : Nat) (f : Ctx → Ctx) : (s.modCtx g k x f).refilled = s.refilled := rfl
@[simp] theorem State.modCtx_nextUntimed (s : State) (g k x : Nat) (f : Ctx → Ctx) : (s.modCtx g k x f).nextUntimed = s.nextUntimed := rfl
@[simp] theorem State.modCtx_inputs (s : State) (g k x : Nat) (f : Ctx → Ctx) : (s.modCtx g k x f).inputs = s.inputs := rfl
@[simp] theorem State.modCtx_irqs (s : State) (g k x : Nat) (f : Ctx → Ctx) : (s.modCtx g k x f).irqs = s.irqs := rfl
@[simp] theorem State.modCtx_sent (s : State) (g k x : Nat) (f : Ctx → Ctx) : (s.modCtx g k x f).sent = s.sent := rfl
@[simp] theorem State.modCtx_fresh (s : State) (g k x : Nat) (f : Ctx → Ctx) : (s.modCtx g k x f).fresh = s.fresh := rfl
@[simp] theorem State.modCtx_cur (s : State) (g k x : Nat) (f : Ctx → Ctx) : (s.modCtx g k x f).cur = s.cur := rfl
@[simp] theorem State.modCtx_pkt (s : State) (g k x : Nat) (f : Ctx → Ctx) : (s.modCtx g k x f).pkt = s.pkt := rfl
@[simp] theorem State.modCtx_actions (s : State) (g k x : Nat) (f : Ctx → Ctx) : (s.modCtx g k x f).actions = s.actions := rfl

/-! ### State.modHere -/

@[simp] theorem State.modHere_now (s : State) (f : Ctx → Ctx) : (s.modHere f).now = s.now := rfl
@[simp] theorem State.modHere_tick (s : State) (f : Ctx → Ctx) : (s.modHere f).tick = s.tick := rfl
@[simp] theorem State.modHere_moduleId (s : State) (f : Ctx → Ctx) : (s.modHere f).moduleId = s.moduleId := rfl
@[simp] theorem State.modHere_hbm (s : State) (f : Ctx → Ctx) : (s.modHere f).hbm = s.hbm := rfl
@[simp] theorem State.modHere_nodes (s : State) (f : Ctx → Ctx) : (s.modHere f).nodes = s.nodes := rfl
@[simp] theorem State.modHere_rekeys (s : State) (f : Ctx → Ctx) : (s.modHere f).rekeys = s.rekeys := rfl
@[simp] theorem State.modHere_moved (s : State) (f : Ctx → Ctx) : (s.modHere f).moved = s.moved := rfl
@[simp] theorem State.modHere_worlds (s : State) (f : Ctx → Ctx) : (s.modHere f).worlds = s.worlds := rfl
@[simp] theorem State.modHere_peers (s : State) (f : Ctx → Ctx) : (s.modHere f).peers = s.peers := rfl
@[simp] theorem State.modHere_imports (s : State) (f : Ctx → Ctx) : (s.modHere f).imports = s.imports := rfl
@[simp] theorem State.modHere_images (s : State) (f : Ctx → Ctx) : (s.modHere f).images = s.images := rfl
@[simp] theorem State.modHere_imageSets (s : State) (f : Ctx → Ctx) : (s.modHere f).imageSets = s.imageSets := rfl
@[simp] theorem State.modHere_parks (s : State) (f : Ctx → Ctx) : (s.modHere f).parks = s.parks := rfl
@[simp] theorem State.modHere_restores (s : State) (f : Ctx → Ctx) : (s.modHere f).restores = s.restores := rfl
@[simp] theorem State.modHere_launchQ (s : State) (f : Ctx → Ctx) : (s.modHere f).launchQ = s.launchQ := rfl
@[simp] theorem State.modHere_tasks (s : State) (f : Ctx → Ctx) : (s.modHere f).tasks = s.tasks := rfl
@[simp] theorem State.modHere_domains (s : State) (f : Ctx → Ctx) : (s.modHere f).domains = s.domains := rfl
@[simp] theorem State.modHere_nextTask (s : State) (f : Ctx → Ctx) : (s.modHere f).nextTask = s.nextTask := rfl
@[simp] theorem State.modHere_admitted (s : State) (f : Ctx → Ctx) : (s.modHere f).admitted = s.admitted := rfl
@[simp] theorem State.modHere_stopSeq (s : State) (f : Ctx → Ctx) : (s.modHere f).stopSeq = s.stopSeq := rfl
@[simp] theorem State.modHere_migrations (s : State) (f : Ctx → Ctx) : (s.modHere f).migrations = s.migrations := rfl
@[simp] theorem State.modHere_shootdowns (s : State) (f : Ctx → Ctx) : (s.modHere f).shootdowns = s.shootdowns := rfl
@[simp] theorem State.modHere_assay (s : State) (f : Ctx → Ctx) : (s.modHere f).assay = s.assay := rfl
@[simp] theorem State.modHere_ports (s : State) (f : Ctx → Ctx) : (s.modHere f).ports = s.ports := rfl
@[simp] theorem State.modHere_clockParent (s : State) (f : Ctx → Ctx) : (s.modHere f).clockParent = s.clockParent := rfl
@[simp] theorem State.modHere_pipes (s : State) (f : Ctx → Ctx) : (s.modHere f).pipes = s.pipes := rfl
@[simp] theorem State.modHere_absorbQ (s : State) (f : Ctx → Ctx) : (s.modHere f).absorbQ = s.absorbQ := rfl
@[simp] theorem State.modHere_cairns (s : State) (f : Ctx → Ctx) : (s.modHere f).cairns = s.cairns := rfl
@[simp] theorem State.modHere_funcs (s : State) (f : Ctx → Ctx) : (s.modHere f).funcs = s.funcs := rfl
@[simp] theorem State.modHere_bring (s : State) (f : Ctx → Ctx) : (s.modHere f).bring = s.bring := rfl
@[simp] theorem State.modHere_bringDone (s : State) (f : Ctx → Ctx) : (s.modHere f).bringDone = s.bringDone := rfl
@[simp] theorem State.modHere_bports (s : State) (f : Ctx → Ctx) : (s.modHere f).bports = s.bports := rfl
@[simp] theorem State.modHere_selft (s : State) (f : Ctx → Ctx) : (s.modHere f).selft = s.selft := rfl
@[simp] theorem State.modHere_selftDone (s : State) (f : Ctx → Ctx) : (s.modHere f).selftDone = s.selftDone := rfl
@[simp] theorem State.modHere_sagging (s : State) (f : Ctx → Ctx) : (s.modHere f).sagging = s.sagging := rfl
@[simp] theorem State.modHere_stretchCount (s : State) (f : Ctx → Ctx) : (s.modHere f).stretchCount = s.stretchCount := rfl
@[simp] theorem State.modHere_stretchEvents (s : State) (f : Ctx → Ctx) : (s.modHere f).stretchEvents = s.stretchEvents := rfl
@[simp] theorem State.modHere_skipPhase (s : State) (f : Ctx → Ctx) : (s.modHere f).skipPhase = s.skipPhase := rfl
@[simp] theorem State.modHere_skipWait (s : State) (f : Ctx → Ctx) : (s.modHere f).skipWait = s.skipWait := rfl
@[simp] theorem State.modHere_skipped (s : State) (f : Ctx → Ctx) : (s.modHere f).skipped = s.skipped := rfl
@[simp] theorem State.modHere_refilled (s : State) (f : Ctx → Ctx) : (s.modHere f).refilled = s.refilled := rfl
@[simp] theorem State.modHere_nextUntimed (s : State) (f : Ctx → Ctx) : (s.modHere f).nextUntimed = s.nextUntimed := rfl
@[simp] theorem State.modHere_inputs (s : State) (f : Ctx → Ctx) : (s.modHere f).inputs = s.inputs := rfl
@[simp] theorem State.modHere_irqs (s : State) (f : Ctx → Ctx) : (s.modHere f).irqs = s.irqs := rfl
@[simp] theorem State.modHere_sent (s : State) (f : Ctx → Ctx) : (s.modHere f).sent = s.sent := rfl
@[simp] theorem State.modHere_fresh (s : State) (f : Ctx → Ctx) : (s.modHere f).fresh = s.fresh := rfl
@[simp] theorem State.modHere_cur (s : State) (f : Ctx → Ctx) : (s.modHere f).cur = s.cur := rfl
@[simp] theorem State.modHere_pkt (s : State) (f : Ctx → Ctx) : (s.modHere f).pkt = s.pkt := rfl
@[simp] theorem State.modHere_actions (s : State) (f : Ctx → Ctx) : (s.modHere f).actions = s.actions := rfl

/-! ### State.modHereCore -/

@[simp] theorem State.modHereCore_now (s : State) (f : Core → Core) : (s.modHereCore f).now = s.now := rfl
@[simp] theorem State.modHereCore_tick (s : State) (f : Core → Core) : (s.modHereCore f).tick = s.tick := rfl
@[simp] theorem State.modHereCore_moduleId (s : State) (f : Core → Core) : (s.modHereCore f).moduleId = s.moduleId := rfl
@[simp] theorem State.modHereCore_hbm (s : State) (f : Core → Core) : (s.modHereCore f).hbm = s.hbm := rfl
@[simp] theorem State.modHereCore_nodes (s : State) (f : Core → Core) : (s.modHereCore f).nodes = s.nodes := rfl
@[simp] theorem State.modHereCore_rekeys (s : State) (f : Core → Core) : (s.modHereCore f).rekeys = s.rekeys := rfl
@[simp] theorem State.modHereCore_moved (s : State) (f : Core → Core) : (s.modHereCore f).moved = s.moved := rfl
@[simp] theorem State.modHereCore_worlds (s : State) (f : Core → Core) : (s.modHereCore f).worlds = s.worlds := rfl
@[simp] theorem State.modHereCore_peers (s : State) (f : Core → Core) : (s.modHereCore f).peers = s.peers := rfl
@[simp] theorem State.modHereCore_imports (s : State) (f : Core → Core) : (s.modHereCore f).imports = s.imports := rfl
@[simp] theorem State.modHereCore_images (s : State) (f : Core → Core) : (s.modHereCore f).images = s.images := rfl
@[simp] theorem State.modHereCore_imageSets (s : State) (f : Core → Core) : (s.modHereCore f).imageSets = s.imageSets := rfl
@[simp] theorem State.modHereCore_parks (s : State) (f : Core → Core) : (s.modHereCore f).parks = s.parks := rfl
@[simp] theorem State.modHereCore_restores (s : State) (f : Core → Core) : (s.modHereCore f).restores = s.restores := rfl
@[simp] theorem State.modHereCore_launchQ (s : State) (f : Core → Core) : (s.modHereCore f).launchQ = s.launchQ := rfl
@[simp] theorem State.modHereCore_tasks (s : State) (f : Core → Core) : (s.modHereCore f).tasks = s.tasks := rfl
@[simp] theorem State.modHereCore_domains (s : State) (f : Core → Core) : (s.modHereCore f).domains = s.domains := rfl
@[simp] theorem State.modHereCore_nextTask (s : State) (f : Core → Core) : (s.modHereCore f).nextTask = s.nextTask := rfl
@[simp] theorem State.modHereCore_admitted (s : State) (f : Core → Core) : (s.modHereCore f).admitted = s.admitted := rfl
@[simp] theorem State.modHereCore_stopSeq (s : State) (f : Core → Core) : (s.modHereCore f).stopSeq = s.stopSeq := rfl
@[simp] theorem State.modHereCore_migrations (s : State) (f : Core → Core) : (s.modHereCore f).migrations = s.migrations := rfl
@[simp] theorem State.modHereCore_shootdowns (s : State) (f : Core → Core) : (s.modHereCore f).shootdowns = s.shootdowns := rfl
@[simp] theorem State.modHereCore_assay (s : State) (f : Core → Core) : (s.modHereCore f).assay = s.assay := rfl
@[simp] theorem State.modHereCore_ports (s : State) (f : Core → Core) : (s.modHereCore f).ports = s.ports := rfl
@[simp] theorem State.modHereCore_clockParent (s : State) (f : Core → Core) : (s.modHereCore f).clockParent = s.clockParent := rfl
@[simp] theorem State.modHereCore_pipes (s : State) (f : Core → Core) : (s.modHereCore f).pipes = s.pipes := rfl
@[simp] theorem State.modHereCore_absorbQ (s : State) (f : Core → Core) : (s.modHereCore f).absorbQ = s.absorbQ := rfl
@[simp] theorem State.modHereCore_cairns (s : State) (f : Core → Core) : (s.modHereCore f).cairns = s.cairns := rfl
@[simp] theorem State.modHereCore_funcs (s : State) (f : Core → Core) : (s.modHereCore f).funcs = s.funcs := rfl
@[simp] theorem State.modHereCore_bring (s : State) (f : Core → Core) : (s.modHereCore f).bring = s.bring := rfl
@[simp] theorem State.modHereCore_bringDone (s : State) (f : Core → Core) : (s.modHereCore f).bringDone = s.bringDone := rfl
@[simp] theorem State.modHereCore_bports (s : State) (f : Core → Core) : (s.modHereCore f).bports = s.bports := rfl
@[simp] theorem State.modHereCore_selft (s : State) (f : Core → Core) : (s.modHereCore f).selft = s.selft := rfl
@[simp] theorem State.modHereCore_selftDone (s : State) (f : Core → Core) : (s.modHereCore f).selftDone = s.selftDone := rfl
@[simp] theorem State.modHereCore_sagging (s : State) (f : Core → Core) : (s.modHereCore f).sagging = s.sagging := rfl
@[simp] theorem State.modHereCore_stretchCount (s : State) (f : Core → Core) : (s.modHereCore f).stretchCount = s.stretchCount := rfl
@[simp] theorem State.modHereCore_stretchEvents (s : State) (f : Core → Core) : (s.modHereCore f).stretchEvents = s.stretchEvents := rfl
@[simp] theorem State.modHereCore_skipPhase (s : State) (f : Core → Core) : (s.modHereCore f).skipPhase = s.skipPhase := rfl
@[simp] theorem State.modHereCore_skipWait (s : State) (f : Core → Core) : (s.modHereCore f).skipWait = s.skipWait := rfl
@[simp] theorem State.modHereCore_skipped (s : State) (f : Core → Core) : (s.modHereCore f).skipped = s.skipped := rfl
@[simp] theorem State.modHereCore_refilled (s : State) (f : Core → Core) : (s.modHereCore f).refilled = s.refilled := rfl
@[simp] theorem State.modHereCore_nextUntimed (s : State) (f : Core → Core) : (s.modHereCore f).nextUntimed = s.nextUntimed := rfl
@[simp] theorem State.modHereCore_inputs (s : State) (f : Core → Core) : (s.modHereCore f).inputs = s.inputs := rfl
@[simp] theorem State.modHereCore_irqs (s : State) (f : Core → Core) : (s.modHereCore f).irqs = s.irqs := rfl
@[simp] theorem State.modHereCore_sent (s : State) (f : Core → Core) : (s.modHereCore f).sent = s.sent := rfl
@[simp] theorem State.modHereCore_fresh (s : State) (f : Core → Core) : (s.modHereCore f).fresh = s.fresh := rfl
@[simp] theorem State.modHereCore_cur (s : State) (f : Core → Core) : (s.modHereCore f).cur = s.cur := rfl
@[simp] theorem State.modHereCore_pkt (s : State) (f : Core → Core) : (s.modHereCore f).pkt = s.pkt := rfl
@[simp] theorem State.modHereCore_actions (s : State) (f : Core → Core) : (s.modHereCore f).actions = s.actions := rfl

/-! ### State.modHereCluster -/

@[simp] theorem State.modHereCluster_now (s : State) (f : Cluster → Cluster) : (s.modHereCluster f).now = s.now := rfl
@[simp] theorem State.modHereCluster_tick (s : State) (f : Cluster → Cluster) : (s.modHereCluster f).tick = s.tick := rfl
@[simp] theorem State.modHereCluster_moduleId (s : State) (f : Cluster → Cluster) : (s.modHereCluster f).moduleId = s.moduleId := rfl
@[simp] theorem State.modHereCluster_hbm (s : State) (f : Cluster → Cluster) : (s.modHereCluster f).hbm = s.hbm := rfl
@[simp] theorem State.modHereCluster_nodes (s : State) (f : Cluster → Cluster) : (s.modHereCluster f).nodes = s.nodes := rfl
@[simp] theorem State.modHereCluster_rekeys (s : State) (f : Cluster → Cluster) : (s.modHereCluster f).rekeys = s.rekeys := rfl
@[simp] theorem State.modHereCluster_moved (s : State) (f : Cluster → Cluster) : (s.modHereCluster f).moved = s.moved := rfl
@[simp] theorem State.modHereCluster_worlds (s : State) (f : Cluster → Cluster) : (s.modHereCluster f).worlds = s.worlds := rfl
@[simp] theorem State.modHereCluster_peers (s : State) (f : Cluster → Cluster) : (s.modHereCluster f).peers = s.peers := rfl
@[simp] theorem State.modHereCluster_imports (s : State) (f : Cluster → Cluster) : (s.modHereCluster f).imports = s.imports := rfl
@[simp] theorem State.modHereCluster_images (s : State) (f : Cluster → Cluster) : (s.modHereCluster f).images = s.images := rfl
@[simp] theorem State.modHereCluster_imageSets (s : State) (f : Cluster → Cluster) : (s.modHereCluster f).imageSets = s.imageSets := rfl
@[simp] theorem State.modHereCluster_parks (s : State) (f : Cluster → Cluster) : (s.modHereCluster f).parks = s.parks := rfl
@[simp] theorem State.modHereCluster_restores (s : State) (f : Cluster → Cluster) : (s.modHereCluster f).restores = s.restores := rfl
@[simp] theorem State.modHereCluster_launchQ (s : State) (f : Cluster → Cluster) : (s.modHereCluster f).launchQ = s.launchQ := rfl
@[simp] theorem State.modHereCluster_tasks (s : State) (f : Cluster → Cluster) : (s.modHereCluster f).tasks = s.tasks := rfl
@[simp] theorem State.modHereCluster_domains (s : State) (f : Cluster → Cluster) : (s.modHereCluster f).domains = s.domains := rfl
@[simp] theorem State.modHereCluster_nextTask (s : State) (f : Cluster → Cluster) : (s.modHereCluster f).nextTask = s.nextTask := rfl
@[simp] theorem State.modHereCluster_admitted (s : State) (f : Cluster → Cluster) : (s.modHereCluster f).admitted = s.admitted := rfl
@[simp] theorem State.modHereCluster_stopSeq (s : State) (f : Cluster → Cluster) : (s.modHereCluster f).stopSeq = s.stopSeq := rfl
@[simp] theorem State.modHereCluster_migrations (s : State) (f : Cluster → Cluster) : (s.modHereCluster f).migrations = s.migrations := rfl
@[simp] theorem State.modHereCluster_shootdowns (s : State) (f : Cluster → Cluster) : (s.modHereCluster f).shootdowns = s.shootdowns := rfl
@[simp] theorem State.modHereCluster_assay (s : State) (f : Cluster → Cluster) : (s.modHereCluster f).assay = s.assay := rfl
@[simp] theorem State.modHereCluster_ports (s : State) (f : Cluster → Cluster) : (s.modHereCluster f).ports = s.ports := rfl
@[simp] theorem State.modHereCluster_clockParent (s : State) (f : Cluster → Cluster) : (s.modHereCluster f).clockParent = s.clockParent := rfl
@[simp] theorem State.modHereCluster_pipes (s : State) (f : Cluster → Cluster) : (s.modHereCluster f).pipes = s.pipes := rfl
@[simp] theorem State.modHereCluster_absorbQ (s : State) (f : Cluster → Cluster) : (s.modHereCluster f).absorbQ = s.absorbQ := rfl
@[simp] theorem State.modHereCluster_cairns (s : State) (f : Cluster → Cluster) : (s.modHereCluster f).cairns = s.cairns := rfl
@[simp] theorem State.modHereCluster_funcs (s : State) (f : Cluster → Cluster) : (s.modHereCluster f).funcs = s.funcs := rfl
@[simp] theorem State.modHereCluster_bring (s : State) (f : Cluster → Cluster) : (s.modHereCluster f).bring = s.bring := rfl
@[simp] theorem State.modHereCluster_bringDone (s : State) (f : Cluster → Cluster) : (s.modHereCluster f).bringDone = s.bringDone := rfl
@[simp] theorem State.modHereCluster_bports (s : State) (f : Cluster → Cluster) : (s.modHereCluster f).bports = s.bports := rfl
@[simp] theorem State.modHereCluster_selft (s : State) (f : Cluster → Cluster) : (s.modHereCluster f).selft = s.selft := rfl
@[simp] theorem State.modHereCluster_selftDone (s : State) (f : Cluster → Cluster) : (s.modHereCluster f).selftDone = s.selftDone := rfl
@[simp] theorem State.modHereCluster_sagging (s : State) (f : Cluster → Cluster) : (s.modHereCluster f).sagging = s.sagging := rfl
@[simp] theorem State.modHereCluster_stretchCount (s : State) (f : Cluster → Cluster) : (s.modHereCluster f).stretchCount = s.stretchCount := rfl
@[simp] theorem State.modHereCluster_stretchEvents (s : State) (f : Cluster → Cluster) : (s.modHereCluster f).stretchEvents = s.stretchEvents := rfl
@[simp] theorem State.modHereCluster_skipPhase (s : State) (f : Cluster → Cluster) : (s.modHereCluster f).skipPhase = s.skipPhase := rfl
@[simp] theorem State.modHereCluster_skipWait (s : State) (f : Cluster → Cluster) : (s.modHereCluster f).skipWait = s.skipWait := rfl
@[simp] theorem State.modHereCluster_skipped (s : State) (f : Cluster → Cluster) : (s.modHereCluster f).skipped = s.skipped := rfl
@[simp] theorem State.modHereCluster_refilled (s : State) (f : Cluster → Cluster) : (s.modHereCluster f).refilled = s.refilled := rfl
@[simp] theorem State.modHereCluster_nextUntimed (s : State) (f : Cluster → Cluster) : (s.modHereCluster f).nextUntimed = s.nextUntimed := rfl
@[simp] theorem State.modHereCluster_inputs (s : State) (f : Cluster → Cluster) : (s.modHereCluster f).inputs = s.inputs := rfl
@[simp] theorem State.modHereCluster_irqs (s : State) (f : Cluster → Cluster) : (s.modHereCluster f).irqs = s.irqs := rfl
@[simp] theorem State.modHereCluster_sent (s : State) (f : Cluster → Cluster) : (s.modHereCluster f).sent = s.sent := rfl
@[simp] theorem State.modHereCluster_fresh (s : State) (f : Cluster → Cluster) : (s.modHereCluster f).fresh = s.fresh := rfl
@[simp] theorem State.modHereCluster_cur (s : State) (f : Cluster → Cluster) : (s.modHereCluster f).cur = s.cur := rfl
@[simp] theorem State.modHereCluster_pkt (s : State) (f : Cluster → Cluster) : (s.modHereCluster f).pkt = s.pkt := rfl
@[simp] theorem State.modHereCluster_actions (s : State) (f : Cluster → Cluster) : (s.modHereCluster f).actions = s.actions := rfl

/-! ### State.emit -/

@[simp] theorem State.emit_now (s : State) (lat : Nat) (d : Dest) (mask val : Vec) (fl : Word) : (s.emit lat d mask val fl).now = s.now := rfl
@[simp] theorem State.emit_tick (s : State) (lat : Nat) (d : Dest) (mask val : Vec) (fl : Word) : (s.emit lat d mask val fl).tick = s.tick := rfl
@[simp] theorem State.emit_moduleId (s : State) (lat : Nat) (d : Dest) (mask val : Vec) (fl : Word) : (s.emit lat d mask val fl).moduleId = s.moduleId := rfl
@[simp] theorem State.emit_hbm (s : State) (lat : Nat) (d : Dest) (mask val : Vec) (fl : Word) : (s.emit lat d mask val fl).hbm = s.hbm := rfl
@[simp] theorem State.emit_nodes (s : State) (lat : Nat) (d : Dest) (mask val : Vec) (fl : Word) : (s.emit lat d mask val fl).nodes = s.nodes := rfl
@[simp] theorem State.emit_rekeys (s : State) (lat : Nat) (d : Dest) (mask val : Vec) (fl : Word) : (s.emit lat d mask val fl).rekeys = s.rekeys := rfl
@[simp] theorem State.emit_moved (s : State) (lat : Nat) (d : Dest) (mask val : Vec) (fl : Word) : (s.emit lat d mask val fl).moved = s.moved := rfl
@[simp] theorem State.emit_worlds (s : State) (lat : Nat) (d : Dest) (mask val : Vec) (fl : Word) : (s.emit lat d mask val fl).worlds = s.worlds := rfl
@[simp] theorem State.emit_peers (s : State) (lat : Nat) (d : Dest) (mask val : Vec) (fl : Word) : (s.emit lat d mask val fl).peers = s.peers := rfl
@[simp] theorem State.emit_imports (s : State) (lat : Nat) (d : Dest) (mask val : Vec) (fl : Word) : (s.emit lat d mask val fl).imports = s.imports := rfl
@[simp] theorem State.emit_images (s : State) (lat : Nat) (d : Dest) (mask val : Vec) (fl : Word) : (s.emit lat d mask val fl).images = s.images := rfl
@[simp] theorem State.emit_imageSets (s : State) (lat : Nat) (d : Dest) (mask val : Vec) (fl : Word) : (s.emit lat d mask val fl).imageSets = s.imageSets := rfl
@[simp] theorem State.emit_parks (s : State) (lat : Nat) (d : Dest) (mask val : Vec) (fl : Word) : (s.emit lat d mask val fl).parks = s.parks := rfl
@[simp] theorem State.emit_restores (s : State) (lat : Nat) (d : Dest) (mask val : Vec) (fl : Word) : (s.emit lat d mask val fl).restores = s.restores := rfl
@[simp] theorem State.emit_launchQ (s : State) (lat : Nat) (d : Dest) (mask val : Vec) (fl : Word) : (s.emit lat d mask val fl).launchQ = s.launchQ := rfl
@[simp] theorem State.emit_tasks (s : State) (lat : Nat) (d : Dest) (mask val : Vec) (fl : Word) : (s.emit lat d mask val fl).tasks = s.tasks := rfl
@[simp] theorem State.emit_domains (s : State) (lat : Nat) (d : Dest) (mask val : Vec) (fl : Word) : (s.emit lat d mask val fl).domains = s.domains := rfl
@[simp] theorem State.emit_nextTask (s : State) (lat : Nat) (d : Dest) (mask val : Vec) (fl : Word) : (s.emit lat d mask val fl).nextTask = s.nextTask := rfl
@[simp] theorem State.emit_admitted (s : State) (lat : Nat) (d : Dest) (mask val : Vec) (fl : Word) : (s.emit lat d mask val fl).admitted = s.admitted := rfl
@[simp] theorem State.emit_stopSeq (s : State) (lat : Nat) (d : Dest) (mask val : Vec) (fl : Word) : (s.emit lat d mask val fl).stopSeq = s.stopSeq := rfl
@[simp] theorem State.emit_migrations (s : State) (lat : Nat) (d : Dest) (mask val : Vec) (fl : Word) : (s.emit lat d mask val fl).migrations = s.migrations := rfl
@[simp] theorem State.emit_shootdowns (s : State) (lat : Nat) (d : Dest) (mask val : Vec) (fl : Word) : (s.emit lat d mask val fl).shootdowns = s.shootdowns := rfl
@[simp] theorem State.emit_assay (s : State) (lat : Nat) (d : Dest) (mask val : Vec) (fl : Word) : (s.emit lat d mask val fl).assay = s.assay := rfl
@[simp] theorem State.emit_ports (s : State) (lat : Nat) (d : Dest) (mask val : Vec) (fl : Word) : (s.emit lat d mask val fl).ports = s.ports := rfl
@[simp] theorem State.emit_clockParent (s : State) (lat : Nat) (d : Dest) (mask val : Vec) (fl : Word) : (s.emit lat d mask val fl).clockParent = s.clockParent := rfl
@[simp] theorem State.emit_pipes (s : State) (lat : Nat) (d : Dest) (mask val : Vec) (fl : Word) : (s.emit lat d mask val fl).pipes = s.pipes := rfl
@[simp] theorem State.emit_absorbQ (s : State) (lat : Nat) (d : Dest) (mask val : Vec) (fl : Word) : (s.emit lat d mask val fl).absorbQ = s.absorbQ := rfl
@[simp] theorem State.emit_cairns (s : State) (lat : Nat) (d : Dest) (mask val : Vec) (fl : Word) : (s.emit lat d mask val fl).cairns = s.cairns := rfl
@[simp] theorem State.emit_funcs (s : State) (lat : Nat) (d : Dest) (mask val : Vec) (fl : Word) : (s.emit lat d mask val fl).funcs = s.funcs := rfl
@[simp] theorem State.emit_bring (s : State) (lat : Nat) (d : Dest) (mask val : Vec) (fl : Word) : (s.emit lat d mask val fl).bring = s.bring := rfl
@[simp] theorem State.emit_bringDone (s : State) (lat : Nat) (d : Dest) (mask val : Vec) (fl : Word) : (s.emit lat d mask val fl).bringDone = s.bringDone := rfl
@[simp] theorem State.emit_bports (s : State) (lat : Nat) (d : Dest) (mask val : Vec) (fl : Word) : (s.emit lat d mask val fl).bports = s.bports := rfl
@[simp] theorem State.emit_selft (s : State) (lat : Nat) (d : Dest) (mask val : Vec) (fl : Word) : (s.emit lat d mask val fl).selft = s.selft := rfl
@[simp] theorem State.emit_selftDone (s : State) (lat : Nat) (d : Dest) (mask val : Vec) (fl : Word) : (s.emit lat d mask val fl).selftDone = s.selftDone := rfl
@[simp] theorem State.emit_sagging (s : State) (lat : Nat) (d : Dest) (mask val : Vec) (fl : Word) : (s.emit lat d mask val fl).sagging = s.sagging := rfl
@[simp] theorem State.emit_stretchCount (s : State) (lat : Nat) (d : Dest) (mask val : Vec) (fl : Word) : (s.emit lat d mask val fl).stretchCount = s.stretchCount := rfl
@[simp] theorem State.emit_stretchEvents (s : State) (lat : Nat) (d : Dest) (mask val : Vec) (fl : Word) : (s.emit lat d mask val fl).stretchEvents = s.stretchEvents := rfl
@[simp] theorem State.emit_skipPhase (s : State) (lat : Nat) (d : Dest) (mask val : Vec) (fl : Word) : (s.emit lat d mask val fl).skipPhase = s.skipPhase := rfl
@[simp] theorem State.emit_skipWait (s : State) (lat : Nat) (d : Dest) (mask val : Vec) (fl : Word) : (s.emit lat d mask val fl).skipWait = s.skipWait := rfl
@[simp] theorem State.emit_skipped (s : State) (lat : Nat) (d : Dest) (mask val : Vec) (fl : Word) : (s.emit lat d mask val fl).skipped = s.skipped := rfl
@[simp] theorem State.emit_refilled (s : State) (lat : Nat) (d : Dest) (mask val : Vec) (fl : Word) : (s.emit lat d mask val fl).refilled = s.refilled := rfl
@[simp] theorem State.emit_nextUntimed (s : State) (lat : Nat) (d : Dest) (mask val : Vec) (fl : Word) : (s.emit lat d mask val fl).nextUntimed = s.nextUntimed := rfl
@[simp] theorem State.emit_inputs (s : State) (lat : Nat) (d : Dest) (mask val : Vec) (fl : Word) : (s.emit lat d mask val fl).inputs = s.inputs := rfl
@[simp] theorem State.emit_irqs (s : State) (lat : Nat) (d : Dest) (mask val : Vec) (fl : Word) : (s.emit lat d mask val fl).irqs = s.irqs := rfl
@[simp] theorem State.emit_sent (s : State) (lat : Nat) (d : Dest) (mask val : Vec) (fl : Word) : (s.emit lat d mask val fl).sent = s.sent := rfl
@[simp] theorem State.emit_fresh (s : State) (lat : Nat) (d : Dest) (mask val : Vec) (fl : Word) : (s.emit lat d mask val fl).fresh = s.fresh := rfl
@[simp] theorem State.emit_cur (s : State) (lat : Nat) (d : Dest) (mask val : Vec) (fl : Word) : (s.emit lat d mask val fl).cur = s.cur := rfl
@[simp] theorem State.emit_pkt (s : State) (lat : Nat) (d : Dest) (mask val : Vec) (fl : Word) : (s.emit lat d mask val fl).pkt = s.pkt := rfl
@[simp] theorem State.emit_actions (s : State) (lat : Nat) (d : Dest) (mask val : Vec) (fl : Word) : (s.emit lat d mask val fl).actions = s.actions := rfl

/-! ### State.update -/

@[simp] theorem State.update_now (s : State) (lat : Nat) (u : CoreUpdate) : (s.update lat u).now = s.now := rfl
@[simp] theorem State.update_tick (s : State) (lat : Nat) (u : CoreUpdate) : (s.update lat u).tick = s.tick := rfl
@[simp] theorem State.update_moduleId (s : State) (lat : Nat) (u : CoreUpdate) : (s.update lat u).moduleId = s.moduleId := rfl
@[simp] theorem State.update_hbm (s : State) (lat : Nat) (u : CoreUpdate) : (s.update lat u).hbm = s.hbm := rfl
@[simp] theorem State.update_nodes (s : State) (lat : Nat) (u : CoreUpdate) : (s.update lat u).nodes = s.nodes := rfl
@[simp] theorem State.update_rekeys (s : State) (lat : Nat) (u : CoreUpdate) : (s.update lat u).rekeys = s.rekeys := rfl
@[simp] theorem State.update_moved (s : State) (lat : Nat) (u : CoreUpdate) : (s.update lat u).moved = s.moved := rfl
@[simp] theorem State.update_worlds (s : State) (lat : Nat) (u : CoreUpdate) : (s.update lat u).worlds = s.worlds := rfl
@[simp] theorem State.update_peers (s : State) (lat : Nat) (u : CoreUpdate) : (s.update lat u).peers = s.peers := rfl
@[simp] theorem State.update_imports (s : State) (lat : Nat) (u : CoreUpdate) : (s.update lat u).imports = s.imports := rfl
@[simp] theorem State.update_images (s : State) (lat : Nat) (u : CoreUpdate) : (s.update lat u).images = s.images := rfl
@[simp] theorem State.update_imageSets (s : State) (lat : Nat) (u : CoreUpdate) : (s.update lat u).imageSets = s.imageSets := rfl
@[simp] theorem State.update_parks (s : State) (lat : Nat) (u : CoreUpdate) : (s.update lat u).parks = s.parks := rfl
@[simp] theorem State.update_restores (s : State) (lat : Nat) (u : CoreUpdate) : (s.update lat u).restores = s.restores := rfl
@[simp] theorem State.update_launchQ (s : State) (lat : Nat) (u : CoreUpdate) : (s.update lat u).launchQ = s.launchQ := rfl
@[simp] theorem State.update_tasks (s : State) (lat : Nat) (u : CoreUpdate) : (s.update lat u).tasks = s.tasks := rfl
@[simp] theorem State.update_domains (s : State) (lat : Nat) (u : CoreUpdate) : (s.update lat u).domains = s.domains := rfl
@[simp] theorem State.update_nextTask (s : State) (lat : Nat) (u : CoreUpdate) : (s.update lat u).nextTask = s.nextTask := rfl
@[simp] theorem State.update_admitted (s : State) (lat : Nat) (u : CoreUpdate) : (s.update lat u).admitted = s.admitted := rfl
@[simp] theorem State.update_stopSeq (s : State) (lat : Nat) (u : CoreUpdate) : (s.update lat u).stopSeq = s.stopSeq := rfl
@[simp] theorem State.update_migrations (s : State) (lat : Nat) (u : CoreUpdate) : (s.update lat u).migrations = s.migrations := rfl
@[simp] theorem State.update_shootdowns (s : State) (lat : Nat) (u : CoreUpdate) : (s.update lat u).shootdowns = s.shootdowns := rfl
@[simp] theorem State.update_assay (s : State) (lat : Nat) (u : CoreUpdate) : (s.update lat u).assay = s.assay := rfl
@[simp] theorem State.update_ports (s : State) (lat : Nat) (u : CoreUpdate) : (s.update lat u).ports = s.ports := rfl
@[simp] theorem State.update_clockParent (s : State) (lat : Nat) (u : CoreUpdate) : (s.update lat u).clockParent = s.clockParent := rfl
@[simp] theorem State.update_pipes (s : State) (lat : Nat) (u : CoreUpdate) : (s.update lat u).pipes = s.pipes := rfl
@[simp] theorem State.update_absorbQ (s : State) (lat : Nat) (u : CoreUpdate) : (s.update lat u).absorbQ = s.absorbQ := rfl
@[simp] theorem State.update_cairns (s : State) (lat : Nat) (u : CoreUpdate) : (s.update lat u).cairns = s.cairns := rfl
@[simp] theorem State.update_funcs (s : State) (lat : Nat) (u : CoreUpdate) : (s.update lat u).funcs = s.funcs := rfl
@[simp] theorem State.update_bring (s : State) (lat : Nat) (u : CoreUpdate) : (s.update lat u).bring = s.bring := rfl
@[simp] theorem State.update_bringDone (s : State) (lat : Nat) (u : CoreUpdate) : (s.update lat u).bringDone = s.bringDone := rfl
@[simp] theorem State.update_bports (s : State) (lat : Nat) (u : CoreUpdate) : (s.update lat u).bports = s.bports := rfl
@[simp] theorem State.update_selft (s : State) (lat : Nat) (u : CoreUpdate) : (s.update lat u).selft = s.selft := rfl
@[simp] theorem State.update_selftDone (s : State) (lat : Nat) (u : CoreUpdate) : (s.update lat u).selftDone = s.selftDone := rfl
@[simp] theorem State.update_sagging (s : State) (lat : Nat) (u : CoreUpdate) : (s.update lat u).sagging = s.sagging := rfl
@[simp] theorem State.update_stretchCount (s : State) (lat : Nat) (u : CoreUpdate) : (s.update lat u).stretchCount = s.stretchCount := rfl
@[simp] theorem State.update_stretchEvents (s : State) (lat : Nat) (u : CoreUpdate) : (s.update lat u).stretchEvents = s.stretchEvents := rfl
@[simp] theorem State.update_skipPhase (s : State) (lat : Nat) (u : CoreUpdate) : (s.update lat u).skipPhase = s.skipPhase := rfl
@[simp] theorem State.update_skipWait (s : State) (lat : Nat) (u : CoreUpdate) : (s.update lat u).skipWait = s.skipWait := rfl
@[simp] theorem State.update_skipped (s : State) (lat : Nat) (u : CoreUpdate) : (s.update lat u).skipped = s.skipped := rfl
@[simp] theorem State.update_refilled (s : State) (lat : Nat) (u : CoreUpdate) : (s.update lat u).refilled = s.refilled := rfl
@[simp] theorem State.update_nextUntimed (s : State) (lat : Nat) (u : CoreUpdate) : (s.update lat u).nextUntimed = s.nextUntimed := rfl
@[simp] theorem State.update_inputs (s : State) (lat : Nat) (u : CoreUpdate) : (s.update lat u).inputs = s.inputs := rfl
@[simp] theorem State.update_irqs (s : State) (lat : Nat) (u : CoreUpdate) : (s.update lat u).irqs = s.irqs := rfl
@[simp] theorem State.update_sent (s : State) (lat : Nat) (u : CoreUpdate) : (s.update lat u).sent = s.sent := rfl
@[simp] theorem State.update_fresh (s : State) (lat : Nat) (u : CoreUpdate) : (s.update lat u).fresh = s.fresh := rfl
@[simp] theorem State.update_cur (s : State) (lat : Nat) (u : CoreUpdate) : (s.update lat u).cur = s.cur := rfl
@[simp] theorem State.update_pkt (s : State) (lat : Nat) (u : CoreUpdate) : (s.update lat u).pkt = s.pkt := rfl
@[simp] theorem State.update_actions (s : State) (lat : Nat) (u : CoreUpdate) : (s.update lat u).actions = s.actions := rfl

/-! ### State.modWorld -/

@[simp] theorem State.modWorld_now (s : State) (w : Nat) (f : World → World) : (s.modWorld w f).now = s.now := rfl
@[simp] theorem State.modWorld_tick (s : State) (w : Nat) (f : World → World) : (s.modWorld w f).tick = s.tick := rfl
@[simp] theorem State.modWorld_moduleId (s : State) (w : Nat) (f : World → World) : (s.modWorld w f).moduleId = s.moduleId := rfl
@[simp] theorem State.modWorld_clusters (s : State) (w : Nat) (f : World → World) : (s.modWorld w f).clusters = s.clusters := rfl
@[simp] theorem State.modWorld_hbm (s : State) (w : Nat) (f : World → World) : (s.modWorld w f).hbm = s.hbm := rfl
@[simp] theorem State.modWorld_nodes (s : State) (w : Nat) (f : World → World) : (s.modWorld w f).nodes = s.nodes := rfl
@[simp] theorem State.modWorld_rekeys (s : State) (w : Nat) (f : World → World) : (s.modWorld w f).rekeys = s.rekeys := rfl
@[simp] theorem State.modWorld_moved (s : State) (w : Nat) (f : World → World) : (s.modWorld w f).moved = s.moved := rfl
@[simp] theorem State.modWorld_peers (s : State) (w : Nat) (f : World → World) : (s.modWorld w f).peers = s.peers := rfl
@[simp] theorem State.modWorld_imports (s : State) (w : Nat) (f : World → World) : (s.modWorld w f).imports = s.imports := rfl
@[simp] theorem State.modWorld_images (s : State) (w : Nat) (f : World → World) : (s.modWorld w f).images = s.images := rfl
@[simp] theorem State.modWorld_imageSets (s : State) (w : Nat) (f : World → World) : (s.modWorld w f).imageSets = s.imageSets := rfl
@[simp] theorem State.modWorld_parks (s : State) (w : Nat) (f : World → World) : (s.modWorld w f).parks = s.parks := rfl
@[simp] theorem State.modWorld_restores (s : State) (w : Nat) (f : World → World) : (s.modWorld w f).restores = s.restores := rfl
@[simp] theorem State.modWorld_launchQ (s : State) (w : Nat) (f : World → World) : (s.modWorld w f).launchQ = s.launchQ := rfl
@[simp] theorem State.modWorld_tasks (s : State) (w : Nat) (f : World → World) : (s.modWorld w f).tasks = s.tasks := rfl
@[simp] theorem State.modWorld_domains (s : State) (w : Nat) (f : World → World) : (s.modWorld w f).domains = s.domains := rfl
@[simp] theorem State.modWorld_nextTask (s : State) (w : Nat) (f : World → World) : (s.modWorld w f).nextTask = s.nextTask := rfl
@[simp] theorem State.modWorld_admitted (s : State) (w : Nat) (f : World → World) : (s.modWorld w f).admitted = s.admitted := rfl
@[simp] theorem State.modWorld_stopSeq (s : State) (w : Nat) (f : World → World) : (s.modWorld w f).stopSeq = s.stopSeq := rfl
@[simp] theorem State.modWorld_migrations (s : State) (w : Nat) (f : World → World) : (s.modWorld w f).migrations = s.migrations := rfl
@[simp] theorem State.modWorld_shootdowns (s : State) (w : Nat) (f : World → World) : (s.modWorld w f).shootdowns = s.shootdowns := rfl
@[simp] theorem State.modWorld_assay (s : State) (w : Nat) (f : World → World) : (s.modWorld w f).assay = s.assay := rfl
@[simp] theorem State.modWorld_ports (s : State) (w : Nat) (f : World → World) : (s.modWorld w f).ports = s.ports := rfl
@[simp] theorem State.modWorld_clockParent (s : State) (w : Nat) (f : World → World) : (s.modWorld w f).clockParent = s.clockParent := rfl
@[simp] theorem State.modWorld_pipes (s : State) (w : Nat) (f : World → World) : (s.modWorld w f).pipes = s.pipes := rfl
@[simp] theorem State.modWorld_absorbQ (s : State) (w : Nat) (f : World → World) : (s.modWorld w f).absorbQ = s.absorbQ := rfl
@[simp] theorem State.modWorld_cairns (s : State) (w : Nat) (f : World → World) : (s.modWorld w f).cairns = s.cairns := rfl
@[simp] theorem State.modWorld_funcs (s : State) (w : Nat) (f : World → World) : (s.modWorld w f).funcs = s.funcs := rfl
@[simp] theorem State.modWorld_bring (s : State) (w : Nat) (f : World → World) : (s.modWorld w f).bring = s.bring := rfl
@[simp] theorem State.modWorld_bringDone (s : State) (w : Nat) (f : World → World) : (s.modWorld w f).bringDone = s.bringDone := rfl
@[simp] theorem State.modWorld_bports (s : State) (w : Nat) (f : World → World) : (s.modWorld w f).bports = s.bports := rfl
@[simp] theorem State.modWorld_selft (s : State) (w : Nat) (f : World → World) : (s.modWorld w f).selft = s.selft := rfl
@[simp] theorem State.modWorld_selftDone (s : State) (w : Nat) (f : World → World) : (s.modWorld w f).selftDone = s.selftDone := rfl
@[simp] theorem State.modWorld_sagging (s : State) (w : Nat) (f : World → World) : (s.modWorld w f).sagging = s.sagging := rfl
@[simp] theorem State.modWorld_stretchCount (s : State) (w : Nat) (f : World → World) : (s.modWorld w f).stretchCount = s.stretchCount := rfl
@[simp] theorem State.modWorld_stretchEvents (s : State) (w : Nat) (f : World → World) : (s.modWorld w f).stretchEvents = s.stretchEvents := rfl
@[simp] theorem State.modWorld_skipPhase (s : State) (w : Nat) (f : World → World) : (s.modWorld w f).skipPhase = s.skipPhase := rfl
@[simp] theorem State.modWorld_skipWait (s : State) (w : Nat) (f : World → World) : (s.modWorld w f).skipWait = s.skipWait := rfl
@[simp] theorem State.modWorld_skipped (s : State) (w : Nat) (f : World → World) : (s.modWorld w f).skipped = s.skipped := rfl
@[simp] theorem State.modWorld_refilled (s : State) (w : Nat) (f : World → World) : (s.modWorld w f).refilled = s.refilled := rfl
@[simp] theorem State.modWorld_nextUntimed (s : State) (w : Nat) (f : World → World) : (s.modWorld w f).nextUntimed = s.nextUntimed := rfl
@[simp] theorem State.modWorld_inputs (s : State) (w : Nat) (f : World → World) : (s.modWorld w f).inputs = s.inputs := rfl
@[simp] theorem State.modWorld_irqs (s : State) (w : Nat) (f : World → World) : (s.modWorld w f).irqs = s.irqs := rfl
@[simp] theorem State.modWorld_sent (s : State) (w : Nat) (f : World → World) : (s.modWorld w f).sent = s.sent := rfl
@[simp] theorem State.modWorld_fresh (s : State) (w : Nat) (f : World → World) : (s.modWorld w f).fresh = s.fresh := rfl
@[simp] theorem State.modWorld_cur (s : State) (w : Nat) (f : World → World) : (s.modWorld w f).cur = s.cur := rfl
@[simp] theorem State.modWorld_pkt (s : State) (w : Nat) (f : World → World) : (s.modWorld w f).pkt = s.pkt := rfl
@[simp] theorem State.modWorld_actions (s : State) (w : Nat) (f : World → World) : (s.modWorld w f).actions = s.actions := rfl

/-! ### State.modPort -/

@[simp] theorem State.modPort_now (s : State) (p : Nat) (f : Port → Port) : (s.modPort p f).now = s.now := rfl
@[simp] theorem State.modPort_tick (s : State) (p : Nat) (f : Port → Port) : (s.modPort p f).tick = s.tick := rfl
@[simp] theorem State.modPort_moduleId (s : State) (p : Nat) (f : Port → Port) : (s.modPort p f).moduleId = s.moduleId := rfl
@[simp] theorem State.modPort_clusters (s : State) (p : Nat) (f : Port → Port) : (s.modPort p f).clusters = s.clusters := rfl
@[simp] theorem State.modPort_hbm (s : State) (p : Nat) (f : Port → Port) : (s.modPort p f).hbm = s.hbm := rfl
@[simp] theorem State.modPort_nodes (s : State) (p : Nat) (f : Port → Port) : (s.modPort p f).nodes = s.nodes := rfl
@[simp] theorem State.modPort_rekeys (s : State) (p : Nat) (f : Port → Port) : (s.modPort p f).rekeys = s.rekeys := rfl
@[simp] theorem State.modPort_moved (s : State) (p : Nat) (f : Port → Port) : (s.modPort p f).moved = s.moved := rfl
@[simp] theorem State.modPort_worlds (s : State) (p : Nat) (f : Port → Port) : (s.modPort p f).worlds = s.worlds := rfl
@[simp] theorem State.modPort_peers (s : State) (p : Nat) (f : Port → Port) : (s.modPort p f).peers = s.peers := rfl
@[simp] theorem State.modPort_imports (s : State) (p : Nat) (f : Port → Port) : (s.modPort p f).imports = s.imports := rfl
@[simp] theorem State.modPort_images (s : State) (p : Nat) (f : Port → Port) : (s.modPort p f).images = s.images := rfl
@[simp] theorem State.modPort_imageSets (s : State) (p : Nat) (f : Port → Port) : (s.modPort p f).imageSets = s.imageSets := rfl
@[simp] theorem State.modPort_parks (s : State) (p : Nat) (f : Port → Port) : (s.modPort p f).parks = s.parks := rfl
@[simp] theorem State.modPort_restores (s : State) (p : Nat) (f : Port → Port) : (s.modPort p f).restores = s.restores := rfl
@[simp] theorem State.modPort_launchQ (s : State) (p : Nat) (f : Port → Port) : (s.modPort p f).launchQ = s.launchQ := rfl
@[simp] theorem State.modPort_tasks (s : State) (p : Nat) (f : Port → Port) : (s.modPort p f).tasks = s.tasks := rfl
@[simp] theorem State.modPort_domains (s : State) (p : Nat) (f : Port → Port) : (s.modPort p f).domains = s.domains := rfl
@[simp] theorem State.modPort_nextTask (s : State) (p : Nat) (f : Port → Port) : (s.modPort p f).nextTask = s.nextTask := rfl
@[simp] theorem State.modPort_admitted (s : State) (p : Nat) (f : Port → Port) : (s.modPort p f).admitted = s.admitted := rfl
@[simp] theorem State.modPort_stopSeq (s : State) (p : Nat) (f : Port → Port) : (s.modPort p f).stopSeq = s.stopSeq := rfl
@[simp] theorem State.modPort_migrations (s : State) (p : Nat) (f : Port → Port) : (s.modPort p f).migrations = s.migrations := rfl
@[simp] theorem State.modPort_shootdowns (s : State) (p : Nat) (f : Port → Port) : (s.modPort p f).shootdowns = s.shootdowns := rfl
@[simp] theorem State.modPort_assay (s : State) (p : Nat) (f : Port → Port) : (s.modPort p f).assay = s.assay := rfl
@[simp] theorem State.modPort_clockParent (s : State) (p : Nat) (f : Port → Port) : (s.modPort p f).clockParent = s.clockParent := rfl
@[simp] theorem State.modPort_pipes (s : State) (p : Nat) (f : Port → Port) : (s.modPort p f).pipes = s.pipes := rfl
@[simp] theorem State.modPort_absorbQ (s : State) (p : Nat) (f : Port → Port) : (s.modPort p f).absorbQ = s.absorbQ := rfl
@[simp] theorem State.modPort_cairns (s : State) (p : Nat) (f : Port → Port) : (s.modPort p f).cairns = s.cairns := rfl
@[simp] theorem State.modPort_funcs (s : State) (p : Nat) (f : Port → Port) : (s.modPort p f).funcs = s.funcs := rfl
@[simp] theorem State.modPort_bring (s : State) (p : Nat) (f : Port → Port) : (s.modPort p f).bring = s.bring := rfl
@[simp] theorem State.modPort_bringDone (s : State) (p : Nat) (f : Port → Port) : (s.modPort p f).bringDone = s.bringDone := rfl
@[simp] theorem State.modPort_bports (s : State) (p : Nat) (f : Port → Port) : (s.modPort p f).bports = s.bports := rfl
@[simp] theorem State.modPort_selft (s : State) (p : Nat) (f : Port → Port) : (s.modPort p f).selft = s.selft := rfl
@[simp] theorem State.modPort_selftDone (s : State) (p : Nat) (f : Port → Port) : (s.modPort p f).selftDone = s.selftDone := rfl
@[simp] theorem State.modPort_sagging (s : State) (p : Nat) (f : Port → Port) : (s.modPort p f).sagging = s.sagging := rfl
@[simp] theorem State.modPort_stretchCount (s : State) (p : Nat) (f : Port → Port) : (s.modPort p f).stretchCount = s.stretchCount := rfl
@[simp] theorem State.modPort_stretchEvents (s : State) (p : Nat) (f : Port → Port) : (s.modPort p f).stretchEvents = s.stretchEvents := rfl
@[simp] theorem State.modPort_skipPhase (s : State) (p : Nat) (f : Port → Port) : (s.modPort p f).skipPhase = s.skipPhase := rfl
@[simp] theorem State.modPort_skipWait (s : State) (p : Nat) (f : Port → Port) : (s.modPort p f).skipWait = s.skipWait := rfl
@[simp] theorem State.modPort_skipped (s : State) (p : Nat) (f : Port → Port) : (s.modPort p f).skipped = s.skipped := rfl
@[simp] theorem State.modPort_refilled (s : State) (p : Nat) (f : Port → Port) : (s.modPort p f).refilled = s.refilled := rfl
@[simp] theorem State.modPort_nextUntimed (s : State) (p : Nat) (f : Port → Port) : (s.modPort p f).nextUntimed = s.nextUntimed := rfl
@[simp] theorem State.modPort_inputs (s : State) (p : Nat) (f : Port → Port) : (s.modPort p f).inputs = s.inputs := rfl
@[simp] theorem State.modPort_irqs (s : State) (p : Nat) (f : Port → Port) : (s.modPort p f).irqs = s.irqs := rfl
@[simp] theorem State.modPort_sent (s : State) (p : Nat) (f : Port → Port) : (s.modPort p f).sent = s.sent := rfl
@[simp] theorem State.modPort_fresh (s : State) (p : Nat) (f : Port → Port) : (s.modPort p f).fresh = s.fresh := rfl
@[simp] theorem State.modPort_cur (s : State) (p : Nat) (f : Port → Port) : (s.modPort p f).cur = s.cur := rfl
@[simp] theorem State.modPort_pkt (s : State) (p : Nat) (f : Port → Port) : (s.modPort p f).pkt = s.pkt := rfl
@[simp] theorem State.modPort_actions (s : State) (p : Nat) (f : Port → Port) : (s.modPort p f).actions = s.actions := rfl

/-! ### State.modPipe -/

@[simp] theorem State.modPipe_now (s : State) (p : Nat) (f : Pipe → Pipe) : (s.modPipe p f).now = s.now := rfl
@[simp] theorem State.modPipe_tick (s : State) (p : Nat) (f : Pipe → Pipe) : (s.modPipe p f).tick = s.tick := rfl
@[simp] theorem State.modPipe_moduleId (s : State) (p : Nat) (f : Pipe → Pipe) : (s.modPipe p f).moduleId = s.moduleId := rfl
@[simp] theorem State.modPipe_clusters (s : State) (p : Nat) (f : Pipe → Pipe) : (s.modPipe p f).clusters = s.clusters := rfl
@[simp] theorem State.modPipe_hbm (s : State) (p : Nat) (f : Pipe → Pipe) : (s.modPipe p f).hbm = s.hbm := rfl
@[simp] theorem State.modPipe_nodes (s : State) (p : Nat) (f : Pipe → Pipe) : (s.modPipe p f).nodes = s.nodes := rfl
@[simp] theorem State.modPipe_rekeys (s : State) (p : Nat) (f : Pipe → Pipe) : (s.modPipe p f).rekeys = s.rekeys := rfl
@[simp] theorem State.modPipe_moved (s : State) (p : Nat) (f : Pipe → Pipe) : (s.modPipe p f).moved = s.moved := rfl
@[simp] theorem State.modPipe_worlds (s : State) (p : Nat) (f : Pipe → Pipe) : (s.modPipe p f).worlds = s.worlds := rfl
@[simp] theorem State.modPipe_peers (s : State) (p : Nat) (f : Pipe → Pipe) : (s.modPipe p f).peers = s.peers := rfl
@[simp] theorem State.modPipe_imports (s : State) (p : Nat) (f : Pipe → Pipe) : (s.modPipe p f).imports = s.imports := rfl
@[simp] theorem State.modPipe_images (s : State) (p : Nat) (f : Pipe → Pipe) : (s.modPipe p f).images = s.images := rfl
@[simp] theorem State.modPipe_imageSets (s : State) (p : Nat) (f : Pipe → Pipe) : (s.modPipe p f).imageSets = s.imageSets := rfl
@[simp] theorem State.modPipe_parks (s : State) (p : Nat) (f : Pipe → Pipe) : (s.modPipe p f).parks = s.parks := rfl
@[simp] theorem State.modPipe_restores (s : State) (p : Nat) (f : Pipe → Pipe) : (s.modPipe p f).restores = s.restores := rfl
@[simp] theorem State.modPipe_launchQ (s : State) (p : Nat) (f : Pipe → Pipe) : (s.modPipe p f).launchQ = s.launchQ := rfl
@[simp] theorem State.modPipe_tasks (s : State) (p : Nat) (f : Pipe → Pipe) : (s.modPipe p f).tasks = s.tasks := rfl
@[simp] theorem State.modPipe_domains (s : State) (p : Nat) (f : Pipe → Pipe) : (s.modPipe p f).domains = s.domains := rfl
@[simp] theorem State.modPipe_nextTask (s : State) (p : Nat) (f : Pipe → Pipe) : (s.modPipe p f).nextTask = s.nextTask := rfl
@[simp] theorem State.modPipe_admitted (s : State) (p : Nat) (f : Pipe → Pipe) : (s.modPipe p f).admitted = s.admitted := rfl
@[simp] theorem State.modPipe_stopSeq (s : State) (p : Nat) (f : Pipe → Pipe) : (s.modPipe p f).stopSeq = s.stopSeq := rfl
@[simp] theorem State.modPipe_migrations (s : State) (p : Nat) (f : Pipe → Pipe) : (s.modPipe p f).migrations = s.migrations := rfl
@[simp] theorem State.modPipe_shootdowns (s : State) (p : Nat) (f : Pipe → Pipe) : (s.modPipe p f).shootdowns = s.shootdowns := rfl
@[simp] theorem State.modPipe_assay (s : State) (p : Nat) (f : Pipe → Pipe) : (s.modPipe p f).assay = s.assay := rfl
@[simp] theorem State.modPipe_ports (s : State) (p : Nat) (f : Pipe → Pipe) : (s.modPipe p f).ports = s.ports := rfl
@[simp] theorem State.modPipe_clockParent (s : State) (p : Nat) (f : Pipe → Pipe) : (s.modPipe p f).clockParent = s.clockParent := rfl
@[simp] theorem State.modPipe_absorbQ (s : State) (p : Nat) (f : Pipe → Pipe) : (s.modPipe p f).absorbQ = s.absorbQ := rfl
@[simp] theorem State.modPipe_cairns (s : State) (p : Nat) (f : Pipe → Pipe) : (s.modPipe p f).cairns = s.cairns := rfl
@[simp] theorem State.modPipe_funcs (s : State) (p : Nat) (f : Pipe → Pipe) : (s.modPipe p f).funcs = s.funcs := rfl
@[simp] theorem State.modPipe_bring (s : State) (p : Nat) (f : Pipe → Pipe) : (s.modPipe p f).bring = s.bring := rfl
@[simp] theorem State.modPipe_bringDone (s : State) (p : Nat) (f : Pipe → Pipe) : (s.modPipe p f).bringDone = s.bringDone := rfl
@[simp] theorem State.modPipe_bports (s : State) (p : Nat) (f : Pipe → Pipe) : (s.modPipe p f).bports = s.bports := rfl
@[simp] theorem State.modPipe_selft (s : State) (p : Nat) (f : Pipe → Pipe) : (s.modPipe p f).selft = s.selft := rfl
@[simp] theorem State.modPipe_selftDone (s : State) (p : Nat) (f : Pipe → Pipe) : (s.modPipe p f).selftDone = s.selftDone := rfl
@[simp] theorem State.modPipe_sagging (s : State) (p : Nat) (f : Pipe → Pipe) : (s.modPipe p f).sagging = s.sagging := rfl
@[simp] theorem State.modPipe_stretchCount (s : State) (p : Nat) (f : Pipe → Pipe) : (s.modPipe p f).stretchCount = s.stretchCount := rfl
@[simp] theorem State.modPipe_stretchEvents (s : State) (p : Nat) (f : Pipe → Pipe) : (s.modPipe p f).stretchEvents = s.stretchEvents := rfl
@[simp] theorem State.modPipe_skipPhase (s : State) (p : Nat) (f : Pipe → Pipe) : (s.modPipe p f).skipPhase = s.skipPhase := rfl
@[simp] theorem State.modPipe_skipWait (s : State) (p : Nat) (f : Pipe → Pipe) : (s.modPipe p f).skipWait = s.skipWait := rfl
@[simp] theorem State.modPipe_skipped (s : State) (p : Nat) (f : Pipe → Pipe) : (s.modPipe p f).skipped = s.skipped := rfl
@[simp] theorem State.modPipe_refilled (s : State) (p : Nat) (f : Pipe → Pipe) : (s.modPipe p f).refilled = s.refilled := rfl
@[simp] theorem State.modPipe_nextUntimed (s : State) (p : Nat) (f : Pipe → Pipe) : (s.modPipe p f).nextUntimed = s.nextUntimed := rfl
@[simp] theorem State.modPipe_inputs (s : State) (p : Nat) (f : Pipe → Pipe) : (s.modPipe p f).inputs = s.inputs := rfl
@[simp] theorem State.modPipe_irqs (s : State) (p : Nat) (f : Pipe → Pipe) : (s.modPipe p f).irqs = s.irqs := rfl
@[simp] theorem State.modPipe_sent (s : State) (p : Nat) (f : Pipe → Pipe) : (s.modPipe p f).sent = s.sent := rfl
@[simp] theorem State.modPipe_fresh (s : State) (p : Nat) (f : Pipe → Pipe) : (s.modPipe p f).fresh = s.fresh := rfl
@[simp] theorem State.modPipe_cur (s : State) (p : Nat) (f : Pipe → Pipe) : (s.modPipe p f).cur = s.cur := rfl
@[simp] theorem State.modPipe_pkt (s : State) (p : Nat) (f : Pipe → Pipe) : (s.modPipe p f).pkt = s.pkt := rfl
@[simp] theorem State.modPipe_actions (s : State) (p : Nat) (f : Pipe → Pipe) : (s.modPipe p f).actions = s.actions := rfl

/-! ### State.modFunc -/

@[simp] theorem State.modFunc_now (s : State) (n : Nat) (f : Func → Func) : (s.modFunc n f).now = s.now := rfl
@[simp] theorem State.modFunc_tick (s : State) (n : Nat) (f : Func → Func) : (s.modFunc n f).tick = s.tick := rfl
@[simp] theorem State.modFunc_moduleId (s : State) (n : Nat) (f : Func → Func) : (s.modFunc n f).moduleId = s.moduleId := rfl
@[simp] theorem State.modFunc_clusters (s : State) (n : Nat) (f : Func → Func) : (s.modFunc n f).clusters = s.clusters := rfl
@[simp] theorem State.modFunc_hbm (s : State) (n : Nat) (f : Func → Func) : (s.modFunc n f).hbm = s.hbm := rfl
@[simp] theorem State.modFunc_nodes (s : State) (n : Nat) (f : Func → Func) : (s.modFunc n f).nodes = s.nodes := rfl
@[simp] theorem State.modFunc_rekeys (s : State) (n : Nat) (f : Func → Func) : (s.modFunc n f).rekeys = s.rekeys := rfl
@[simp] theorem State.modFunc_moved (s : State) (n : Nat) (f : Func → Func) : (s.modFunc n f).moved = s.moved := rfl
@[simp] theorem State.modFunc_worlds (s : State) (n : Nat) (f : Func → Func) : (s.modFunc n f).worlds = s.worlds := rfl
@[simp] theorem State.modFunc_peers (s : State) (n : Nat) (f : Func → Func) : (s.modFunc n f).peers = s.peers := rfl
@[simp] theorem State.modFunc_imports (s : State) (n : Nat) (f : Func → Func) : (s.modFunc n f).imports = s.imports := rfl
@[simp] theorem State.modFunc_images (s : State) (n : Nat) (f : Func → Func) : (s.modFunc n f).images = s.images := rfl
@[simp] theorem State.modFunc_imageSets (s : State) (n : Nat) (f : Func → Func) : (s.modFunc n f).imageSets = s.imageSets := rfl
@[simp] theorem State.modFunc_parks (s : State) (n : Nat) (f : Func → Func) : (s.modFunc n f).parks = s.parks := rfl
@[simp] theorem State.modFunc_restores (s : State) (n : Nat) (f : Func → Func) : (s.modFunc n f).restores = s.restores := rfl
@[simp] theorem State.modFunc_launchQ (s : State) (n : Nat) (f : Func → Func) : (s.modFunc n f).launchQ = s.launchQ := rfl
@[simp] theorem State.modFunc_tasks (s : State) (n : Nat) (f : Func → Func) : (s.modFunc n f).tasks = s.tasks := rfl
@[simp] theorem State.modFunc_domains (s : State) (n : Nat) (f : Func → Func) : (s.modFunc n f).domains = s.domains := rfl
@[simp] theorem State.modFunc_nextTask (s : State) (n : Nat) (f : Func → Func) : (s.modFunc n f).nextTask = s.nextTask := rfl
@[simp] theorem State.modFunc_admitted (s : State) (n : Nat) (f : Func → Func) : (s.modFunc n f).admitted = s.admitted := rfl
@[simp] theorem State.modFunc_stopSeq (s : State) (n : Nat) (f : Func → Func) : (s.modFunc n f).stopSeq = s.stopSeq := rfl
@[simp] theorem State.modFunc_migrations (s : State) (n : Nat) (f : Func → Func) : (s.modFunc n f).migrations = s.migrations := rfl
@[simp] theorem State.modFunc_shootdowns (s : State) (n : Nat) (f : Func → Func) : (s.modFunc n f).shootdowns = s.shootdowns := rfl
@[simp] theorem State.modFunc_assay (s : State) (n : Nat) (f : Func → Func) : (s.modFunc n f).assay = s.assay := rfl
@[simp] theorem State.modFunc_ports (s : State) (n : Nat) (f : Func → Func) : (s.modFunc n f).ports = s.ports := rfl
@[simp] theorem State.modFunc_clockParent (s : State) (n : Nat) (f : Func → Func) : (s.modFunc n f).clockParent = s.clockParent := rfl
@[simp] theorem State.modFunc_pipes (s : State) (n : Nat) (f : Func → Func) : (s.modFunc n f).pipes = s.pipes := rfl
@[simp] theorem State.modFunc_absorbQ (s : State) (n : Nat) (f : Func → Func) : (s.modFunc n f).absorbQ = s.absorbQ := rfl
@[simp] theorem State.modFunc_cairns (s : State) (n : Nat) (f : Func → Func) : (s.modFunc n f).cairns = s.cairns := rfl
@[simp] theorem State.modFunc_bring (s : State) (n : Nat) (f : Func → Func) : (s.modFunc n f).bring = s.bring := rfl
@[simp] theorem State.modFunc_bringDone (s : State) (n : Nat) (f : Func → Func) : (s.modFunc n f).bringDone = s.bringDone := rfl
@[simp] theorem State.modFunc_bports (s : State) (n : Nat) (f : Func → Func) : (s.modFunc n f).bports = s.bports := rfl
@[simp] theorem State.modFunc_selft (s : State) (n : Nat) (f : Func → Func) : (s.modFunc n f).selft = s.selft := rfl
@[simp] theorem State.modFunc_selftDone (s : State) (n : Nat) (f : Func → Func) : (s.modFunc n f).selftDone = s.selftDone := rfl
@[simp] theorem State.modFunc_sagging (s : State) (n : Nat) (f : Func → Func) : (s.modFunc n f).sagging = s.sagging := rfl
@[simp] theorem State.modFunc_stretchCount (s : State) (n : Nat) (f : Func → Func) : (s.modFunc n f).stretchCount = s.stretchCount := rfl
@[simp] theorem State.modFunc_stretchEvents (s : State) (n : Nat) (f : Func → Func) : (s.modFunc n f).stretchEvents = s.stretchEvents := rfl
@[simp] theorem State.modFunc_skipPhase (s : State) (n : Nat) (f : Func → Func) : (s.modFunc n f).skipPhase = s.skipPhase := rfl
@[simp] theorem State.modFunc_skipWait (s : State) (n : Nat) (f : Func → Func) : (s.modFunc n f).skipWait = s.skipWait := rfl
@[simp] theorem State.modFunc_skipped (s : State) (n : Nat) (f : Func → Func) : (s.modFunc n f).skipped = s.skipped := rfl
@[simp] theorem State.modFunc_refilled (s : State) (n : Nat) (f : Func → Func) : (s.modFunc n f).refilled = s.refilled := rfl
@[simp] theorem State.modFunc_nextUntimed (s : State) (n : Nat) (f : Func → Func) : (s.modFunc n f).nextUntimed = s.nextUntimed := rfl
@[simp] theorem State.modFunc_inputs (s : State) (n : Nat) (f : Func → Func) : (s.modFunc n f).inputs = s.inputs := rfl
@[simp] theorem State.modFunc_irqs (s : State) (n : Nat) (f : Func → Func) : (s.modFunc n f).irqs = s.irqs := rfl
@[simp] theorem State.modFunc_sent (s : State) (n : Nat) (f : Func → Func) : (s.modFunc n f).sent = s.sent := rfl
@[simp] theorem State.modFunc_fresh (s : State) (n : Nat) (f : Func → Func) : (s.modFunc n f).fresh = s.fresh := rfl
@[simp] theorem State.modFunc_cur (s : State) (n : Nat) (f : Func → Func) : (s.modFunc n f).cur = s.cur := rfl
@[simp] theorem State.modFunc_pkt (s : State) (n : Nat) (f : Func → Func) : (s.modFunc n f).pkt = s.pkt := rfl
@[simp] theorem State.modFunc_actions (s : State) (n : Nat) (f : Func → Func) : (s.modFunc n f).actions = s.actions := rfl

/-! ### State.modDomainOf -/

@[simp] theorem State.modDomainOf_now (s : State) (g : Nat) (f : Domain → Domain) : (s.modDomainOf g f).now = s.now := rfl
@[simp] theorem State.modDomainOf_tick (s : State) (g : Nat) (f : Domain → Domain) : (s.modDomainOf g f).tick = s.tick := rfl
@[simp] theorem State.modDomainOf_moduleId (s : State) (g : Nat) (f : Domain → Domain) : (s.modDomainOf g f).moduleId = s.moduleId := rfl
@[simp] theorem State.modDomainOf_clusters (s : State) (g : Nat) (f : Domain → Domain) : (s.modDomainOf g f).clusters = s.clusters := rfl
@[simp] theorem State.modDomainOf_hbm (s : State) (g : Nat) (f : Domain → Domain) : (s.modDomainOf g f).hbm = s.hbm := rfl
@[simp] theorem State.modDomainOf_nodes (s : State) (g : Nat) (f : Domain → Domain) : (s.modDomainOf g f).nodes = s.nodes := rfl
@[simp] theorem State.modDomainOf_rekeys (s : State) (g : Nat) (f : Domain → Domain) : (s.modDomainOf g f).rekeys = s.rekeys := rfl
@[simp] theorem State.modDomainOf_moved (s : State) (g : Nat) (f : Domain → Domain) : (s.modDomainOf g f).moved = s.moved := rfl
@[simp] theorem State.modDomainOf_worlds (s : State) (g : Nat) (f : Domain → Domain) : (s.modDomainOf g f).worlds = s.worlds := rfl
@[simp] theorem State.modDomainOf_peers (s : State) (g : Nat) (f : Domain → Domain) : (s.modDomainOf g f).peers = s.peers := rfl
@[simp] theorem State.modDomainOf_imports (s : State) (g : Nat) (f : Domain → Domain) : (s.modDomainOf g f).imports = s.imports := rfl
@[simp] theorem State.modDomainOf_images (s : State) (g : Nat) (f : Domain → Domain) : (s.modDomainOf g f).images = s.images := rfl
@[simp] theorem State.modDomainOf_imageSets (s : State) (g : Nat) (f : Domain → Domain) : (s.modDomainOf g f).imageSets = s.imageSets := rfl
@[simp] theorem State.modDomainOf_parks (s : State) (g : Nat) (f : Domain → Domain) : (s.modDomainOf g f).parks = s.parks := rfl
@[simp] theorem State.modDomainOf_restores (s : State) (g : Nat) (f : Domain → Domain) : (s.modDomainOf g f).restores = s.restores := rfl
@[simp] theorem State.modDomainOf_launchQ (s : State) (g : Nat) (f : Domain → Domain) : (s.modDomainOf g f).launchQ = s.launchQ := rfl
@[simp] theorem State.modDomainOf_tasks (s : State) (g : Nat) (f : Domain → Domain) : (s.modDomainOf g f).tasks = s.tasks := rfl
@[simp] theorem State.modDomainOf_nextTask (s : State) (g : Nat) (f : Domain → Domain) : (s.modDomainOf g f).nextTask = s.nextTask := rfl
@[simp] theorem State.modDomainOf_admitted (s : State) (g : Nat) (f : Domain → Domain) : (s.modDomainOf g f).admitted = s.admitted := rfl
@[simp] theorem State.modDomainOf_stopSeq (s : State) (g : Nat) (f : Domain → Domain) : (s.modDomainOf g f).stopSeq = s.stopSeq := rfl
@[simp] theorem State.modDomainOf_migrations (s : State) (g : Nat) (f : Domain → Domain) : (s.modDomainOf g f).migrations = s.migrations := rfl
@[simp] theorem State.modDomainOf_shootdowns (s : State) (g : Nat) (f : Domain → Domain) : (s.modDomainOf g f).shootdowns = s.shootdowns := rfl
@[simp] theorem State.modDomainOf_assay (s : State) (g : Nat) (f : Domain → Domain) : (s.modDomainOf g f).assay = s.assay := rfl
@[simp] theorem State.modDomainOf_ports (s : State) (g : Nat) (f : Domain → Domain) : (s.modDomainOf g f).ports = s.ports := rfl
@[simp] theorem State.modDomainOf_clockParent (s : State) (g : Nat) (f : Domain → Domain) : (s.modDomainOf g f).clockParent = s.clockParent := rfl
@[simp] theorem State.modDomainOf_pipes (s : State) (g : Nat) (f : Domain → Domain) : (s.modDomainOf g f).pipes = s.pipes := rfl
@[simp] theorem State.modDomainOf_absorbQ (s : State) (g : Nat) (f : Domain → Domain) : (s.modDomainOf g f).absorbQ = s.absorbQ := rfl
@[simp] theorem State.modDomainOf_cairns (s : State) (g : Nat) (f : Domain → Domain) : (s.modDomainOf g f).cairns = s.cairns := rfl
@[simp] theorem State.modDomainOf_funcs (s : State) (g : Nat) (f : Domain → Domain) : (s.modDomainOf g f).funcs = s.funcs := rfl
@[simp] theorem State.modDomainOf_bring (s : State) (g : Nat) (f : Domain → Domain) : (s.modDomainOf g f).bring = s.bring := rfl
@[simp] theorem State.modDomainOf_bringDone (s : State) (g : Nat) (f : Domain → Domain) : (s.modDomainOf g f).bringDone = s.bringDone := rfl
@[simp] theorem State.modDomainOf_bports (s : State) (g : Nat) (f : Domain → Domain) : (s.modDomainOf g f).bports = s.bports := rfl
@[simp] theorem State.modDomainOf_selft (s : State) (g : Nat) (f : Domain → Domain) : (s.modDomainOf g f).selft = s.selft := rfl
@[simp] theorem State.modDomainOf_selftDone (s : State) (g : Nat) (f : Domain → Domain) : (s.modDomainOf g f).selftDone = s.selftDone := rfl
@[simp] theorem State.modDomainOf_sagging (s : State) (g : Nat) (f : Domain → Domain) : (s.modDomainOf g f).sagging = s.sagging := rfl
@[simp] theorem State.modDomainOf_stretchCount (s : State) (g : Nat) (f : Domain → Domain) : (s.modDomainOf g f).stretchCount = s.stretchCount := rfl
@[simp] theorem State.modDomainOf_stretchEvents (s : State) (g : Nat) (f : Domain → Domain) : (s.modDomainOf g f).stretchEvents = s.stretchEvents := rfl
@[simp] theorem State.modDomainOf_skipPhase (s : State) (g : Nat) (f : Domain → Domain) : (s.modDomainOf g f).skipPhase = s.skipPhase := rfl
@[simp] theorem State.modDomainOf_skipWait (s : State) (g : Nat) (f : Domain → Domain) : (s.modDomainOf g f).skipWait = s.skipWait := rfl
@[simp] theorem State.modDomainOf_skipped (s : State) (g : Nat) (f : Domain → Domain) : (s.modDomainOf g f).skipped = s.skipped := rfl
@[simp] theorem State.modDomainOf_refilled (s : State) (g : Nat) (f : Domain → Domain) : (s.modDomainOf g f).refilled = s.refilled := rfl
@[simp] theorem State.modDomainOf_nextUntimed (s : State) (g : Nat) (f : Domain → Domain) : (s.modDomainOf g f).nextUntimed = s.nextUntimed := rfl
@[simp] theorem State.modDomainOf_inputs (s : State) (g : Nat) (f : Domain → Domain) : (s.modDomainOf g f).inputs = s.inputs := rfl
@[simp] theorem State.modDomainOf_irqs (s : State) (g : Nat) (f : Domain → Domain) : (s.modDomainOf g f).irqs = s.irqs := rfl
@[simp] theorem State.modDomainOf_sent (s : State) (g : Nat) (f : Domain → Domain) : (s.modDomainOf g f).sent = s.sent := rfl
@[simp] theorem State.modDomainOf_fresh (s : State) (g : Nat) (f : Domain → Domain) : (s.modDomainOf g f).fresh = s.fresh := rfl
@[simp] theorem State.modDomainOf_cur (s : State) (g : Nat) (f : Domain → Domain) : (s.modDomainOf g f).cur = s.cur := rfl
@[simp] theorem State.modDomainOf_pkt (s : State) (g : Nat) (f : Domain → Domain) : (s.modDomainOf g f).pkt = s.pkt := rfl
@[simp] theorem State.modDomainOf_actions (s : State) (g : Nat) (f : Domain → Domain) : (s.modDomainOf g f).actions = s.actions := rfl

/-! ### State.modDomain -/

@[simp] theorem State.modDomain_now (s : State) (m : Nat) (f : Domain → Domain) : (s.modDomain m f).now = s.now := rfl
@[simp] theorem State.modDomain_tick (s : State) (m : Nat) (f : Domain → Domain) : (s.modDomain m f).tick = s.tick := rfl
@[simp] theorem State.modDomain_moduleId (s : State) (m : Nat) (f : Domain → Domain) : (s.modDomain m f).moduleId = s.moduleId := rfl
@[simp] theorem State.modDomain_clusters (s : State) (m : Nat) (f : Domain → Domain) : (s.modDomain m f).clusters = s.clusters := rfl
@[simp] theorem State.modDomain_hbm (s : State) (m : Nat) (f : Domain → Domain) : (s.modDomain m f).hbm = s.hbm := rfl
@[simp] theorem State.modDomain_nodes (s : State) (m : Nat) (f : Domain → Domain) : (s.modDomain m f).nodes = s.nodes := rfl
@[simp] theorem State.modDomain_rekeys (s : State) (m : Nat) (f : Domain → Domain) : (s.modDomain m f).rekeys = s.rekeys := rfl
@[simp] theorem State.modDomain_moved (s : State) (m : Nat) (f : Domain → Domain) : (s.modDomain m f).moved = s.moved := rfl
@[simp] theorem State.modDomain_worlds (s : State) (m : Nat) (f : Domain → Domain) : (s.modDomain m f).worlds = s.worlds := rfl
@[simp] theorem State.modDomain_peers (s : State) (m : Nat) (f : Domain → Domain) : (s.modDomain m f).peers = s.peers := rfl
@[simp] theorem State.modDomain_imports (s : State) (m : Nat) (f : Domain → Domain) : (s.modDomain m f).imports = s.imports := rfl
@[simp] theorem State.modDomain_images (s : State) (m : Nat) (f : Domain → Domain) : (s.modDomain m f).images = s.images := rfl
@[simp] theorem State.modDomain_imageSets (s : State) (m : Nat) (f : Domain → Domain) : (s.modDomain m f).imageSets = s.imageSets := rfl
@[simp] theorem State.modDomain_parks (s : State) (m : Nat) (f : Domain → Domain) : (s.modDomain m f).parks = s.parks := rfl
@[simp] theorem State.modDomain_restores (s : State) (m : Nat) (f : Domain → Domain) : (s.modDomain m f).restores = s.restores := rfl
@[simp] theorem State.modDomain_launchQ (s : State) (m : Nat) (f : Domain → Domain) : (s.modDomain m f).launchQ = s.launchQ := rfl
@[simp] theorem State.modDomain_tasks (s : State) (m : Nat) (f : Domain → Domain) : (s.modDomain m f).tasks = s.tasks := rfl
@[simp] theorem State.modDomain_nextTask (s : State) (m : Nat) (f : Domain → Domain) : (s.modDomain m f).nextTask = s.nextTask := rfl
@[simp] theorem State.modDomain_admitted (s : State) (m : Nat) (f : Domain → Domain) : (s.modDomain m f).admitted = s.admitted := rfl
@[simp] theorem State.modDomain_stopSeq (s : State) (m : Nat) (f : Domain → Domain) : (s.modDomain m f).stopSeq = s.stopSeq := rfl
@[simp] theorem State.modDomain_migrations (s : State) (m : Nat) (f : Domain → Domain) : (s.modDomain m f).migrations = s.migrations := rfl
@[simp] theorem State.modDomain_shootdowns (s : State) (m : Nat) (f : Domain → Domain) : (s.modDomain m f).shootdowns = s.shootdowns := rfl
@[simp] theorem State.modDomain_assay (s : State) (m : Nat) (f : Domain → Domain) : (s.modDomain m f).assay = s.assay := rfl
@[simp] theorem State.modDomain_ports (s : State) (m : Nat) (f : Domain → Domain) : (s.modDomain m f).ports = s.ports := rfl
@[simp] theorem State.modDomain_clockParent (s : State) (m : Nat) (f : Domain → Domain) : (s.modDomain m f).clockParent = s.clockParent := rfl
@[simp] theorem State.modDomain_pipes (s : State) (m : Nat) (f : Domain → Domain) : (s.modDomain m f).pipes = s.pipes := rfl
@[simp] theorem State.modDomain_absorbQ (s : State) (m : Nat) (f : Domain → Domain) : (s.modDomain m f).absorbQ = s.absorbQ := rfl
@[simp] theorem State.modDomain_cairns (s : State) (m : Nat) (f : Domain → Domain) : (s.modDomain m f).cairns = s.cairns := rfl
@[simp] theorem State.modDomain_funcs (s : State) (m : Nat) (f : Domain → Domain) : (s.modDomain m f).funcs = s.funcs := rfl
@[simp] theorem State.modDomain_bring (s : State) (m : Nat) (f : Domain → Domain) : (s.modDomain m f).bring = s.bring := rfl
@[simp] theorem State.modDomain_bringDone (s : State) (m : Nat) (f : Domain → Domain) : (s.modDomain m f).bringDone = s.bringDone := rfl
@[simp] theorem State.modDomain_bports (s : State) (m : Nat) (f : Domain → Domain) : (s.modDomain m f).bports = s.bports := rfl
@[simp] theorem State.modDomain_selft (s : State) (m : Nat) (f : Domain → Domain) : (s.modDomain m f).selft = s.selft := rfl
@[simp] theorem State.modDomain_selftDone (s : State) (m : Nat) (f : Domain → Domain) : (s.modDomain m f).selftDone = s.selftDone := rfl
@[simp] theorem State.modDomain_sagging (s : State) (m : Nat) (f : Domain → Domain) : (s.modDomain m f).sagging = s.sagging := rfl
@[simp] theorem State.modDomain_stretchCount (s : State) (m : Nat) (f : Domain → Domain) : (s.modDomain m f).stretchCount = s.stretchCount := rfl
@[simp] theorem State.modDomain_stretchEvents (s : State) (m : Nat) (f : Domain → Domain) : (s.modDomain m f).stretchEvents = s.stretchEvents := rfl
@[simp] theorem State.modDomain_skipPhase (s : State) (m : Nat) (f : Domain → Domain) : (s.modDomain m f).skipPhase = s.skipPhase := rfl
@[simp] theorem State.modDomain_skipWait (s : State) (m : Nat) (f : Domain → Domain) : (s.modDomain m f).skipWait = s.skipWait := rfl
@[simp] theorem State.modDomain_skipped (s : State) (m : Nat) (f : Domain → Domain) : (s.modDomain m f).skipped = s.skipped := rfl
@[simp] theorem State.modDomain_refilled (s : State) (m : Nat) (f : Domain → Domain) : (s.modDomain m f).refilled = s.refilled := rfl
@[simp] theorem State.modDomain_nextUntimed (s : State) (m : Nat) (f : Domain → Domain) : (s.modDomain m f).nextUntimed = s.nextUntimed := rfl
@[simp] theorem State.modDomain_inputs (s : State) (m : Nat) (f : Domain → Domain) : (s.modDomain m f).inputs = s.inputs := rfl
@[simp] theorem State.modDomain_irqs (s : State) (m : Nat) (f : Domain → Domain) : (s.modDomain m f).irqs = s.irqs := rfl
@[simp] theorem State.modDomain_sent (s : State) (m : Nat) (f : Domain → Domain) : (s.modDomain m f).sent = s.sent := rfl
@[simp] theorem State.modDomain_fresh (s : State) (m : Nat) (f : Domain → Domain) : (s.modDomain m f).fresh = s.fresh := rfl
@[simp] theorem State.modDomain_cur (s : State) (m : Nat) (f : Domain → Domain) : (s.modDomain m f).cur = s.cur := rfl
@[simp] theorem State.modDomain_pkt (s : State) (m : Nat) (f : Domain → Domain) : (s.modDomain m f).pkt = s.pkt := rfl
@[simp] theorem State.modDomain_actions (s : State) (m : Nat) (f : Domain → Domain) : (s.modDomain m f).actions = s.actions := rfl

/-! ### Cluster.modCore -/

@[simp] theorem Cluster.modCore_run (c : Cluster) (k : Nat) (f : Core → Core) : (c.modCore k f).run = c.run := rfl
@[simp] theorem Cluster.modCore_pitchRun (c : Cluster) (k : Nat) (f : Core → Core) : (c.modCore k f).pitchRun = c.pitchRun := rfl
@[simp] theorem Cluster.modCore_holding (c : Cluster) (k : Nat) (f : Core → Core) : (c.modCore k f).holding = c.holding := rfl
@[simp] theorem Cluster.modCore_holds (c : Cluster) (k : Nat) (f : Core → Core) : (c.modCore k f).holds = c.holds := rfl
@[simp] theorem Cluster.modCore_trigger (c : Cluster) (k : Nat) (f : Core → Core) : (c.modCore k f).trigger = c.trigger := rfl
@[simp] theorem Cluster.modCore_fenced (c : Cluster) (k : Nat) (f : Core → Core) : (c.modCore k f).fenced = c.fenced := rfl
@[simp] theorem Cluster.modCore_fenceCode (c : Cluster) (k : Nat) (f : Core → Core) : (c.modCore k f).fenceCode = c.fenceCode := rfl
@[simp] theorem Cluster.modCore_world (c : Cluster) (k : Nat) (f : Core → Core) : (c.modCore k f).world = c.world := rfl
@[simp] theorem Cluster.modCore_image (c : Cluster) (k : Nat) (f : Core → Core) : (c.modCore k f).image = c.image := rfl
@[simp] theorem Cluster.modCore_digest (c : Cluster) (k : Nat) (f : Core → Core) : (c.modCore k f).digest = c.digest := rfl
@[simp] theorem Cluster.modCore_logical (c : Cluster) (k : Nat) (f : Core → Core) : (c.modCore k f).logical = c.logical := rfl
@[simp] theorem Cluster.modCore_counters (c : Cluster) (k : Nat) (f : Core → Core) : (c.modCore k f).counters = c.counters := rfl
@[simp] theorem Cluster.modCore_triggers (c : Cluster) (k : Nat) (f : Core → Core) : (c.modCore k f).triggers = c.triggers := rfl
@[simp] theorem Cluster.modCore_landings (c : Cluster) (k : Nat) (f : Core → Core) : (c.modCore k f).landings = c.landings := rfl
@[simp] theorem Cluster.modCore_holdCount (c : Cluster) (k : Nat) (f : Core → Core) : (c.modCore k f).holdCount = c.holdCount := rfl
@[simp] theorem Cluster.modCore_compatCount (c : Cluster) (k : Nat) (f : Core → Core) : (c.modCore k f).compatCount = c.compatCount := rfl
@[simp] theorem Cluster.modCore_dupCount (c : Cluster) (k : Nat) (f : Core → Core) : (c.modCore k f).dupCount = c.dupCount := rfl
@[simp] theorem Cluster.modCore_copyErrors (c : Cluster) (k : Nat) (f : Core → Core) : (c.modCore k f).copyErrors = c.copyErrors := rfl
@[simp] theorem Cluster.modCore_cairnErrors (c : Cluster) (k : Nat) (f : Core → Core) : (c.modCore k f).cairnErrors = c.cairnErrors := rfl
@[simp] theorem Cluster.modCore_satCount (c : Cluster) (k : Nat) (f : Core → Core) : (c.modCore k f).satCount = c.satCount := rfl
@[simp] theorem Cluster.modCore_tlb0 (c : Cluster) (k : Nat) (f : Core → Core) : (c.modCore k f).tlb0 = c.tlb0 := rfl
@[simp] theorem Cluster.modCore_tlb1 (c : Cluster) (k : Nat) (f : Core → Core) : (c.modCore k f).tlb1 = c.tlb1 := rfl
@[simp] theorem Cluster.modCore_trap (c : Cluster) (k : Nat) (f : Core → Core) : (c.modCore k f).trap = c.trap := rfl
@[simp] theorem Cluster.modCore_bumps (c : Cluster) (k : Nat) (f : Core → Core) : (c.modCore k f).bumps = c.bumps := rfl
@[simp] theorem Cluster.modCore_reads (c : Cluster) (k : Nat) (f : Core → Core) : (c.modCore k f).reads = c.reads := rfl
@[simp] theorem Cluster.modCore_changes (c : Cluster) (k : Nat) (f : Core → Core) : (c.modCore k f).changes = c.changes := rfl
@[simp] theorem Cluster.modCore_counted (c : Cluster) (k : Nat) (f : Core → Core) : (c.modCore k f).counted = c.counted := rfl
@[simp] theorem Cluster.modCore_arrived (c : Cluster) (k : Nat) (f : Core → Core) : (c.modCore k f).arrived = c.arrived := rfl
@[simp] theorem Cluster.modCore_barError (c : Cluster) (k : Nat) (f : Core → Core) : (c.modCore k f).barError = c.barError := rfl
@[simp] theorem Cluster.modCore_frozen (c : Cluster) (k : Nat) (f : Core → Core) : (c.modCore k f).frozen = c.frozen := rfl
@[simp] theorem Cluster.modCore_streaming (c : Cluster) (k : Nat) (f : Core → Core) : (c.modCore k f).streaming = c.streaming := rfl
@[simp] theorem Cluster.modCore_rewalk (c : Cluster) (k : Nat) (f : Core → Core) : (c.modCore k f).rewalk = c.rewalk := rfl
@[simp] theorem Cluster.modCore_accepted (c : Cluster) (k : Nat) (f : Core → Core) : (c.modCore k f).accepted = c.accepted := rfl
@[simp] theorem Cluster.modCore_side (c : Cluster) (k : Nat) (f : Core → Core) : (c.modCore k f).side = c.side := rfl

/-! ### Core.modCtx -/

@[simp] theorem Core.modCtx_running (c : Core) (x : Nat) (f : Ctx → Ctx) : (c.modCtx x f).running = c.running := rfl
@[simp] theorem Core.modCtx_choosing (c : Core) (x : Nat) (f : Ctx → Ctx) : (c.modCtx x f).choosing = c.choosing := rfl
@[simp] theorem Core.modCtx_drained (c : Core) (x : Nat) (f : Ctx → Ctx) : (c.modCtx x f).drained = c.drained := rfl
@[simp] theorem Core.modCtx_spad (c : Core) (x : Nat) (f : Ctx → Ctx) : (c.modCtx x f).spad = c.spad := rfl
@[simp] theorem Core.modCtx_tags (c : Core) (x : Nat) (f : Ctx → Ctx) : (c.modCtx x f).tags = c.tags := rfl
@[simp] theorem Core.modCtx_forms (c : Core) (x : Nat) (f : Ctx → Ctx) : (c.modCtx x f).forms = c.forms := rfl
@[simp] theorem Core.modCtx_errs (c : Core) (x : Nat) (f : Ctx → Ctx) : (c.modCtx x f).errs = c.errs := rfl
@[simp] theorem Core.modCtx_fieldErrs (c : Core) (x : Nat) (f : Ctx → Ctx) : (c.modCtx x f).fieldErrs = c.fieldErrs := rfl
@[simp] theorem Core.modCtx_fixes (c : Core) (x : Nat) (f : Ctx → Ctx) : (c.modCtx x f).fixes = c.fixes := rfl
@[simp] theorem Core.modCtx_lent (c : Core) (x : Nat) (f : Ctx → Ctx) : (c.modCtx x f).lent = c.lent := rfl
@[simp] theorem Core.modCtx_imem (c : Core) (x : Nat) (f : Ctx → Ctx) : (c.modCtx x f).imem = c.imem := rfl
@[simp] theorem Core.modCtx_imemErrs (c : Core) (x : Nat) (f : Ctx → Ctx) : (c.modCtx x f).imemErrs = c.imemErrs := rfl
@[simp] theorem Core.modCtx_wbuf (c : Core) (x : Nat) (f : Ctx → Ctx) : (c.modCtx x f).wbuf = c.wbuf := rfl
@[simp] theorem Core.modCtx_sched (c : Core) (x : Nat) (f : Ctx → Ctx) : (c.modCtx x f).sched = c.sched := rfl
@[simp] theorem Core.modCtx_acc (c : Core) (x : Nat) (f : Ctx → Ctx) : (c.modCtx x f).acc = c.acc := rfl
@[simp] theorem Core.modCtx_accPoison (c : Core) (x : Nat) (f : Ctx → Ctx) : (c.modCtx x f).accPoison = c.accPoison := rfl
@[simp] theorem Core.modCtx_rings (c : Core) (x : Nat) (f : Ctx → Ctx) : (c.modCtx x f).rings = c.rings := rfl
@[simp] theorem Core.modCtx_shapes (c : Core) (x : Nat) (f : Ctx → Ctx) : (c.modCtx x f).shapes = c.shapes := rfl
@[simp] theorem Core.modCtx_patterns (c : Core) (x : Nat) (f : Ctx → Ctx) : (c.modCtx x f).patterns = c.patterns := rfl
@[simp] theorem Core.modCtx_patSel (c : Core) (x : Nat) (f : Ctx → Ctx) : (c.modCtx x f).patSel = c.patSel := rfl
@[simp] theorem Core.modCtx_ts (c : Core) (x : Nat) (f : Ctx → Ctx) : (c.modCtx x f).ts = c.ts := rfl
@[simp] theorem Core.modCtx_anvil (c : Core) (x : Nat) (f : Ctx → Ctx) : (c.modCtx x f).anvil = c.anvil := rfl
@[simp] theorem Core.modCtx_fold (c : Core) (x : Nat) (f : Ctx → Ctx) : (c.modCtx x f).fold = c.fold := rfl
@[simp] theorem Core.modCtx_cmds (c : Core) (x : Nat) (f : Ctx → Ctx) : (c.modCtx x f).cmds = c.cmds := rfl
@[simp] theorem Core.modCtx_pending (c : Core) (x : Nat) (f : Ctx → Ctx) : (c.modCtx x f).pending = c.pending := rfl
@[simp] theorem Core.modCtx_afault (c : Core) (x : Nat) (f : Ctx → Ctx) : (c.modCtx x f).afault = c.afault := rfl
@[simp] theorem Core.modCtx_sealCtr (c : Core) (x : Nat) (f : Ctx → Ctx) : (c.modCtx x f).sealCtr = c.sealCtr := rfl
@[simp] theorem Core.modCtx_collisions (c : Core) (x : Nat) (f : Ctx → Ctx) : (c.modCtx x f).collisions = c.collisions := rfl
@[simp] theorem Core.modCtx_ceCount (c : Core) (x : Nat) (f : Ctx → Ctx) : (c.modCtx x f).ceCount = c.ceCount := rfl
@[simp] theorem Core.modCtx_poisonCount (c : Core) (x : Nat) (f : Ctx → Ctx) : (c.modCtx x f).poisonCount = c.poisonCount := rfl
@[simp] theorem Core.modCtx_stg (c : Core) (x : Nat) (f : Ctx → Ctx) : (c.modCtx x f).stg = c.stg := rfl
@[simp] theorem Core.modCtx_writers (c : Core) (x : Nat) (f : Ctx → Ctx) : (c.modCtx x f).writers = c.writers := rfl
@[simp] theorem Core.modCtx_dup (c : Core) (x : Nat) (f : Ctx → Ctx) : (c.modCtx x f).dup = c.dup := rfl
@[simp] theorem Core.modCtx_sideUsed (c : Core) (x : Nat) (f : Ctx → Ctx) : (c.modCtx x f).sideUsed = c.sideUsed := rfl
@[simp] theorem Core.modCtx_sideOld (c : Core) (x : Nat) (f : Ctx → Ctx) : (c.modCtx x f).sideOld = c.sideOld := rfl
@[simp] theorem Core.modCtx_heads (c : Core) (x : Nat) (f : Ctx → Ctx) : (c.modCtx x f).heads = c.heads := rfl

/-! ### The cluster, core and context that an update names -/

theorem Core.ctx_modCtx (c : Core) (x y : Nat) (f : Ctx → Ctx) :
    (c.modCtx x f).ctx y = if y = x then f (c.ctx x) else c.ctx y := tget_tput _ _ _ _ _
@[simp] theorem Core.ctx_modCtx_same (c : Core) (x : Nat) (f : Ctx → Ctx) : (c.modCtx x f).ctx x = f (c.ctx x) :=
  tget_tput_same _ _ _ _

theorem Cluster.core_modCore (c : Cluster) (k l : Nat) (f : Core → Core) :
    (c.modCore k f).core l = if l = k then f (c.core k) else c.core l := tget_tput _ _ _ _ _
@[simp] theorem Cluster.core_modCore_same (c : Cluster) (k : Nat) (f : Core → Core) : (c.modCore k f).core k = f (c.core k) :=
  tget_tput_same _ _ _ _

theorem State.cluster_modCluster (s : State) (g h : Nat) (f : Cluster → Cluster) :
    (s.modCluster g f).cluster h = if h = g then f (s.cluster g) else s.cluster h := tget_tput _ _ _ _ _
@[simp] theorem State.cluster_modCluster_same (s : State) (g : Nat) (f : Cluster → Cluster) :
    (s.modCluster g f).cluster g = f (s.cluster g) := tget_tput_same _ _ _ _

theorem State.cluster_modCore (s : State) (g k h : Nat) (f : Core → Core) :
    (s.modCore g k f).cluster h = if h = g then (s.cluster g).modCore k f else s.cluster h :=
  State.cluster_modCluster _ _ _ _
@[simp] theorem State.cluster_modCore_same (s : State) (g k : Nat) (f : Core → Core) :
    (s.modCore g k f).cluster g = (s.cluster g).modCore k f := State.cluster_modCluster_same _ _ _

theorem State.core_modCore (s : State) (g k h l : Nat) (f : Core → Core) :
    (s.modCore g k f).core h l = if h = g ∧ l = k then f (s.core g k) else s.core h l := by
  unfold State.core
  rw [State.cluster_modCore]
  by_cases hg : h = g
  · subst hg
    simp [Cluster.core_modCore]
  · simp [hg]
@[simp] theorem State.core_modCore_same (s : State) (g k : Nat) (f : Core → Core) :
    (s.modCore g k f).core g k = f (s.core g k) := by simp [State.core_modCore]

theorem State.core_modCluster_ne (s : State) (g h k : Nat) (f : Cluster → Cluster) (hg : h ≠ g) :
    (s.modCluster g f).core h k = s.core h k := by
  simp [State.core, State.cluster_modCluster, hg]

theorem State.ctx_modCtx (s : State) (g k x h l y : Nat) (f : Ctx → Ctx) :
    (s.modCtx g k x f).ctx h l y = if h = g ∧ l = k ∧ y = x then f (s.ctx g k x) else s.ctx h l y := by
  unfold State.ctx State.modCtx
  rw [State.core_modCore]
  by_cases hg : h = g ∧ l = k
  · obtain ⟨rfl, rfl⟩ := hg
    simp [Core.ctx_modCtx]
  · have : ¬ (h = g ∧ l = k ∧ y = x) := fun e => hg ⟨e.1, e.2.1⟩
    simp [hg, this]
@[simp] theorem State.ctx_modCtx_same (s : State) (g k x : Nat) (f : Ctx → Ctx) :
    (s.modCtx g k x f).ctx g k x = f (s.ctx g k x) := by simp [State.ctx_modCtx]

@[simp] theorem State.world_modWorld_same (s : State) (w : Nat) (f : World → World) :
    (s.modWorld w f).world w = f (s.world w) := tget_tput_same _ _ _ _
theorem State.world_modWorld_ne (s : State) (w v : Nat) (f : World → World) (h : v ≠ w) :
    (s.modWorld w f).world v = s.world v := tget_tput_ne _ _ _ h
@[simp] theorem State.port_modPort_same (s : State) (p : Nat) (f : Port → Port) :
    (s.modPort p f).port p = f (s.port p) := tget_tput_same _ _ _ _
theorem State.port_modPort_ne (s : State) (p q : Nat) (f : Port → Port) (h : q ≠ p) :
    (s.modPort p f).port q = s.port q := tget_tput_ne _ _ _ h
@[simp] theorem State.pipe_modPipe_same (s : State) (p : Nat) (f : Pipe → Pipe) :
    (s.modPipe p f).pipe p = f (s.pipe p) := tget_tput_same _ _ _ _
theorem State.pipe_modPipe_ne (s : State) (p q : Nat) (f : Pipe → Pipe) (h : q ≠ p) :
    (s.modPipe p f).pipe q = s.pipe q := tget_tput_ne _ _ _ h
@[simp] theorem State.func_modFunc_same (s : State) (n : Nat) (f : Func → Func) :
    (s.modFunc n f).func n = f (s.func n) := tget_tput_same _ _ _ _
theorem State.func_modFunc_ne (s : State) (n m : Nat) (f : Func → Func) (h : m ≠ n) :
    (s.modFunc n f).func m = s.func m := tget_tput_ne _ _ _ h

/-! ### The issuing slot's context, core and cluster -/

@[simp] theorem State.here_modHere (s : State) (f : Ctx → Ctx) : (s.modHere f).here = f s.here :=
  State.ctx_modCtx_same _ _ _ _ _
@[simp] theorem State.hereCore_modHere (s : State) (f : Ctx → Ctx) :
    (s.modHere f).hereCore = s.hereCore.modCtx s.cur.x f := State.core_modCore_same _ _ _ _
@[simp] theorem State.hereCluster_modHere (s : State) (f : Ctx → Ctx) :
    (s.modHere f).hereCluster = s.hereCluster.modCore s.cur.k (Core.modCtx s.cur.x f) := State.cluster_modCore_same _ _ _ _
@[simp] theorem State.hereCore_modHereCore (s : State) (f : Core → Core) : (s.modHereCore f).hereCore = f s.hereCore :=
  State.core_modCore_same _ _ _ _
@[simp] theorem State.here_modHereCore (s : State) (f : Core → Core) : (s.modHereCore f).here = (f s.hereCore).ctx s.cur.x := by
  show (s.modCore s.cur.g s.cur.k f).ctx s.cur.g s.cur.k s.cur.x = _
  simp [State.ctx, State.hereCore]
@[simp] theorem State.hereCluster_modHereCore (s : State) (f : Core → Core) :
    (s.modHereCore f).hereCluster = s.hereCluster.modCore s.cur.k f := State.cluster_modCore_same _ _ _ _
@[simp] theorem State.hereCluster_modHereCluster (s : State) (f : Cluster → Cluster) :
    (s.modHereCluster f).hereCluster = f s.hereCluster := State.cluster_modCluster_same _ _ _
@[simp] theorem State.t_modHere (s : State) (f : Ctx → Ctx) : (s.modHere f).t = s.t := by simp [State.t]
@[simp] theorem State.t_modHereCore (s : State) (f : Core → Core) : (s.modHereCore f).t = s.t := by simp [State.t]
@[simp] theorem State.here_emit (s : State) (lat : Nat) (d : Dest) (mask val : Vec) (fl : Word) :
    (s.emit lat d mask val fl).here =
      { s.here with flight := s.here.flight ++ [⟨s.t + lat, s.t, s.cur.pos, d, mask, val, fl⟩] } := State.here_modHere _ _
@[simp] theorem State.t_emit (s : State) (lat : Nat) (d : Dest) (mask val : Vec) (fl : Word) :
    (s.emit lat d mask val fl).t = s.t := State.t_modHere _ _

end Sys2Proof.Machine
end

