-- ==== Sys2Proof/Laws/Ops.lean ====
section
/-! SUPPORT. What each shared operation of the meanings answers, said once: where its checks pass it goes on, and where one fails it
takes the trap, holds or blocks. -/

namespace Sys2Proof.Machine

/-! ### Checks -/

theorem State.legal_ok {s : State} {r : Row} {f : State → Out} (h : s.illegal r = none) : s.legal r f = f s := by
  simp [State.legal, h]
theorem State.legal_trap {s : State} {r : Row} {f : State → Out} {c : Nat} (h : s.illegal r = some c) :
    s.legal r f = .next (s.takeTrap c) := by simp [State.legal, h]

theorem State.require_ok {s : State} {ok : Bool} {c : Nat} {f : State → Out} (h : ok = true) : s.require ok c f = f s := by
  simp [State.require, h]
theorem State.require_trap {s : State} {ok : Bool} {c : Nat} {f : State → Out} (h : ok = false) :
    s.require ok c f = .next (s.takeTrap c) := by simp [State.require, h]
theorem State.limit_ok {s : State} {ok : Bool} {f : State → Out} (h : ok = true) : s.limit ok f = f s := State.require_ok h
theorem State.limit_trap {s : State} {ok : Bool} {f : State → Out} (h : ok = false) :
    s.limit ok f = .next (s.takeTrap codeOperandIllegal) := State.require_trap h

@[simp] theorem State.check_none (s : State) (ws : List Nat) (k : State → Out) : s.check none ws k = k s := rfl
theorem State.check_trap {s : State} {c : Nat} (ws : List Nat) (k : State → Out) (h : c ≠ codePoison) :
    s.check (some c) ws k = .next (s.takeTrap c) := by simp [State.check, h]

theorem State.usePort_ok {s : State} {ls : List Nat} {k : State → Out}
    (h : (selfConflict (ls.map (fun l => (s.t + 1, l))) || s.hereCore.busy (ls.map (fun l => (s.t + 1, l)))) = false) :
    s.usePort ls k = k (s.bookHere (ls.map (fun l => (s.t + 1, l)))) := by
  simp only [State.usePort, h]
  rfl
theorem State.usePort_conflict {s : State} {ls : List Nat} {k : State → Out}
    (h : (selfConflict (ls.map (fun l => (s.t + 1, l))) || s.hereCore.busy (ls.map (fun l => (s.t + 1, l)))) = true) :
    s.usePort ls k = .next s.bankConflict := by
  simp only [State.usePort, h]
  rfl

/-! ### Every operation answers a next state when its continuation does -/

/-- An answer that is a next state. -/
def Answered (o : Out) : Prop := ∃ t, o = .next t

@[simp] theorem answered_next (s : State) : Answered (.next s) := ⟨s, rfl⟩

theorem State.legal_answered {s : State} (r : Row) {f : State → Out} (h : ∀ s, Answered (f s)) : Answered (s.legal r f) := by
  unfold State.legal
  split
  · exact answered_next _
  · exact h s

theorem State.require_answered {s : State} (ok : Bool) (c : Nat) {f : State → Out} (h : ∀ s, Answered (f s)) :
    Answered (s.require ok c f) := by
  unfold State.require
  split
  · exact h s
  · exact answered_next _

theorem State.limit_answered {s : State} (ok : Bool) {f : State → Out} (h : ∀ s, Answered (f s)) : Answered (s.limit ok f) :=
  State.require_answered _ _ h

theorem State.check_answered {s : State} (f : Option Nat) (ws : List Nat) {k : State → Out} (h : ∀ s, Answered (k s)) :
    Answered (s.check f ws k) := by
  unfold State.check
  split
  · exact h s
  · split <;> exact answered_next _

theorem State.usePort_answered {s : State} (ls : List Nat) {k : State → Out} (h : ∀ s, Answered (k s)) :
    Answered (s.usePort ls k) := by
  unfold State.usePort
  dsimp only
  split
  · exact answered_next _
  · exact h _

theorem State.withhold_answered {s : State} (cls : Nat) (ws : List (Nat × Byte)) {k : State → Out} (h : ∀ s, Answered (k s)) :
    Answered (s.withhold cls ws k) := by
  unfold State.withhold
  dsimp only
  split
  · exact h _
  · split <;> exact answered_next _

theorem State.load_answered {s : State} (cls : Nat) (a : Int) (n al : Nat) (tag : Option Nat) {k : List Byte → State → Out}
    (h : ∀ b s, Answered (k b s)) : Answered (s.load cls a n al tag k) :=
  State.check_answered _ _ fun _ => State.check_answered _ _ fun _ => State.usePort_answered _ fun _ => h _ _

theorem State.store_answered {s : State} (cls : Nat) (a : Int) (al : Nat) (bs : List Byte) : Answered (s.store cls a al bs) :=
  State.check_answered _ _ fun _ => State.check_answered _ _ fun _ => State.withhold_answered _ _ answered_next

theorem State.command_answered {s : State} (full self : Bool) (sch : List (Nat × Nat)) (c : Cmd) {k : State → Out}
    (h : ∀ s, Answered (k s)) : Answered (s.command full self sch c k) := by
  unfold State.command
  split
  · exact answered_next _
  · split
    · exact answered_next _
    · exact h _

/-! ### Loads and stores that pass their checks -/

/-- The bytes of a store at an address. -/
abbrev placed (a : Nat) (bs : List Byte) : List (Nat × Byte) := List.zip (span a bs.length) bs

/-- A store whose checks pass performs its bytes into the withholding buffer and does nothing else. -/
theorem State.store_ok {s : State} {cls : Nat} {a : Int} {al : Nat} {bs : List Byte}
    (hr : Machine.rangeFault a bs.length al = none)
    (ht : s.hereCore.touchFault (writeTouch a.toNat bs.length) = none)
    (hf : s.hereCore.bufferFits cls s.cur.x s.freeStore (placed a.toNat bs) = true) :
    s.store cls a al bs = .next (s.modHereCore fun c =>
      ((placed a.toNat bs).foldl (fun c p => c.keepOld (lineOf p.1)) c).bufferStore cls s.cur.x s.freeStore
        (placed a.toNat bs)) := by
  simp only [State.store, hr, State.check_none, ht]
  simp only [State.withhold, hf, if_true]

/-- A load whose checks pass hands the bytes to its continuation, in a state in which its port is taken, the errors of its words are
met and its hold is due. -/
theorem State.load_ok {s : State} {cls : Nat} {a : Int} {n al : Nat} {tag : Option Nat} {k : List Byte → State → Out}
    (hr : Machine.rangeFault a n al = none)
    (ht : s.hereCore.touchFault { readTouch a.toNat n with tag := tag } = none)
    (hp : (selfConflict ((linesOf a.toNat n).map (fun l => (s.t + 1, l)))
      || s.hereCore.busy ((linesOf a.toNat n).map (fun l => (s.t + 1, l)))) = false) :
    s.load cls a n al tag k =
      let u := s.bookHere ((linesOf a.toNat n).map (fun l => (s.t + 1, l)))
      k (u.loadBytes cls (span a.toNat n)) (((u.spendOpen cls (span a.toNat n)).readWords (wordsOf a.toNat n)).loadHold) := by
  simp only [State.load, hr, State.check_none, ht]
  exact State.usePort_ok hp

/-! ### The memories that the operations on a core write stay canonical -/

/-- A core's memories are in canonical form. -/
def Core.memOk (c : Core) : Prop := Memory.wf c.spad = true ∧ Memory.wf c.imem = true

@[simp] theorem Core.spad_setErr (c : Core) (w : Nat) (e : WordErr) : (c.setErr w e).spad = c.spad := rfl
@[simp] theorem Core.imem_setErr (c : Core) (w : Nat) (e : WordErr) : (c.setErr w e).imem = c.imem := rfl
@[simp] theorem Core.spad_setPoison (c : Core) (w : Nat) (b : Bool) : (Core.setPoison w b c).spad = c.spad := rfl
@[simp] theorem Core.imem_setPoison (c : Core) (w : Nat) (b : Bool) : (Core.setPoison w b c).imem = c.imem := rfl

theorem Core.memOk_meet {c : Core} (w : Nat) (h : c.memOk) : (c.meet w).memOk := by
  unfold Core.meet
  split <;> exact h

theorem foldl_keeps {β σ : Type} (P : σ → Prop) (f : σ → β → σ) (l : List β) (s : σ) (h : P s) (hf : ∀ s b, P s → P (f s b)) :
    P (l.foldl f s) := by
  induction l generalizing s with
  | nil => exact h
  | cons b t ih => exact ih _ (hf s b h)

theorem Core.memOk_meetAll {c : Core} (ws : List Nat) (h : c.memOk) : (c.meetAll ws).memOk :=
  foldl_keeps Core.memOk _ ws c h fun _ w hc => Core.memOk_meet w hc

theorem Core.memOk_askFix {c : Core} (field : Bool) (n : Nat) (h : c.memOk) : (c.askFix field n).memOk := by
  unfold Core.askFix
  split <;> exact h

theorem Core.memOk_pass {c : Core} (w : Nat) (h : c.memOk) : (c.pass w).memOk := by
  unfold Core.pass
  split
  · exact Core.memOk_askFix _ _ h
  · exact Core.memOk_meet w h

theorem Core.memOk_passAll {c : Core} (ws : List Nat) (h : c.memOk) : (c.passAll ws).memOk :=
  foldl_keeps Core.memOk _ ws c h fun _ w hc => Core.memOk_pass w hc

theorem Core.memOk_passLine {c : Core} (l : Nat) (h : c.memOk) : (c.passLine l).memOk := Core.memOk_passAll _ h

theorem Core.memOk_passField {c : Core} (l : Nat) (h : c.memOk) : (c.passField l).memOk := by
  unfold Core.passField
  split
  · exact Core.memOk_askFix _ _ h
  · exact h

theorem Core.memOk_writeBack {c : Core} (x : Fix) (h : c.memOk) : (c.writeBack x).memOk := by
  unfold Core.writeBack
  dsimp only
  split
  · exact h
  · split <;> exact h

theorem Core.memOk_putLine {c : Core} (l : Nat) (x : Line) (h : c.memOk) : (c.putLine l x).memOk := by
  have h1 : (((List.range 8).foldl (fun c i => Core.setPoison (8 * l + i) (x.poison.getLsbD i) c) c).noteHeads
      (fun w => w / 8 == l)).memOk :=
    foldl_keeps Core.memOk _ _ c h fun _ _ hc => hc
  exact ⟨Memory.wf_writeN _ _ h1.1, h1.2⟩

theorem Core.memOk_putLineKeepTag {c : Core} (l : Nat) (x : Line) (h : c.memOk) : (c.putLineKeepTag l x).memOk :=
  Core.memOk_putLine l _ h

theorem Core.memOk_keepOld {c : Core} (l : Nat) (h : c.memOk) : (c.keepOld l).memOk := by
  unfold Core.keepOld
  split <;> exact h

theorem Core.memOk_writeWord {c : Core} (w : Nat) (bs : List (Nat × Byte)) (h : c.memOk) : (c.writeWord w bs).1.memOk := by
  have h1 : (if bs.any (fun p => decide (4 ≤ p.1)) then c.noteHeads (fun v => v == w) else c).memOk := by split <;> exact h
  unfold Core.writeWord
  generalize (if bs.any (fun p => decide (4 ≤ p.1)) then c.noteHeads (fun v => v == w) else c) = d at h1 ⊢
  dsimp only
  split
  · exact ⟨Memory.wf_foldl_write bs (fun p => (8 * w + p.1, p.2)) h1.1, h1.2⟩
  · split
    · exact Core.memOk_meet w h1
    · exact ⟨Memory.wf_foldl_write bs (fun p => (8 * w + p.1, p.2)) h1.1, h1.2⟩

theorem Core.memOk_bankWrite {c : Core} (ws : List (Nat × Byte)) (h : c.memOk) : (c.bankWrite ws).1.memOk := by
  unfold Core.bankWrite
  refine foldl_keeps (fun q : Core × Bool => q.1.memOk) _ _ _ h fun q w hq => ?_
  have hw := Core.memOk_writeWord w ((ws.filter (fun p => p.1 / 8 == w)).map (fun p => (p.1 % 8, p.2))) hq
  dsimp only
  split
  · exact hw
  · exact hw

theorem Core.memOk_sideWrite {c : Core} (a : Nat) (bs : List Byte) (h : c.memOk) : (c.sideWrite a bs).1.memOk :=
  Core.memOk_bankWrite _ (foldl_keeps Core.memOk _ _ c h fun _ l hc => Core.memOk_keepOld l hc)

theorem Core.memOk_drainEntry {c : Core} (e : WEntry) (h : c.memOk) : (c.drainEntry e).memOk := by
  have : ((List.range 8).foldl (fun c i =>
      let part := e.top.filterMap (fun b => if b.off / 8 = i then some (b.off % 8, b.val) else none)
      if part.isEmpty then c else (c.writeWord (8 * e.line + i) part).1) c).memOk := by
    refine foldl_keeps Core.memOk _ _ c h fun d i hd => ?_
    dsimp only
    split
    · exact hd
    · exact Core.memOk_writeWord _ _ hd
  exact this

theorem Core.memOk_bufferStore {c : Core} (cls x : Nat) (rel : Bool) (ws : List (Nat × Byte)) (h : c.memOk) :
    (c.bufferStore cls x rel ws).memOk := h

theorem Core.memOk_sidePut {c : Core} (a : SideAcc) (x : Line) (h : c.memOk) : (c.sidePut a x).memOk :=
  Core.memOk_putLine _ _ (Core.memOk_keepOld _ h)

theorem Core.memOk_bankBytes {c : Core} (a : Nat) (bs : List Byte) (h : c.memOk) : (c.bankBytes a bs).memOk :=
  Core.memOk_bankWrite _ h

/-- Every core of the module after reset, and its HBM, list nothing. -/
theorem State.reset_memOk (g k : Nat) : (State.reset.core g k).memOk := ⟨rfl, rfl⟩
theorem State.reset_hbm_wf : Memory.wf State.reset.hbm.cells = true := rfl

end Sys2Proof.Machine
end

