-- ==== Sys2Proof/Laws/PerInstr.lean ====
section
/-! SUPPORT. What the encoder and the decoder say of each instruction as syntax: the operand bits it is encoded in are read back as
the instruction itself, with every operand at every value. -/

namespace Sys2Proof.Laws

set_option Elab.async false

/-! ### Fields of a word put together from parts -/

theorem high_part {m n : Nat} {x : BitVec m} {y : BitVec n} (s l : Nat) (h : n ≤ s) :
    @BitVec.extractLsb' (m + n) s l (x ++ y) = x.extractLsb' (s - n) l := BitVec.extractLsb'_append_eq_of_le h
theorem low_part {m n : Nat} {x : BitVec m} {y : BitVec n} (s l : Nat) (h : s + l ≤ n) :
    @BitVec.extractLsb' (m + n) s l (x ++ y) = y.extractLsb' s l := BitVec.extractLsb'_append_eq_of_add_le h
theorem whole_part {n : Nat} {x : BitVec n} : x.extractLsb' 0 n = x := BitVec.extractLsb'_eq_self

/-- A field of the operand bits is that field of the word. -/
theorem field_of_low {w : BitVec 27} {s l : Nat} (h : s + l ≤ 19) : (w.extractLsb' 0 19).extractLsb' s l = w.extractLsb' s l := by
  apply BitVec.eq_of_getLsbD_eq
  intro i hi
  simp only [BitVec.getLsbD_extractLsb', Nat.zero_add, hi, decide_true, Bool.true_and]
  have : s + i < 19 := by omega
  simp [this]

/-- The bits of a field, in place. -/
abbrev fieldAt (s l : Nat) (v : BitVec l) : BitVec 19 := v.setWidth 19 <<< s

/-- A word masked to one field holds that field alone. -/
theorem mask_field {x : BitVec 19} (s l : Nat) (v : BitVec l) (h : x.extractLsb' s l = v) :
    x &&& fieldAt s l (BitVec.allOnes l) = fieldAt s l v := by
  subst h
  apply BitVec.eq_of_getLsbD_eq
  intro i hi
  by_cases h1 : i < s
  · simp [h1]
  · by_cases h2 : i - s < l
    · have : s + (i - s) = i := by omega
      simp [h1, h2, hi, this]
    · simp [h1, h2]

/-- A word masked to two sets of fields. -/
theorem mask_or {x a b u v : BitVec 19} (h : x &&& a = u) (k : x &&& b = v) : x &&& (a ||| b) = u ||| v := by
  rw [BitVec.and_or_distrib_left, h, k]

/-! ### The layouts of the encoding table -/

theorem layout_z19 {w : BitVec 27} (o : BitVec 8)  (hw : o ++ 0#19 = w) :
    w.extractLsb' 19 8 = o ∧
      w.extractLsb' 0 19 &&& 0x7FFFF#19 = 0x00000#19 := by
  subst hw
  have ho : BitVec.extractLsb' 19 8 (o ++ 0#19) = o := (high_part 19 8 (by decide)).trans (whole_part)
  have h0 : (BitVec.extractLsb' 0 19 (o ++ 0#19)).extractLsb' 0 19 = 0#19 := (field_of_low (by decide)).trans ((low_part 0 19 (by decide)).trans (whole_part))
  exact ⟨ho, (mask_field 0 19 _ h0)⟩

theorem layout_5_5_5_z4 {w : BitVec 27} (o : BitVec 8) (f0 : BitVec 5) (f1 : BitVec 5) (f2 : BitVec 5) (hw : o ++ f0 ++ f1 ++ f2 ++ 0#4 = w) :
    w.extractLsb' 19 8 = o ∧
      (w.extractLsb' 0 19).extractLsb' 14 5 = f0 ∧
      (w.extractLsb' 0 19).extractLsb' 9 5 = f1 ∧
      (w.extractLsb' 0 19).extractLsb' 4 5 = f2 ∧
      w.extractLsb' 0 19 &&& 0x0000F#19 = 0x00000#19 := by
  subst hw
  have ho : BitVec.extractLsb' 19 8 (o ++ f0 ++ f1 ++ f2 ++ 0#4) = o := (high_part 19 8 (by decide)).trans ((high_part 15 8 (by decide)).trans ((high_part 10 8 (by decide)).trans ((high_part 5 8 (by decide)).trans (whole_part))))
  have h0 : (BitVec.extractLsb' 0 19 (o ++ f0 ++ f1 ++ f2 ++ 0#4)).extractLsb' 14 5 = f0 := (field_of_low (by decide)).trans ((high_part 14 5 (by decide)).trans ((high_part 10 5 (by decide)).trans ((high_part 5 5 (by decide)).trans ((low_part 0 5 (by decide)).trans (whole_part)))))
  have h1 : (BitVec.extractLsb' 0 19 (o ++ f0 ++ f1 ++ f2 ++ 0#4)).extractLsb' 9 5 = f1 := (field_of_low (by decide)).trans ((high_part 9 5 (by decide)).trans ((high_part 5 5 (by decide)).trans ((low_part 0 5 (by decide)).trans (whole_part))))
  have h2 : (BitVec.extractLsb' 0 19 (o ++ f0 ++ f1 ++ f2 ++ 0#4)).extractLsb' 4 5 = f2 := (field_of_low (by decide)).trans ((high_part 4 5 (by decide)).trans ((low_part 0 5 (by decide)).trans (whole_part)))
  have h3 : (BitVec.extractLsb' 0 19 (o ++ f0 ++ f1 ++ f2 ++ 0#4)).extractLsb' 0 4 = 0#4 := (field_of_low (by decide)).trans ((low_part 0 4 (by decide)).trans (whole_part))
  exact ⟨ho, h0, h1, h2, (mask_field 0 4 _ h3)⟩

theorem layout_5_5_9 {w : BitVec 27} (o : BitVec 8) (f0 : BitVec 5) (f1 : BitVec 5) (f2 : BitVec 9) (hw : o ++ f0 ++ f1 ++ f2 = w) :
    w.extractLsb' 19 8 = o ∧
      (w.extractLsb' 0 19).extractLsb' 14 5 = f0 ∧
      (w.extractLsb' 0 19).extractLsb' 9 5 = f1 ∧
      (w.extractLsb' 0 19).extractLsb' 0 9 = f2 := by
  subst hw
  have ho : BitVec.extractLsb' 19 8 (o ++ f0 ++ f1 ++ f2) = o := (high_part 19 8 (by decide)).trans ((high_part 10 8 (by decide)).trans ((high_part 5 8 (by decide)).trans (whole_part)))
  have h0 : (BitVec.extractLsb' 0 19 (o ++ f0 ++ f1 ++ f2)).extractLsb' 14 5 = f0 := (field_of_low (by decide)).trans ((high_part 14 5 (by decide)).trans ((high_part 5 5 (by decide)).trans ((low_part 0 5 (by decide)).trans (whole_part))))
  have h1 : (BitVec.extractLsb' 0 19 (o ++ f0 ++ f1 ++ f2)).extractLsb' 9 5 = f1 := (field_of_low (by decide)).trans ((high_part 9 5 (by decide)).trans ((low_part 0 5 (by decide)).trans (whole_part)))
  have h2 : (BitVec.extractLsb' 0 19 (o ++ f0 ++ f1 ++ f2)).extractLsb' 0 9 = f2 := (field_of_low (by decide)).trans ((low_part 0 9 (by decide)).trans (whole_part))
  exact ⟨ho, h0, h1, h2⟩

theorem layout_5_5_z1_8 {w : BitVec 27} (o : BitVec 8) (f0 : BitVec 5) (f1 : BitVec 5) (f3 : BitVec 8) (hw : o ++ f0 ++ f1 ++ 0#1 ++ f3 = w) :
    w.extractLsb' 19 8 = o ∧
      (w.extractLsb' 0 19).extractLsb' 14 5 = f0 ∧
      (w.extractLsb' 0 19).extractLsb' 9 5 = f1 ∧
      (w.extractLsb' 0 19).extractLsb' 0 8 = f3 ∧
      w.extractLsb' 0 19 &&& 0x00100#19 = 0x00000#19 := by
  subst hw
  have ho : BitVec.extractLsb' 19 8 (o ++ f0 ++ f1 ++ 0#1 ++ f3) = o := (high_part 19 8 (by decide)).trans ((high_part 11 8 (by decide)).trans ((high_part 10 8 (by decide)).trans ((high_part 5 8 (by decide)).trans (whole_part))))
  have h0 : (BitVec.extractLsb' 0 19 (o ++ f0 ++ f1 ++ 0#1 ++ f3)).extractLsb' 14 5 = f0 := (field_of_low (by decide)).trans ((high_part 14 5 (by decide)).trans ((high_part 6 5 (by decide)).trans ((high_part 5 5 (by decide)).trans ((low_part 0 5 (by decide)).trans (whole_part)))))
  have h1 : (BitVec.extractLsb' 0 19 (o ++ f0 ++ f1 ++ 0#1 ++ f3)).extractLsb' 9 5 = f1 := (field_of_low (by decide)).trans ((high_part 9 5 (by decide)).trans ((high_part 1 5 (by decide)).trans ((low_part 0 5 (by decide)).trans (whole_part))))
  have h3 : (BitVec.extractLsb' 0 19 (o ++ f0 ++ f1 ++ 0#1 ++ f3)).extractLsb' 0 8 = f3 := (field_of_low (by decide)).trans ((low_part 0 8 (by decide)).trans (whole_part))
  have h2 : (BitVec.extractLsb' 0 19 (o ++ f0 ++ f1 ++ 0#1 ++ f3)).extractLsb' 8 1 = 0#1 := (field_of_low (by decide)).trans ((high_part 8 1 (by decide)).trans ((low_part 0 1 (by decide)).trans (whole_part)))
  exact ⟨ho, h0, h1, h3, (mask_field 8 1 _ h2)⟩

theorem layout_5_5_z9 {w : BitVec 27} (o : BitVec 8) (f0 : BitVec 5) (f1 : BitVec 5) (hw : o ++ f0 ++ f1 ++ 0#9 = w) :
    w.extractLsb' 19 8 = o ∧
      (w.extractLsb' 0 19).extractLsb' 14 5 = f0 ∧
      (w.extractLsb' 0 19).extractLsb' 9 5 = f1 ∧
      w.extractLsb' 0 19 &&& 0x001FF#19 = 0x00000#19 := by
  subst hw
  have ho : BitVec.extractLsb' 19 8 (o ++ f0 ++ f1 ++ 0#9) = o := (high_part 19 8 (by decide)).trans ((high_part 10 8 (by decide)).trans ((high_part 5 8 (by decide)).trans (whole_part)))
  have h0 : (BitVec.extractLsb' 0 19 (o ++ f0 ++ f1 ++ 0#9)).extractLsb' 14 5 = f0 := (field_of_low (by decide)).trans ((high_part 14 5 (by decide)).trans ((high_part 5 5 (by decide)).trans ((low_part 0 5 (by decide)).trans (whole_part))))
  have h1 : (BitVec.extractLsb' 0 19 (o ++ f0 ++ f1 ++ 0#9)).extractLsb' 9 5 = f1 := (field_of_low (by decide)).trans ((high_part 9 5 (by decide)).trans ((low_part 0 5 (by decide)).trans (whole_part)))
  have h2 : (BitVec.extractLsb' 0 19 (o ++ f0 ++ f1 ++ 0#9)).extractLsb' 0 9 = 0#9 := (field_of_low (by decide)).trans ((low_part 0 9 (by decide)).trans (whole_part))
  exact ⟨ho, h0, h1, (mask_field 0 9 _ h2)⟩

theorem layout_5_14 {w : BitVec 27} (o : BitVec 8) (f0 : BitVec 5) (f1 : BitVec 14) (hw : o ++ f0 ++ f1 = w) :
    w.extractLsb' 19 8 = o ∧
      (w.extractLsb' 0 19).extractLsb' 14 5 = f0 ∧
      (w.extractLsb' 0 19).extractLsb' 0 14 = f1 := by
  subst hw
  have ho : BitVec.extractLsb' 19 8 (o ++ f0 ++ f1) = o := (high_part 19 8 (by decide)).trans ((high_part 5 8 (by decide)).trans (whole_part))
  have h0 : (BitVec.extractLsb' 0 19 (o ++ f0 ++ f1)).extractLsb' 14 5 = f0 := (field_of_low (by decide)).trans ((high_part 14 5 (by decide)).trans ((low_part 0 5 (by decide)).trans (whole_part)))
  have h1 : (BitVec.extractLsb' 0 19 (o ++ f0 ++ f1)).extractLsb' 0 14 = f1 := (field_of_low (by decide)).trans ((low_part 0 14 (by decide)).trans (whole_part))
  exact ⟨ho, h0, h1⟩

theorem layout_5_5_z5_4 {w : BitVec 27} (o : BitVec 8) (f0 : BitVec 5) (f1 : BitVec 5) (f3 : BitVec 4) (hw : o ++ f0 ++ f1 ++ 0#5 ++ f3 = w) :
    w.extractLsb' 19 8 = o ∧
      (w.extractLsb' 0 19).extractLsb' 14 5 = f0 ∧
      (w.extractLsb' 0 19).extractLsb' 9 5 = f1 ∧
      (w.extractLsb' 0 19).extractLsb' 0 4 = f3 ∧
      w.extractLsb' 0 19 &&& 0x001F0#19 = 0x00000#19 := by
  subst hw
  have ho : BitVec.extractLsb' 19 8 (o ++ f0 ++ f1 ++ 0#5 ++ f3) = o := (high_part 19 8 (by decide)).trans ((high_part 15 8 (by decide)).trans ((high_part 10 8 (by decide)).trans ((high_part 5 8 (by decide)).trans (whole_part))))
  have h0 : (BitVec.extractLsb' 0 19 (o ++ f0 ++ f1 ++ 0#5 ++ f3)).extractLsb' 14 5 = f0 := (field_of_low (by decide)).trans ((high_part 14 5 (by decide)).trans ((high_part 10 5 (by decide)).trans ((high_part 5 5 (by decide)).trans ((low_part 0 5 (by decide)).trans (whole_part)))))
  have h1 : (BitVec.extractLsb' 0 19 (o ++ f0 ++ f1 ++ 0#5 ++ f3)).extractLsb' 9 5 = f1 := (field_of_low (by decide)).trans ((high_part 9 5 (by decide)).trans ((high_part 5 5 (by decide)).trans ((low_part 0 5 (by decide)).trans (whole_part))))
  have h3 : (BitVec.extractLsb' 0 19 (o ++ f0 ++ f1 ++ 0#5 ++ f3)).extractLsb' 0 4 = f3 := (field_of_low (by decide)).trans ((low_part 0 4 (by decide)).trans (whole_part))
  have h2 : (BitVec.extractLsb' 0 19 (o ++ f0 ++ f1 ++ 0#5 ++ f3)).extractLsb' 4 5 = 0#5 := (field_of_low (by decide)).trans ((high_part 4 5 (by decide)).trans ((low_part 0 5 (by decide)).trans (whole_part)))
  exact ⟨ho, h0, h1, h3, (mask_field 4 5 _ h2)⟩

theorem layout_5_5_5_1_3 {w : BitVec 27} (o : BitVec 8) (f0 : BitVec 5) (f1 : BitVec 5) (f2 : BitVec 5) (f3 : BitVec 1) (f4 : BitVec 3) (hw : o ++ f0 ++ f1 ++ f2 ++ f3 ++ f4 = w) :
    w.extractLsb' 19 8 = o ∧
      (w.extractLsb' 0 19).extractLsb' 14 5 = f0 ∧
      (w.extractLsb' 0 19).extractLsb' 9 5 = f1 ∧
      (w.extractLsb' 0 19).extractLsb' 4 5 = f2 ∧
      (w.extractLsb' 0 19).extractLsb' 3 1 = f3 ∧
      (w.extractLsb' 0 19).extractLsb' 0 3 = f4 := by
  subst hw
  have ho : BitVec.extractLsb' 19 8 (o ++ f0 ++ f1 ++ f2 ++ f3 ++ f4) = o := (high_part 19 8 (by decide)).trans ((high_part 16 8 (by decide)).trans ((high_part 15 8 (by decide)).trans ((high_part 10 8 (by decide)).trans ((high_part 5 8 (by decide)).trans (whole_part)))))
  have h0 : (BitVec.extractLsb' 0 19 (o ++ f0 ++ f1 ++ f2 ++ f3 ++ f4)).extractLsb' 14 5 = f0 := (field_of_low (by decide)).trans ((high_part 14 5 (by decide)).trans ((high_part 11 5 (by decide)).trans ((high_part 10 5 (by decide)).trans ((high_part 5 5 (by decide)).trans ((low_part 0 5 (by decide)).trans (whole_part))))))
  have h1 : (BitVec.extractLsb' 0 19 (o ++ f0 ++ f1 ++ f2 ++ f3 ++ f4)).extractLsb' 9 5 = f1 := (field_of_low (by decide)).trans ((high_part 9 5 (by decide)).trans ((high_part 6 5 (by decide)).trans ((high_part 5 5 (by decide)).trans ((low_part 0 5 (by decide)).trans (whole_part)))))
  have h2 : (BitVec.extractLsb' 0 19 (o ++ f0 ++ f1 ++ f2 ++ f3 ++ f4)).extractLsb' 4 5 = f2 := (field_of_low (by decide)).trans ((high_part 4 5 (by decide)).trans ((high_part 1 5 (by decide)).trans ((low_part 0 5 (by decide)).trans (whole_part))))
  have h3 : (BitVec.extractLsb' 0 19 (o ++ f0 ++ f1 ++ f2 ++ f3 ++ f4)).extractLsb' 3 1 = f3 := (field_of_low (by decide)).trans ((high_part 3 1 (by decide)).trans ((low_part 0 1 (by decide)).trans (whole_part)))
  have h4 : (BitVec.extractLsb' 0 19 (o ++ f0 ++ f1 ++ f2 ++ f3 ++ f4)).extractLsb' 0 3 = f4 := (field_of_low (by decide)).trans ((low_part 0 3 (by decide)).trans (whole_part))
  exact ⟨ho, h0, h1, h2, h3, h4⟩

theorem layout_5_5_3_6 {w : BitVec 27} (o : BitVec 8) (f0 : BitVec 5) (f1 : BitVec 5) (f2 : BitVec 3) (f3 : BitVec 6) (hw : o ++ f0 ++ f1 ++ f2 ++ f3 = w) :
    w.extractLsb' 19 8 = o ∧
      (w.extractLsb' 0 19).extractLsb' 14 5 = f0 ∧
      (w.extractLsb' 0 19).extractLsb' 9 5 = f1 ∧
      (w.extractLsb' 0 19).extractLsb' 6 3 = f2 ∧
      (w.extractLsb' 0 19).extractLsb' 0 6 = f3 := by
  subst hw
  have ho : BitVec.extractLsb' 19 8 (o ++ f0 ++ f1 ++ f2 ++ f3) = o := (high_part 19 8 (by decide)).trans ((high_part 13 8 (by decide)).trans ((high_part 10 8 (by decide)).trans ((high_part 5 8 (by decide)).trans (whole_part))))
  have h0 : (BitVec.extractLsb' 0 19 (o ++ f0 ++ f1 ++ f2 ++ f3)).extractLsb' 14 5 = f0 := (field_of_low (by decide)).trans ((high_part 14 5 (by decide)).trans ((high_part 8 5 (by decide)).trans ((high_part 5 5 (by decide)).trans ((low_part 0 5 (by decide)).trans (whole_part)))))
  have h1 : (BitVec.extractLsb' 0 19 (o ++ f0 ++ f1 ++ f2 ++ f3)).extractLsb' 9 5 = f1 := (field_of_low (by decide)).trans ((high_part 9 5 (by decide)).trans ((high_part 3 5 (by decide)).trans ((low_part 0 5 (by decide)).trans (whole_part))))
  have h2 : (BitVec.extractLsb' 0 19 (o ++ f0 ++ f1 ++ f2 ++ f3)).extractLsb' 6 3 = f2 := (field_of_low (by decide)).trans ((high_part 6 3 (by decide)).trans ((low_part 0 3 (by decide)).trans (whole_part)))
  have h3 : (BitVec.extractLsb' 0 19 (o ++ f0 ++ f1 ++ f2 ++ f3)).extractLsb' 0 6 = f3 := (field_of_low (by decide)).trans ((low_part 0 6 (by decide)).trans (whole_part))
  exact ⟨ho, h0, h1, h2, h3⟩

theorem layout_5_5_5_z1_1_1_1 {w : BitVec 27} (o : BitVec 8) (f0 : BitVec 5) (f1 : BitVec 5) (f2 : BitVec 5) (f4 : BitVec 1) (f5 : BitVec 1) (f6 : BitVec 1) (hw : o ++ f0 ++ f1 ++ f2 ++ 0#1 ++ f4 ++ f5 ++ f6 = w) :
    w.extractLsb' 19 8 = o ∧
      (w.extractLsb' 0 19).extractLsb' 14 5 = f0 ∧
      (w.extractLsb' 0 19).extractLsb' 9 5 = f1 ∧
      (w.extractLsb' 0 19).extractLsb' 4 5 = f2 ∧
      (w.extractLsb' 0 19).extractLsb' 2 1 = f4 ∧
      (w.extractLsb' 0 19).extractLsb' 1 1 = f5 ∧
      (w.extractLsb' 0 19).extractLsb' 0 1 = f6 ∧
      w.extractLsb' 0 19 &&& 0x00008#19 = 0x00000#19 := by
  subst hw
  have ho : BitVec.extractLsb' 19 8 (o ++ f0 ++ f1 ++ f2 ++ 0#1 ++ f4 ++ f5 ++ f6) = o := (high_part 19 8 (by decide)).trans ((high_part 18 8 (by decide)).trans ((high_part 17 8 (by decide)).trans ((high_part 16 8 (by decide)).trans ((high_part 15 8 (by decide)).trans ((high_part 10 8 (by decide)).trans ((high_part 5 8 (by decide)).trans (whole_part)))))))
  have h0 : (BitVec.extractLsb' 0 19 (o ++ f0 ++ f1 ++ f2 ++ 0#1 ++ f4 ++ f5 ++ f6)).extractLsb' 14 5 = f0 := (field_of_low (by decide)).trans ((high_part 14 5 (by decide)).trans ((high_part 13 5 (by decide)).trans ((high_part 12 5 (by decide)).trans ((high_part 11 5 (by decide)).trans ((high_part 10 5 (by decide)).trans ((high_part 5 5 (by decide)).trans ((low_part 0 5 (by decide)).trans (whole_part))))))))
  have h1 : (BitVec.extractLsb' 0 19 (o ++ f0 ++ f1 ++ f2 ++ 0#1 ++ f4 ++ f5 ++ f6)).extractLsb' 9 5 = f1 := (field_of_low (by decide)).trans ((high_part 9 5 (by decide)).trans ((high_part 8 5 (by decide)).trans ((high_part 7 5 (by decide)).trans ((high_part 6 5 (by decide)).trans ((high_part 5 5 (by decide)).trans ((low_part 0 5 (by decide)).trans (whole_part)))))))
  have h2 : (BitVec.extractLsb' 0 19 (o ++ f0 ++ f1 ++ f2 ++ 0#1 ++ f4 ++ f5 ++ f6)).extractLsb' 4 5 = f2 := (field_of_low (by decide)).trans ((high_part 4 5 (by decide)).trans ((high_part 3 5 (by decide)).trans ((high_part 2 5 (by decide)).trans ((high_part 1 5 (by decide)).trans ((low_part 0 5 (by decide)).trans (whole_part))))))
  have h4 : (BitVec.extractLsb' 0 19 (o ++ f0 ++ f1 ++ f2 ++ 0#1 ++ f4 ++ f5 ++ f6)).extractLsb' 2 1 = f4 := (field_of_low (by decide)).trans ((high_part 2 1 (by decide)).trans ((high_part 1 1 (by decide)).trans ((low_part 0 1 (by decide)).trans (whole_part))))
  have h5 : (BitVec.extractLsb' 0 19 (o ++ f0 ++ f1 ++ f2 ++ 0#1 ++ f4 ++ f5 ++ f6)).extractLsb' 1 1 = f5 := (field_of_low (by decide)).trans ((high_part 1 1 (by decide)).trans ((low_part 0 1 (by decide)).trans (whole_part)))
  have h6 : (BitVec.extractLsb' 0 19 (o ++ f0 ++ f1 ++ f2 ++ 0#1 ++ f4 ++ f5 ++ f6)).extractLsb' 0 1 = f6 := (field_of_low (by decide)).trans ((low_part 0 1 (by decide)).trans (whole_part))
  have h3 : (BitVec.extractLsb' 0 19 (o ++ f0 ++ f1 ++ f2 ++ 0#1 ++ f4 ++ f5 ++ f6)).extractLsb' 3 1 = 0#1 := (field_of_low (by decide)).trans ((high_part 3 1 (by decide)).trans ((high_part 2 1 (by decide)).trans ((high_part 1 1 (by decide)).trans ((low_part 0 1 (by decide)).trans (whole_part)))))
  exact ⟨ho, h0, h1, h2, h4, h5, h6, (mask_field 3 1 _ h3)⟩

theorem layout_5_5_5_4 {w : BitVec 27} (o : BitVec 8) (f0 : BitVec 5) (f1 : BitVec 5) (f2 : BitVec 5) (f3 : BitVec 4) (hw : o ++ f0 ++ f1 ++ f2 ++ f3 = w) :
    w.extractLsb' 19 8 = o ∧
      (w.extractLsb' 0 19).extractLsb' 14 5 = f0 ∧
      (w.extractLsb' 0 19).extractLsb' 9 5 = f1 ∧
      (w.extractLsb' 0 19).extractLsb' 4 5 = f2 ∧
      (w.extractLsb' 0 19).extractLsb' 0 4 = f3 := by
  subst hw
  have ho : BitVec.extractLsb' 19 8 (o ++ f0 ++ f1 ++ f2 ++ f3) = o := (high_part 19 8 (by decide)).trans ((high_part 15 8 (by decide)).trans ((high_part 10 8 (by decide)).trans ((high_part 5 8 (by decide)).trans (whole_part))))
  have h0 : (BitVec.extractLsb' 0 19 (o ++ f0 ++ f1 ++ f2 ++ f3)).extractLsb' 14 5 = f0 := (field_of_low (by decide)).trans ((high_part 14 5 (by decide)).trans ((high_part 10 5 (by decide)).trans ((high_part 5 5 (by decide)).trans ((low_part 0 5 (by decide)).trans (whole_part)))))
  have h1 : (BitVec.extractLsb' 0 19 (o ++ f0 ++ f1 ++ f2 ++ f3)).extractLsb' 9 5 = f1 := (field_of_low (by decide)).trans ((high_part 9 5 (by decide)).trans ((high_part 5 5 (by decide)).trans ((low_part 0 5 (by decide)).trans (whole_part))))
  have h2 : (BitVec.extractLsb' 0 19 (o ++ f0 ++ f1 ++ f2 ++ f3)).extractLsb' 4 5 = f2 := (field_of_low (by decide)).trans ((high_part 4 5 (by decide)).trans ((low_part 0 5 (by decide)).trans (whole_part)))
  have h3 : (BitVec.extractLsb' 0 19 (o ++ f0 ++ f1 ++ f2 ++ f3)).extractLsb' 0 4 = f3 := (field_of_low (by decide)).trans ((low_part 0 4 (by decide)).trans (whole_part))
  exact ⟨ho, h0, h1, h2, h3⟩

theorem layout_z5_5_9 {w : BitVec 27} (o : BitVec 8) (f1 : BitVec 5) (f2 : BitVec 9) (hw : o ++ 0#5 ++ f1 ++ f2 = w) :
    w.extractLsb' 19 8 = o ∧
      (w.extractLsb' 0 19).extractLsb' 9 5 = f1 ∧
      (w.extractLsb' 0 19).extractLsb' 0 9 = f2 ∧
      w.extractLsb' 0 19 &&& 0x7C000#19 = 0x00000#19 := by
  subst hw
  have ho : BitVec.extractLsb' 19 8 (o ++ 0#5 ++ f1 ++ f2) = o := (high_part 19 8 (by decide)).trans ((high_part 10 8 (by decide)).trans ((high_part 5 8 (by decide)).trans (whole_part)))
  have h1 : (BitVec.extractLsb' 0 19 (o ++ 0#5 ++ f1 ++ f2)).extractLsb' 9 5 = f1 := (field_of_low (by decide)).trans ((high_part 9 5 (by decide)).trans ((low_part 0 5 (by decide)).trans (whole_part)))
  have h2 : (BitVec.extractLsb' 0 19 (o ++ 0#5 ++ f1 ++ f2)).extractLsb' 0 9 = f2 := (field_of_low (by decide)).trans ((low_part 0 9 (by decide)).trans (whole_part))
  have h0 : (BitVec.extractLsb' 0 19 (o ++ 0#5 ++ f1 ++ f2)).extractLsb' 14 5 = 0#5 := (field_of_low (by decide)).trans ((high_part 14 5 (by decide)).trans ((high_part 5 5 (by decide)).trans ((low_part 0 5 (by decide)).trans (whole_part))))
  exact ⟨ho, h1, h2, (mask_field 14 5 _ h0)⟩

theorem layout_z5_14 {w : BitVec 27} (o : BitVec 8) (f1 : BitVec 14) (hw : o ++ 0#5 ++ f1 = w) :
    w.extractLsb' 19 8 = o ∧
      (w.extractLsb' 0 19).extractLsb' 0 14 = f1 ∧
      w.extractLsb' 0 19 &&& 0x7C000#19 = 0x00000#19 := by
  subst hw
  have ho : BitVec.extractLsb' 19 8 (o ++ 0#5 ++ f1) = o := (high_part 19 8 (by decide)).trans ((high_part 5 8 (by decide)).trans (whole_part))
  have h1 : (BitVec.extractLsb' 0 19 (o ++ 0#5 ++ f1)).extractLsb' 0 14 = f1 := (field_of_low (by decide)).trans ((low_part 0 14 (by decide)).trans (whole_part))
  have h0 : (BitVec.extractLsb' 0 19 (o ++ 0#5 ++ f1)).extractLsb' 14 5 = 0#5 := (field_of_low (by decide)).trans ((high_part 14 5 (by decide)).trans ((low_part 0 5 (by decide)).trans (whole_part)))
  exact ⟨ho, h1, (mask_field 14 5 _ h0)⟩

theorem layout_z5_5_z9 {w : BitVec 27} (o : BitVec 8) (f1 : BitVec 5) (hw : o ++ 0#5 ++ f1 ++ 0#9 = w) :
    w.extractLsb' 19 8 = o ∧
      (w.extractLsb' 0 19).extractLsb' 9 5 = f1 ∧
      w.extractLsb' 0 19 &&& 0x7C1FF#19 = 0x00000#19 := by
  subst hw
  have ho : BitVec.extractLsb' 19 8 (o ++ 0#5 ++ f1 ++ 0#9) = o := (high_part 19 8 (by decide)).trans ((high_part 10 8 (by decide)).trans ((high_part 5 8 (by decide)).trans (whole_part)))
  have h1 : (BitVec.extractLsb' 0 19 (o ++ 0#5 ++ f1 ++ 0#9)).extractLsb' 9 5 = f1 := (field_of_low (by decide)).trans ((high_part 9 5 (by decide)).trans ((low_part 0 5 (by decide)).trans (whole_part)))
  have h0 : (BitVec.extractLsb' 0 19 (o ++ 0#5 ++ f1 ++ 0#9)).extractLsb' 14 5 = 0#5 := (field_of_low (by decide)).trans ((high_part 14 5 (by decide)).trans ((high_part 5 5 (by decide)).trans ((low_part 0 5 (by decide)).trans (whole_part))))
  have h2 : (BitVec.extractLsb' 0 19 (o ++ 0#5 ++ f1 ++ 0#9)).extractLsb' 0 9 = 0#9 := (field_of_low (by decide)).trans ((low_part 0 9 (by decide)).trans (whole_part))
  exact ⟨ho, h1, (mask_or (mask_field 14 5 _ h0) (mask_field 0 9 _ h2))⟩

theorem layout_z5_5_5_4 {w : BitVec 27} (o : BitVec 8) (f1 : BitVec 5) (f2 : BitVec 5) (f3 : BitVec 4) (hw : o ++ 0#5 ++ f1 ++ f2 ++ f3 = w) :
    w.extractLsb' 19 8 = o ∧
      (w.extractLsb' 0 19).extractLsb' 9 5 = f1 ∧
      (w.extractLsb' 0 19).extractLsb' 4 5 = f2 ∧
      (w.extractLsb' 0 19).extractLsb' 0 4 = f3 ∧
      w.extractLsb' 0 19 &&& 0x7C000#19 = 0x00000#19 := by
  subst hw
  have ho : BitVec.extractLsb' 19 8 (o ++ 0#5 ++ f1 ++ f2 ++ f3) = o := (high_part 19 8 (by decide)).trans ((high_part 15 8 (by decide)).trans ((high_part 10 8 (by decide)).trans ((high_part 5 8 (by decide)).trans (whole_part))))
  have h1 : (BitVec.extractLsb' 0 19 (o ++ 0#5 ++ f1 ++ f2 ++ f3)).extractLsb' 9 5 = f1 := (field_of_low (by decide)).trans ((high_part 9 5 (by decide)).trans ((high_part 5 5 (by decide)).trans ((low_part 0 5 (by decide)).trans (whole_part))))
  have h2 : (BitVec.extractLsb' 0 19 (o ++ 0#5 ++ f1 ++ f2 ++ f3)).extractLsb' 4 5 = f2 := (field_of_low (by decide)).trans ((high_part 4 5 (by decide)).trans ((low_part 0 5 (by decide)).trans (whole_part)))
  have h3 : (BitVec.extractLsb' 0 19 (o ++ 0#5 ++ f1 ++ f2 ++ f3)).extractLsb' 0 4 = f3 := (field_of_low (by decide)).trans ((low_part 0 4 (by decide)).trans (whole_part))
  have h0 : (BitVec.extractLsb' 0 19 (o ++ 0#5 ++ f1 ++ f2 ++ f3)).extractLsb' 14 5 = 0#5 := (field_of_low (by decide)).trans ((high_part 14 5 (by decide)).trans ((high_part 10 5 (by decide)).trans ((high_part 5 5 (by decide)).trans ((low_part 0 5 (by decide)).trans (whole_part)))))
  exact ⟨ho, h1, h2, h3, (mask_field 14 5 _ h0)⟩

theorem layout_5_5_2_2_5 {w : BitVec 27} (o : BitVec 8) (f0 : BitVec 5) (f1 : BitVec 5) (f2 : BitVec 2) (f3 : BitVec 2) (f4 : BitVec 5) (hw : o ++ f0 ++ f1 ++ f2 ++ f3 ++ f4 = w) :
    w.extractLsb' 19 8 = o ∧
      (w.extractLsb' 0 19).extractLsb' 14 5 = f0 ∧
      (w.extractLsb' 0 19).extractLsb' 9 5 = f1 ∧
      (w.extractLsb' 0 19).extractLsb' 7 2 = f2 ∧
      (w.extractLsb' 0 19).extractLsb' 5 2 = f3 ∧
      (w.extractLsb' 0 19).extractLsb' 0 5 = f4 := by
  subst hw
  have ho : BitVec.extractLsb' 19 8 (o ++ f0 ++ f1 ++ f2 ++ f3 ++ f4) = o := (high_part 19 8 (by decide)).trans ((high_part 14 8 (by decide)).trans ((high_part 12 8 (by decide)).trans ((high_part 10 8 (by decide)).trans ((high_part 5 8 (by decide)).trans (whole_part)))))
  have h0 : (BitVec.extractLsb' 0 19 (o ++ f0 ++ f1 ++ f2 ++ f3 ++ f4)).extractLsb' 14 5 = f0 := (field_of_low (by decide)).trans ((high_part 14 5 (by decide)).trans ((high_part 9 5 (by decide)).trans ((high_part 7 5 (by decide)).trans ((high_part 5 5 (by decide)).trans ((low_part 0 5 (by decide)).trans (whole_part))))))
  have h1 : (BitVec.extractLsb' 0 19 (o ++ f0 ++ f1 ++ f2 ++ f3 ++ f4)).extractLsb' 9 5 = f1 := (field_of_low (by decide)).trans ((high_part 9 5 (by decide)).trans ((high_part 4 5 (by decide)).trans ((high_part 2 5 (by decide)).trans ((low_part 0 5 (by decide)).trans (whole_part)))))
  have h2 : (BitVec.extractLsb' 0 19 (o ++ f0 ++ f1 ++ f2 ++ f3 ++ f4)).extractLsb' 7 2 = f2 := (field_of_low (by decide)).trans ((high_part 7 2 (by decide)).trans ((high_part 2 2 (by decide)).trans ((low_part 0 2 (by decide)).trans (whole_part))))
  have h3 : (BitVec.extractLsb' 0 19 (o ++ f0 ++ f1 ++ f2 ++ f3 ++ f4)).extractLsb' 5 2 = f3 := (field_of_low (by decide)).trans ((high_part 5 2 (by decide)).trans ((low_part 0 2 (by decide)).trans (whole_part)))
  have h4 : (BitVec.extractLsb' 0 19 (o ++ f0 ++ f1 ++ f2 ++ f3 ++ f4)).extractLsb' 0 5 = f4 := (field_of_low (by decide)).trans ((low_part 0 5 (by decide)).trans (whole_part))
  exact ⟨ho, h0, h1, h2, h3, h4⟩

theorem layout_5_5_5_2_2 {w : BitVec 27} (o : BitVec 8) (f0 : BitVec 5) (f1 : BitVec 5) (f2 : BitVec 5) (f3 : BitVec 2) (f4 : BitVec 2) (hw : o ++ f0 ++ f1 ++ f2 ++ f3 ++ f4 = w) :
    w.extractLsb' 19 8 = o ∧
      (w.extractLsb' 0 19).extractLsb' 14 5 = f0 ∧
      (w.extractLsb' 0 19).extractLsb' 9 5 = f1 ∧
      (w.extractLsb' 0 19).extractLsb' 4 5 = f2 ∧
      (w.extractLsb' 0 19).extractLsb' 2 2 = f3 ∧
      (w.extractLsb' 0 19).extractLsb' 0 2 = f4 := by
  subst hw
  have ho : BitVec.extractLsb' 19 8 (o ++ f0 ++ f1 ++ f2 ++ f3 ++ f4) = o := (high_part 19 8 (by decide)).trans ((high_part 17 8 (by decide)).trans ((high_part 15 8 (by decide)).trans ((high_part 10 8 (by decide)).trans ((high_part 5 8 (by decide)).trans (whole_part)))))
  have h0 : (BitVec.extractLsb' 0 19 (o ++ f0 ++ f1 ++ f2 ++ f3 ++ f4)).extractLsb' 14 5 = f0 := (field_of_low (by decide)).trans ((high_part 14 5 (by decide)).trans ((high_part 12 5 (by decide)).trans ((high_part 10 5 (by decide)).trans ((high_part 5 5 (by decide)).trans ((low_part 0 5 (by decide)).trans (whole_part))))))
  have h1 : (BitVec.extractLsb' 0 19 (o ++ f0 ++ f1 ++ f2 ++ f3 ++ f4)).extractLsb' 9 5 = f1 := (field_of_low (by decide)).trans ((high_part 9 5 (by decide)).trans ((high_part 7 5 (by decide)).trans ((high_part 5 5 (by decide)).trans ((low_part 0 5 (by decide)).trans (whole_part)))))
  have h2 : (BitVec.extractLsb' 0 19 (o ++ f0 ++ f1 ++ f2 ++ f3 ++ f4)).extractLsb' 4 5 = f2 := (field_of_low (by decide)).trans ((high_part 4 5 (by decide)).trans ((high_part 2 5 (by decide)).trans ((low_part 0 5 (by decide)).trans (whole_part))))
  have h3 : (BitVec.extractLsb' 0 19 (o ++ f0 ++ f1 ++ f2 ++ f3 ++ f4)).extractLsb' 2 2 = f3 := (field_of_low (by decide)).trans ((high_part 2 2 (by decide)).trans ((low_part 0 2 (by decide)).trans (whole_part)))
  have h4 : (BitVec.extractLsb' 0 19 (o ++ f0 ++ f1 ++ f2 ++ f3 ++ f4)).extractLsb' 0 2 = f4 := (field_of_low (by decide)).trans ((low_part 0 2 (by decide)).trans (whole_part))
  exact ⟨ho, h0, h1, h2, h3, h4⟩

theorem layout_5_z1_4_5_2_2 {w : BitVec 27} (o : BitVec 8) (f0 : BitVec 5) (f2 : BitVec 4) (f3 : BitVec 5) (f4 : BitVec 2) (f5 : BitVec 2) (hw : o ++ f0 ++ 0#1 ++ f2 ++ f3 ++ f4 ++ f5 = w) :
    w.extractLsb' 19 8 = o ∧
      (w.extractLsb' 0 19).extractLsb' 14 5 = f0 ∧
      (w.extractLsb' 0 19).extractLsb' 9 4 = f2 ∧
      (w.extractLsb' 0 19).extractLsb' 4 5 = f3 ∧
      (w.extractLsb' 0 19).extractLsb' 2 2 = f4 ∧
      (w.extractLsb' 0 19).extractLsb' 0 2 = f5 ∧
      w.extractLsb' 0 19 &&& 0x02000#19 = 0x00000#19 := by
  subst hw
  have ho : BitVec.extractLsb' 19 8 (o ++ f0 ++ 0#1 ++ f2 ++ f3 ++ f4 ++ f5) = o := (high_part 19 8 (by decide)).trans ((high_part 17 8 (by decide)).trans ((high_part 15 8 (by decide)).trans ((high_part 10 8 (by decide)).trans ((high_part 6 8 (by decide)).trans ((high_part 5 8 (by decide)).trans (whole_part))))))
  have h0 : (BitVec.extractLsb' 0 19 (o ++ f0 ++ 0#1 ++ f2 ++ f3 ++ f4 ++ f5)).extractLsb' 14 5 = f0 := (field_of_low (by decide)).trans ((high_part 14 5 (by decide)).trans ((high_part 12 5 (by decide)).trans ((high_part 10 5 (by decide)).trans ((high_part 5 5 (by decide)).trans ((high_part 1 5 (by decide)).trans ((low_part 0 5 (by decide)).trans (whole_part)))))))
  have h2 : (BitVec.extractLsb' 0 19 (o ++ f0 ++ 0#1 ++ f2 ++ f3 ++ f4 ++ f5)).extractLsb' 9 4 = f2 := (field_of_low (by decide)).trans ((high_part 9 4 (by decide)).trans ((high_part 7 4 (by decide)).trans ((high_part 5 4 (by decide)).trans ((low_part 0 4 (by decide)).trans (whole_part)))))
  have h3 : (BitVec.extractLsb' 0 19 (o ++ f0 ++ 0#1 ++ f2 ++ f3 ++ f4 ++ f5)).extractLsb' 4 5 = f3 := (field_of_low (by decide)).trans ((high_part 4 5 (by decide)).trans ((high_part 2 5 (by decide)).trans ((low_part 0 5 (by decide)).trans (whole_part))))
  have h4 : (BitVec.extractLsb' 0 19 (o ++ f0 ++ 0#1 ++ f2 ++ f3 ++ f4 ++ f5)).extractLsb' 2 2 = f4 := (field_of_low (by decide)).trans ((high_part 2 2 (by decide)).trans ((low_part 0 2 (by decide)).trans (whole_part)))
  have h5 : (BitVec.extractLsb' 0 19 (o ++ f0 ++ 0#1 ++ f2 ++ f3 ++ f4 ++ f5)).extractLsb' 0 2 = f5 := (field_of_low (by decide)).trans ((low_part 0 2 (by decide)).trans (whole_part))
  have h1 : (BitVec.extractLsb' 0 19 (o ++ f0 ++ 0#1 ++ f2 ++ f3 ++ f4 ++ f5)).extractLsb' 13 1 = 0#1 := (field_of_low (by decide)).trans ((high_part 13 1 (by decide)).trans ((high_part 11 1 (by decide)).trans ((high_part 9 1 (by decide)).trans ((high_part 4 1 (by decide)).trans ((low_part 0 1 (by decide)).trans (whole_part))))))
  exact ⟨ho, h0, h2, h3, h4, h5, (mask_field 13 1 _ h1)⟩

theorem layout_1_4_z2_3_z2_3_2_2 {w : BitVec 27} (o : BitVec 8) (f0 : BitVec 1) (f1 : BitVec 4) (f3 : BitVec 3) (f5 : BitVec 3) (f6 : BitVec 2) (f7 : BitVec 2) (hw : o ++ f0 ++ f1 ++ 0#2 ++ f3 ++ 0#2 ++ f5 ++ f6 ++ f7 = w) :
    w.extractLsb' 19 8 = o ∧
      (w.extractLsb' 0 19).extractLsb' 18 1 = f0 ∧
      (w.extractLsb' 0 19).extractLsb' 14 4 = f1 ∧
      (w.extractLsb' 0 19).extractLsb' 9 3 = f3 ∧
      (w.extractLsb' 0 19).extractLsb' 4 3 = f5 ∧
      (w.extractLsb' 0 19).extractLsb' 2 2 = f6 ∧
      (w.extractLsb' 0 19).extractLsb' 0 2 = f7 ∧
      w.extractLsb' 0 19 &&& 0x03180#19 = 0x00000#19 := by
  subst hw
  have ho : BitVec.extractLsb' 19 8 (o ++ f0 ++ f1 ++ 0#2 ++ f3 ++ 0#2 ++ f5 ++ f6 ++ f7) = o := (high_part 19 8 (by decide)).trans ((high_part 17 8 (by decide)).trans ((high_part 15 8 (by decide)).trans ((high_part 12 8 (by decide)).trans ((high_part 10 8 (by decide)).trans ((high_part 7 8 (by decide)).trans ((high_part 5 8 (by decide)).trans ((high_part 1 8 (by decide)).trans (whole_part))))))))
  have h0 : (BitVec.extractLsb' 0 19 (o ++ f0 ++ f1 ++ 0#2 ++ f3 ++ 0#2 ++ f5 ++ f6 ++ f7)).extractLsb' 18 1 = f0 := (field_of_low (by decide)).trans ((high_part 18 1 (by decide)).trans ((high_part 16 1 (by decide)).trans ((high_part 14 1 (by decide)).trans ((high_part 11 1 (by decide)).trans ((high_part 9 1 (by decide)).trans ((high_part 6 1 (by decide)).trans ((high_part 4 1 (by decide)).trans ((low_part 0 1 (by decide)).trans (whole_part)))))))))
  have h1 : (BitVec.extractLsb' 0 19 (o ++ f0 ++ f1 ++ 0#2 ++ f3 ++ 0#2 ++ f5 ++ f6 ++ f7)).extractLsb' 14 4 = f1 := (field_of_low (by decide)).trans ((high_part 14 4 (by decide)).trans ((high_part 12 4 (by decide)).trans ((high_part 10 4 (by decide)).trans ((high_part 7 4 (by decide)).trans ((high_part 5 4 (by decide)).trans ((high_part 2 4 (by decide)).trans ((low_part 0 4 (by decide)).trans (whole_part))))))))
  have h3 : (BitVec.extractLsb' 0 19 (o ++ f0 ++ f1 ++ 0#2 ++ f3 ++ 0#2 ++ f5 ++ f6 ++ f7)).extractLsb' 9 3 = f3 := (field_of_low (by decide)).trans ((high_part 9 3 (by decide)).trans ((high_part 7 3 (by decide)).trans ((high_part 5 3 (by decide)).trans ((high_part 2 3 (by decide)).trans ((low_part 0 3 (by decide)).trans (whole_part))))))
  have h5 : (BitVec.extractLsb' 0 19 (o ++ f0 ++ f1 ++ 0#2 ++ f3 ++ 0#2 ++ f5 ++ f6 ++ f7)).extractLsb' 4 3 = f5 := (field_of_low (by decide)).trans ((high_part 4 3 (by decide)).trans ((high_part 2 3 (by decide)).trans ((low_part 0 3 (by decide)).trans (whole_part))))
  have h6 : (BitVec.extractLsb' 0 19 (o ++ f0 ++ f1 ++ 0#2 ++ f3 ++ 0#2 ++ f5 ++ f6 ++ f7)).extractLsb' 2 2 = f6 := (field_of_low (by decide)).trans ((high_part 2 2 (by decide)).trans ((low_part 0 2 (by decide)).trans (whole_part)))
  have h7 : (BitVec.extractLsb' 0 19 (o ++ f0 ++ f1 ++ 0#2 ++ f3 ++ 0#2 ++ f5 ++ f6 ++ f7)).extractLsb' 0 2 = f7 := (field_of_low (by decide)).trans ((low_part 0 2 (by decide)).trans (whole_part))
  have h2 : (BitVec.extractLsb' 0 19 (o ++ f0 ++ f1 ++ 0#2 ++ f3 ++ 0#2 ++ f5 ++ f6 ++ f7)).extractLsb' 12 2 = 0#2 := (field_of_low (by decide)).trans ((high_part 12 2 (by decide)).trans ((high_part 10 2 (by decide)).trans ((high_part 8 2 (by decide)).trans ((high_part 5 2 (by decide)).trans ((high_part 3 2 (by decide)).trans ((low_part 0 2 (by decide)).trans (whole_part)))))))
  have h4 : (BitVec.extractLsb' 0 19 (o ++ f0 ++ f1 ++ 0#2 ++ f3 ++ 0#2 ++ f5 ++ f6 ++ f7)).extractLsb' 7 2 = 0#2 := (field_of_low (by decide)).trans ((high_part 7 2 (by decide)).trans ((high_part 5 2 (by decide)).trans ((high_part 3 2 (by decide)).trans ((low_part 0 2 (by decide)).trans (whole_part)))))
  exact ⟨ho, h0, h1, h3, h5, h6, h7, (mask_or (mask_field 12 2 _ h2) (mask_field 7 2 _ h4))⟩

theorem layout_5_5_z3_1_1_z4 {w : BitVec 27} (o : BitVec 8) (f0 : BitVec 5) (f1 : BitVec 5) (f3 : BitVec 1) (f4 : BitVec 1) (hw : o ++ f0 ++ f1 ++ 0#3 ++ f3 ++ f4 ++ 0#4 = w) :
    w.extractLsb' 19 8 = o ∧
      (w.extractLsb' 0 19).extractLsb' 14 5 = f0 ∧
      (w.extractLsb' 0 19).extractLsb' 9 5 = f1 ∧
      (w.extractLsb' 0 19).extractLsb' 5 1 = f3 ∧
      (w.extractLsb' 0 19).extractLsb' 4 1 = f4 ∧
      w.extractLsb' 0 19 &&& 0x001CF#19 = 0x00000#19 := by
  subst hw
  have ho : BitVec.extractLsb' 19 8 (o ++ f0 ++ f1 ++ 0#3 ++ f3 ++ f4 ++ 0#4) = o := (high_part 19 8 (by decide)).trans ((high_part 15 8 (by decide)).trans ((high_part 14 8 (by decide)).trans ((high_part 13 8 (by decide)).trans ((high_part 10 8 (by decide)).trans ((high_part 5 8 (by decide)).trans (whole_part))))))
  have h0 : (BitVec.extractLsb' 0 19 (o ++ f0 ++ f1 ++ 0#3 ++ f3 ++ f4 ++ 0#4)).extractLsb' 14 5 = f0 := (field_of_low (by decide)).trans ((high_part 14 5 (by decide)).trans ((high_part 10 5 (by decide)).trans ((high_part 9 5 (by decide)).trans ((high_part 8 5 (by decide)).trans ((high_part 5 5 (by decide)).trans ((low_part 0 5 (by decide)).trans (whole_part)))))))
  have h1 : (BitVec.extractLsb' 0 19 (o ++ f0 ++ f1 ++ 0#3 ++ f3 ++ f4 ++ 0#4)).extractLsb' 9 5 = f1 := (field_of_low (by decide)).trans ((high_part 9 5 (by decide)).trans ((high_part 5 5 (by decide)).trans ((high_part 4 5 (by decide)).trans ((high_part 3 5 (by decide)).trans ((low_part 0 5 (by decide)).trans (whole_part))))))
  have h3 : (BitVec.extractLsb' 0 19 (o ++ f0 ++ f1 ++ 0#3 ++ f3 ++ f4 ++ 0#4)).extractLsb' 5 1 = f3 := (field_of_low (by decide)).trans ((high_part 5 1 (by decide)).trans ((high_part 1 1 (by decide)).trans ((low_part 0 1 (by decide)).trans (whole_part))))
  have h4 : (BitVec.extractLsb' 0 19 (o ++ f0 ++ f1 ++ 0#3 ++ f3 ++ f4 ++ 0#4)).extractLsb' 4 1 = f4 := (field_of_low (by decide)).trans ((high_part 4 1 (by decide)).trans ((low_part 0 1 (by decide)).trans (whole_part)))
  have h2 : (BitVec.extractLsb' 0 19 (o ++ f0 ++ f1 ++ 0#3 ++ f3 ++ f4 ++ 0#4)).extractLsb' 6 3 = 0#3 := (field_of_low (by decide)).trans ((high_part 6 3 (by decide)).trans ((high_part 2 3 (by decide)).trans ((high_part 1 3 (by decide)).trans ((low_part 0 3 (by decide)).trans (whole_part)))))
  have h5 : (BitVec.extractLsb' 0 19 (o ++ f0 ++ f1 ++ 0#3 ++ f3 ++ f4 ++ 0#4)).extractLsb' 0 4 = 0#4 := (field_of_low (by decide)).trans ((low_part 0 4 (by decide)).trans (whole_part))
  exact ⟨ho, h0, h1, h3, h4, (mask_or (mask_field 6 3 _ h2) (mask_field 0 4 _ h5))⟩

theorem layout_z18_1 {w : BitVec 27} (o : BitVec 8) (f1 : BitVec 1) (hw : o ++ 0#18 ++ f1 = w) :
    w.extractLsb' 19 8 = o ∧
      (w.extractLsb' 0 19).extractLsb' 0 1 = f1 ∧
      w.extractLsb' 0 19 &&& 0x7FFFE#19 = 0x00000#19 := by
  subst hw
  have ho : BitVec.extractLsb' 19 8 (o ++ 0#18 ++ f1) = o := (high_part 19 8 (by decide)).trans ((high_part 18 8 (by decide)).trans (whole_part))
  have h1 : (BitVec.extractLsb' 0 19 (o ++ 0#18 ++ f1)).extractLsb' 0 1 = f1 := (field_of_low (by decide)).trans ((low_part 0 1 (by decide)).trans (whole_part))
  have h0 : (BitVec.extractLsb' 0 19 (o ++ 0#18 ++ f1)).extractLsb' 1 18 = 0#18 := (field_of_low (by decide)).trans ((high_part 1 18 (by decide)).trans ((low_part 0 18 (by decide)).trans (whole_part)))
  exact ⟨ho, h1, (mask_field 1 18 _ h0)⟩

theorem layout_1_4_5_9 {w : BitVec 27} (o : BitVec 8) (f0 : BitVec 1) (f1 : BitVec 4) (f2 : BitVec 5) (f3 : BitVec 9) (hw : o ++ f0 ++ f1 ++ f2 ++ f3 = w) :
    w.extractLsb' 19 8 = o ∧
      (w.extractLsb' 0 19).extractLsb' 18 1 = f0 ∧
      (w.extractLsb' 0 19).extractLsb' 14 4 = f1 ∧
      (w.extractLsb' 0 19).extractLsb' 9 5 = f2 ∧
      (w.extractLsb' 0 19).extractLsb' 0 9 = f3 := by
  subst hw
  have ho : BitVec.extractLsb' 19 8 (o ++ f0 ++ f1 ++ f2 ++ f3) = o := (high_part 19 8 (by decide)).trans ((high_part 10 8 (by decide)).trans ((high_part 5 8 (by decide)).trans ((high_part 1 8 (by decide)).trans (whole_part))))
  have h0 : (BitVec.extractLsb' 0 19 (o ++ f0 ++ f1 ++ f2 ++ f3)).extractLsb' 18 1 = f0 := (field_of_low (by decide)).trans ((high_part 18 1 (by decide)).trans ((high_part 9 1 (by decide)).trans ((high_part 4 1 (by decide)).trans ((low_part 0 1 (by decide)).trans (whole_part)))))
  have h1 : (BitVec.extractLsb' 0 19 (o ++ f0 ++ f1 ++ f2 ++ f3)).extractLsb' 14 4 = f1 := (field_of_low (by decide)).trans ((high_part 14 4 (by decide)).trans ((high_part 5 4 (by decide)).trans ((low_part 0 4 (by decide)).trans (whole_part))))
  have h2 : (BitVec.extractLsb' 0 19 (o ++ f0 ++ f1 ++ f2 ++ f3)).extractLsb' 9 5 = f2 := (field_of_low (by decide)).trans ((high_part 9 5 (by decide)).trans ((low_part 0 5 (by decide)).trans (whole_part)))
  have h3 : (BitVec.extractLsb' 0 19 (o ++ f0 ++ f1 ++ f2 ++ f3)).extractLsb' 0 9 = f3 := (field_of_low (by decide)).trans ((low_part 0 9 (by decide)).trans (whole_part))
  exact ⟨ho, h0, h1, h2, h3⟩

theorem layout_z2_3_5_5_z4 {w : BitVec 27} (o : BitVec 8) (f1 : BitVec 3) (f2 : BitVec 5) (f3 : BitVec 5) (hw : o ++ 0#2 ++ f1 ++ f2 ++ f3 ++ 0#4 = w) :
    w.extractLsb' 19 8 = o ∧
      (w.extractLsb' 0 19).extractLsb' 14 3 = f1 ∧
      (w.extractLsb' 0 19).extractLsb' 9 5 = f2 ∧
      (w.extractLsb' 0 19).extractLsb' 4 5 = f3 ∧
      w.extractLsb' 0 19 &&& 0x6000F#19 = 0x00000#19 := by
  subst hw
  have ho : BitVec.extractLsb' 19 8 (o ++ 0#2 ++ f1 ++ f2 ++ f3 ++ 0#4) = o := (high_part 19 8 (by decide)).trans ((high_part 15 8 (by decide)).trans ((high_part 10 8 (by decide)).trans ((high_part 5 8 (by decide)).trans ((high_part 2 8 (by decide)).trans (whole_part)))))
  have h1 : (BitVec.extractLsb' 0 19 (o ++ 0#2 ++ f1 ++ f2 ++ f3 ++ 0#4)).extractLsb' 14 3 = f1 := (field_of_low (by decide)).trans ((high_part 14 3 (by decide)).trans ((high_part 10 3 (by decide)).trans ((high_part 5 3 (by decide)).trans ((low_part 0 3 (by decide)).trans (whole_part)))))
  have h2 : (BitVec.extractLsb' 0 19 (o ++ 0#2 ++ f1 ++ f2 ++ f3 ++ 0#4)).extractLsb' 9 5 = f2 := (field_of_low (by decide)).trans ((high_part 9 5 (by decide)).trans ((high_part 5 5 (by decide)).trans ((low_part 0 5 (by decide)).trans (whole_part))))
  have h3 : (BitVec.extractLsb' 0 19 (o ++ 0#2 ++ f1 ++ f2 ++ f3 ++ 0#4)).extractLsb' 4 5 = f3 := (field_of_low (by decide)).trans ((high_part 4 5 (by decide)).trans ((low_part 0 5 (by decide)).trans (whole_part)))
  have h0 : (BitVec.extractLsb' 0 19 (o ++ 0#2 ++ f1 ++ f2 ++ f3 ++ 0#4)).extractLsb' 17 2 = 0#2 := (field_of_low (by decide)).trans ((high_part 17 2 (by decide)).trans ((high_part 13 2 (by decide)).trans ((high_part 8 2 (by decide)).trans ((high_part 3 2 (by decide)).trans ((low_part 0 2 (by decide)).trans (whole_part))))))
  have h4 : (BitVec.extractLsb' 0 19 (o ++ 0#2 ++ f1 ++ f2 ++ f3 ++ 0#4)).extractLsb' 0 4 = 0#4 := (field_of_low (by decide)).trans ((low_part 0 4 (by decide)).trans (whole_part))
  exact ⟨ho, h1, h2, h3, (mask_or (mask_field 17 2 _ h0) (mask_field 0 4 _ h4))⟩

theorem layout_z2_3_z5_9 {w : BitVec 27} (o : BitVec 8) (f1 : BitVec 3) (f3 : BitVec 9) (hw : o ++ 0#2 ++ f1 ++ 0#5 ++ f3 = w) :
    w.extractLsb' 19 8 = o ∧
      (w.extractLsb' 0 19).extractLsb' 14 3 = f1 ∧
      (w.extractLsb' 0 19).extractLsb' 0 9 = f3 ∧
      w.extractLsb' 0 19 &&& 0x63E00#19 = 0x00000#19 := by
  subst hw
  have ho : BitVec.extractLsb' 19 8 (o ++ 0#2 ++ f1 ++ 0#5 ++ f3) = o := (high_part 19 8 (by decide)).trans ((high_part 10 8 (by decide)).trans ((high_part 5 8 (by decide)).trans ((high_part 2 8 (by decide)).trans (whole_part))))
  have h1 : (BitVec.extractLsb' 0 19 (o ++ 0#2 ++ f1 ++ 0#5 ++ f3)).extractLsb' 14 3 = f1 := (field_of_low (by decide)).trans ((high_part 14 3 (by decide)).trans ((high_part 5 3 (by decide)).trans ((low_part 0 3 (by decide)).trans (whole_part))))
  have h3 : (BitVec.extractLsb' 0 19 (o ++ 0#2 ++ f1 ++ 0#5 ++ f3)).extractLsb' 0 9 = f3 := (field_of_low (by decide)).trans ((low_part 0 9 (by decide)).trans (whole_part))
  have h0 : (BitVec.extractLsb' 0 19 (o ++ 0#2 ++ f1 ++ 0#5 ++ f3)).extractLsb' 17 2 = 0#2 := (field_of_low (by decide)).trans ((high_part 17 2 (by decide)).trans ((high_part 8 2 (by decide)).trans ((high_part 3 2 (by decide)).trans ((low_part 0 2 (by decide)).trans (whole_part)))))
  have h2 : (BitVec.extractLsb' 0 19 (o ++ 0#2 ++ f1 ++ 0#5 ++ f3)).extractLsb' 9 5 = 0#5 := (field_of_low (by decide)).trans ((high_part 9 5 (by decide)).trans ((low_part 0 5 (by decide)).trans (whole_part)))
  exact ⟨ho, h1, h3, (mask_or (mask_field 17 2 _ h0) (mask_field 9 5 _ h2))⟩

theorem layout_5_5_5_z2_1_o1 {w : BitVec 27} (o : BitVec 8) (f0 : BitVec 5) (f1 : BitVec 5) (f2 : BitVec 5) (f4 : BitVec 1) (hw : o ++ f0 ++ f1 ++ f2 ++ 0#2 ++ f4 ++ 1#1 = w) :
    w.extractLsb' 19 8 = o ∧
      (w.extractLsb' 0 19).extractLsb' 14 5 = f0 ∧
      (w.extractLsb' 0 19).extractLsb' 9 5 = f1 ∧
      (w.extractLsb' 0 19).extractLsb' 4 5 = f2 ∧
      (w.extractLsb' 0 19).extractLsb' 1 1 = f4 ∧
      w.extractLsb' 0 19 &&& 0x0000D#19 = 0x00001#19 := by
  subst hw
  have ho : BitVec.extractLsb' 19 8 (o ++ f0 ++ f1 ++ f2 ++ 0#2 ++ f4 ++ 1#1) = o := (high_part 19 8 (by decide)).trans ((high_part 18 8 (by decide)).trans ((high_part 17 8 (by decide)).trans ((high_part 15 8 (by decide)).trans ((high_part 10 8 (by decide)).trans ((high_part 5 8 (by decide)).trans (whole_part))))))
  have h0 : (BitVec.extractLsb' 0 19 (o ++ f0 ++ f1 ++ f2 ++ 0#2 ++ f4 ++ 1#1)).extractLsb' 14 5 = f0 := (field_of_low (by decide)).trans ((high_part 14 5 (by decide)).trans ((high_part 13 5 (by decide)).trans ((high_part 12 5 (by decide)).trans ((high_part 10 5 (by decide)).trans ((high_part 5 5 (by decide)).trans ((low_part 0 5 (by decide)).trans (whole_part)))))))
  have h1 : (BitVec.extractLsb' 0 19 (o ++ f0 ++ f1 ++ f2 ++ 0#2 ++ f4 ++ 1#1)).extractLsb' 9 5 = f1 := (field_of_low (by decide)).trans ((high_part 9 5 (by decide)).trans ((high_part 8 5 (by decide)).trans ((high_part 7 5 (by decide)).trans ((high_part 5 5 (by decide)).trans ((low_part 0 5 (by decide)).trans (whole_part))))))
  have h2 : (BitVec.extractLsb' 0 19 (o ++ f0 ++ f1 ++ f2 ++ 0#2 ++ f4 ++ 1#1)).extractLsb' 4 5 = f2 := (field_of_low (by decide)).trans ((high_part 4 5 (by decide)).trans ((high_part 3 5 (by decide)).trans ((high_part 2 5 (by decide)).trans ((low_part 0 5 (by decide)).trans (whole_part)))))
  have h4 : (BitVec.extractLsb' 0 19 (o ++ f0 ++ f1 ++ f2 ++ 0#2 ++ f4 ++ 1#1)).extractLsb' 1 1 = f4 := (field_of_low (by decide)).trans ((high_part 1 1 (by decide)).trans ((low_part 0 1 (by decide)).trans (whole_part)))
  have h3 : (BitVec.extractLsb' 0 19 (o ++ f0 ++ f1 ++ f2 ++ 0#2 ++ f4 ++ 1#1)).extractLsb' 2 2 = 0#2 := (field_of_low (by decide)).trans ((high_part 2 2 (by decide)).trans ((high_part 1 2 (by decide)).trans ((low_part 0 2 (by decide)).trans (whole_part))))
  have h5 : (BitVec.extractLsb' 0 19 (o ++ f0 ++ f1 ++ f2 ++ 0#2 ++ f4 ++ 1#1)).extractLsb' 0 1 = 1#1 := (field_of_low (by decide)).trans ((low_part 0 1 (by decide)).trans (whole_part))
  exact ⟨ho, h0, h1, h2, h4, (mask_or (mask_field 2 2 _ h3) (mask_field 0 1 _ h5))⟩

theorem layout_5_5_5_z3_1 {w : BitVec 27} (o : BitVec 8) (f0 : BitVec 5) (f1 : BitVec 5) (f2 : BitVec 5) (f4 : BitVec 1) (hw : o ++ f0 ++ f1 ++ f2 ++ 0#3 ++ f4 = w) :
    w.extractLsb' 19 8 = o ∧
      (w.extractLsb' 0 19).extractLsb' 14 5 = f0 ∧
      (w.extractLsb' 0 19).extractLsb' 9 5 = f1 ∧
      (w.extractLsb' 0 19).extractLsb' 4 5 = f2 ∧
      (w.extractLsb' 0 19).extractLsb' 0 1 = f4 ∧
      w.extractLsb' 0 19 &&& 0x0000E#19 = 0x00000#19 := by
  subst hw
  have ho : BitVec.extractLsb' 19 8 (o ++ f0 ++ f1 ++ f2 ++ 0#3 ++ f4) = o := (high_part 19 8 (by decide)).trans ((high_part 18 8 (by decide)).trans ((high_part 15 8 (by decide)).trans ((high_part 10 8 (by decide)).trans ((high_part 5 8 (by decide)).trans (whole_part)))))
  have h0 : (BitVec.extractLsb' 0 19 (o ++ f0 ++ f1 ++ f2 ++ 0#3 ++ f4)).extractLsb' 14 5 = f0 := (field_of_low (by decide)).trans ((high_part 14 5 (by decide)).trans ((high_part 13 5 (by decide)).trans ((high_part 10 5 (by decide)).trans ((high_part 5 5 (by decide)).trans ((low_part 0 5 (by decide)).trans (whole_part))))))
  have h1 : (BitVec.extractLsb' 0 19 (o ++ f0 ++ f1 ++ f2 ++ 0#3 ++ f4)).extractLsb' 9 5 = f1 := (field_of_low (by decide)).trans ((high_part 9 5 (by decide)).trans ((high_part 8 5 (by decide)).trans ((high_part 5 5 (by decide)).trans ((low_part 0 5 (by decide)).trans (whole_part)))))
  have h2 : (BitVec.extractLsb' 0 19 (o ++ f0 ++ f1 ++ f2 ++ 0#3 ++ f4)).extractLsb' 4 5 = f2 := (field_of_low (by decide)).trans ((high_part 4 5 (by decide)).trans ((high_part 3 5 (by decide)).trans ((low_part 0 5 (by decide)).trans (whole_part))))
  have h4 : (BitVec.extractLsb' 0 19 (o ++ f0 ++ f1 ++ f2 ++ 0#3 ++ f4)).extractLsb' 0 1 = f4 := (field_of_low (by decide)).trans ((low_part 0 1 (by decide)).trans (whole_part))
  have h3 : (BitVec.extractLsb' 0 19 (o ++ f0 ++ f1 ++ f2 ++ 0#3 ++ f4)).extractLsb' 1 3 = 0#3 := (field_of_low (by decide)).trans ((high_part 1 3 (by decide)).trans ((low_part 0 3 (by decide)).trans (whole_part)))
  exact ⟨ho, h0, h1, h2, h4, (mask_field 1 3 _ h3)⟩

theorem layout_z5_5_5_z4 {w : BitVec 27} (o : BitVec 8) (f1 : BitVec 5) (f2 : BitVec 5) (hw : o ++ 0#5 ++ f1 ++ f2 ++ 0#4 = w) :
    w.extractLsb' 19 8 = o ∧
      (w.extractLsb' 0 19).extractLsb' 9 5 = f1 ∧
      (w.extractLsb' 0 19).extractLsb' 4 5 = f2 ∧
      w.extractLsb' 0 19 &&& 0x7C00F#19 = 0x00000#19 := by
  subst hw
  have ho : BitVec.extractLsb' 19 8 (o ++ 0#5 ++ f1 ++ f2 ++ 0#4) = o := (high_part 19 8 (by decide)).trans ((high_part 15 8 (by decide)).trans ((high_part 10 8 (by decide)).trans ((high_part 5 8 (by decide)).trans (whole_part))))
  have h1 : (BitVec.extractLsb' 0 19 (o ++ 0#5 ++ f1 ++ f2 ++ 0#4)).extractLsb' 9 5 = f1 := (field_of_low (by decide)).trans ((high_part 9 5 (by decide)).trans ((high_part 5 5 (by decide)).trans ((low_part 0 5 (by decide)).trans (whole_part))))
  have h2 : (BitVec.extractLsb' 0 19 (o ++ 0#5 ++ f1 ++ f2 ++ 0#4)).extractLsb' 4 5 = f2 := (field_of_low (by decide)).trans ((high_part 4 5 (by decide)).trans ((low_part 0 5 (by decide)).trans (whole_part)))
  have h0 : (BitVec.extractLsb' 0 19 (o ++ 0#5 ++ f1 ++ f2 ++ 0#4)).extractLsb' 14 5 = 0#5 := (field_of_low (by decide)).trans ((high_part 14 5 (by decide)).trans ((high_part 10 5 (by decide)).trans ((high_part 5 5 (by decide)).trans ((low_part 0 5 (by decide)).trans (whole_part)))))
  have h3 : (BitVec.extractLsb' 0 19 (o ++ 0#5 ++ f1 ++ f2 ++ 0#4)).extractLsb' 0 4 = 0#4 := (field_of_low (by decide)).trans ((low_part 0 4 (by decide)).trans (whole_part))
  exact ⟨ho, h1, h2, (mask_or (mask_field 14 5 _ h0) (mask_field 0 4 _ h3))⟩

theorem layout_z5_5_5_z3_1 {w : BitVec 27} (o : BitVec 8) (f1 : BitVec 5) (f2 : BitVec 5) (f4 : BitVec 1) (hw : o ++ 0#5 ++ f1 ++ f2 ++ 0#3 ++ f4 = w) :
    w.extractLsb' 19 8 = o ∧
      (w.extractLsb' 0 19).extractLsb' 9 5 = f1 ∧
      (w.extractLsb' 0 19).extractLsb' 4 5 = f2 ∧
      (w.extractLsb' 0 19).extractLsb' 0 1 = f4 ∧
      w.extractLsb' 0 19 &&& 0x7C00E#19 = 0x00000#19 := by
  subst hw
  have ho : BitVec.extractLsb' 19 8 (o ++ 0#5 ++ f1 ++ f2 ++ 0#3 ++ f4) = o := (high_part 19 8 (by decide)).trans ((high_part 18 8 (by decide)).trans ((high_part 15 8 (by decide)).trans ((high_part 10 8 (by decide)).trans ((high_part 5 8 (by decide)).trans (whole_part)))))
  have h1 : (BitVec.extractLsb' 0 19 (o ++ 0#5 ++ f1 ++ f2 ++ 0#3 ++ f4)).extractLsb' 9 5 = f1 := (field_of_low (by decide)).trans ((high_part 9 5 (by decide)).trans ((high_part 8 5 (by decide)).trans ((high_part 5 5 (by decide)).trans ((low_part 0 5 (by decide)).trans (whole_part)))))
  have h2 : (BitVec.extractLsb' 0 19 (o ++ 0#5 ++ f1 ++ f2 ++ 0#3 ++ f4)).extractLsb' 4 5 = f2 := (field_of_low (by decide)).trans ((high_part 4 5 (by decide)).trans ((high_part 3 5 (by decide)).trans ((low_part 0 5 (by decide)).trans (whole_part))))
  have h4 : (BitVec.extractLsb' 0 19 (o ++ 0#5 ++ f1 ++ f2 ++ 0#3 ++ f4)).extractLsb' 0 1 = f4 := (field_of_low (by decide)).trans ((low_part 0 1 (by decide)).trans (whole_part))
  have h0 : (BitVec.extractLsb' 0 19 (o ++ 0#5 ++ f1 ++ f2 ++ 0#3 ++ f4)).extractLsb' 14 5 = 0#5 := (field_of_low (by decide)).trans ((high_part 14 5 (by decide)).trans ((high_part 13 5 (by decide)).trans ((high_part 10 5 (by decide)).trans ((high_part 5 5 (by decide)).trans ((low_part 0 5 (by decide)).trans (whole_part))))))
  have h3 : (BitVec.extractLsb' 0 19 (o ++ 0#5 ++ f1 ++ f2 ++ 0#3 ++ f4)).extractLsb' 1 3 = 0#3 := (field_of_low (by decide)).trans ((high_part 1 3 (by decide)).trans ((low_part 0 3 (by decide)).trans (whole_part)))
  exact ⟨ho, h1, h2, h4, (mask_or (mask_field 14 5 _ h0) (mask_field 1 3 _ h3))⟩

theorem layout_z1_4_5_z9 {w : BitVec 27} (o : BitVec 8) (f1 : BitVec 4) (f2 : BitVec 5) (hw : o ++ 0#1 ++ f1 ++ f2 ++ 0#9 = w) :
    w.extractLsb' 19 8 = o ∧
      (w.extractLsb' 0 19).extractLsb' 14 4 = f1 ∧
      (w.extractLsb' 0 19).extractLsb' 9 5 = f2 ∧
      w.extractLsb' 0 19 &&& 0x401FF#19 = 0x00000#19 := by
  subst hw
  have ho : BitVec.extractLsb' 19 8 (o ++ 0#1 ++ f1 ++ f2 ++ 0#9) = o := (high_part 19 8 (by decide)).trans ((high_part 10 8 (by decide)).trans ((high_part 5 8 (by decide)).trans ((high_part 1 8 (by decide)).trans (whole_part))))
  have h1 : (BitVec.extractLsb' 0 19 (o ++ 0#1 ++ f1 ++ f2 ++ 0#9)).extractLsb' 14 4 = f1 := (field_of_low (by decide)).trans ((high_part 14 4 (by decide)).trans ((high_part 5 4 (by decide)).trans ((low_part 0 4 (by decide)).trans (whole_part))))
  have h2 : (BitVec.extractLsb' 0 19 (o ++ 0#1 ++ f1 ++ f2 ++ 0#9)).extractLsb' 9 5 = f2 := (field_of_low (by decide)).trans ((high_part 9 5 (by decide)).trans ((low_part 0 5 (by decide)).trans (whole_part)))
  have h0 : (BitVec.extractLsb' 0 19 (o ++ 0#1 ++ f1 ++ f2 ++ 0#9)).extractLsb' 18 1 = 0#1 := (field_of_low (by decide)).trans ((high_part 18 1 (by decide)).trans ((high_part 9 1 (by decide)).trans ((high_part 4 1 (by decide)).trans ((low_part 0 1 (by decide)).trans (whole_part)))))
  have h3 : (BitVec.extractLsb' 0 19 (o ++ 0#1 ++ f1 ++ f2 ++ 0#9)).extractLsb' 0 9 = 0#9 := (field_of_low (by decide)).trans ((low_part 0 9 (by decide)).trans (whole_part))
  exact ⟨ho, h1, h2, (mask_or (mask_field 18 1 _ h0) (mask_field 0 9 _ h3))⟩

theorem layout_5_5_z5_2_2 {w : BitVec 27} (o : BitVec 8) (f0 : BitVec 5) (f1 : BitVec 5) (f3 : BitVec 2) (f4 : BitVec 2) (hw : o ++ f0 ++ f1 ++ 0#5 ++ f3 ++ f4 = w) :
    w.extractLsb' 19 8 = o ∧
      (w.extractLsb' 0 19).extractLsb' 14 5 = f0 ∧
      (w.extractLsb' 0 19).extractLsb' 9 5 = f1 ∧
      (w.extractLsb' 0 19).extractLsb' 2 2 = f3 ∧
      (w.extractLsb' 0 19).extractLsb' 0 2 = f4 ∧
      w.extractLsb' 0 19 &&& 0x001F0#19 = 0x00000#19 := by
  subst hw
  have ho : BitVec.extractLsb' 19 8 (o ++ f0 ++ f1 ++ 0#5 ++ f3 ++ f4) = o := (high_part 19 8 (by decide)).trans ((high_part 17 8 (by decide)).trans ((high_part 15 8 (by decide)).trans ((high_part 10 8 (by decide)).trans ((high_part 5 8 (by decide)).trans (whole_part)))))
  have h0 : (BitVec.extractLsb' 0 19 (o ++ f0 ++ f1 ++ 0#5 ++ f3 ++ f4)).extractLsb' 14 5 = f0 := (field_of_low (by decide)).trans ((high_part 14 5 (by decide)).trans ((high_part 12 5 (by decide)).trans ((high_part 10 5 (by decide)).trans ((high_part 5 5 (by decide)).trans ((low_part 0 5 (by decide)).trans (whole_part))))))
  have h1 : (BitVec.extractLsb' 0 19 (o ++ f0 ++ f1 ++ 0#5 ++ f3 ++ f4)).extractLsb' 9 5 = f1 := (field_of_low (by decide)).trans ((high_part 9 5 (by decide)).trans ((high_part 7 5 (by decide)).trans ((high_part 5 5 (by decide)).trans ((low_part 0 5 (by decide)).trans (whole_part)))))
  have h3 : (BitVec.extractLsb' 0 19 (o ++ f0 ++ f1 ++ 0#5 ++ f3 ++ f4)).extractLsb' 2 2 = f3 := (field_of_low (by decide)).trans ((high_part 2 2 (by decide)).trans ((low_part 0 2 (by decide)).trans (whole_part)))
  have h4 : (BitVec.extractLsb' 0 19 (o ++ f0 ++ f1 ++ 0#5 ++ f3 ++ f4)).extractLsb' 0 2 = f4 := (field_of_low (by decide)).trans ((low_part 0 2 (by decide)).trans (whole_part))
  have h2 : (BitVec.extractLsb' 0 19 (o ++ f0 ++ f1 ++ 0#5 ++ f3 ++ f4)).extractLsb' 4 5 = 0#5 := (field_of_low (by decide)).trans ((high_part 4 5 (by decide)).trans ((high_part 2 5 (by decide)).trans ((low_part 0 5 (by decide)).trans (whole_part))))
  exact ⟨ho, h0, h1, h3, h4, (mask_field 4 5 _ h2)⟩

theorem layout_5_z3_2_5_2_2 {w : BitVec 27} (o : BitVec 8) (f0 : BitVec 5) (f2 : BitVec 2) (f3 : BitVec 5) (f4 : BitVec 2) (f5 : BitVec 2) (hw : o ++ f0 ++ 0#3 ++ f2 ++ f3 ++ f4 ++ f5 = w) :
    w.extractLsb' 19 8 = o ∧
      (w.extractLsb' 0 19).extractLsb' 14 5 = f0 ∧
      (w.extractLsb' 0 19).extractLsb' 9 2 = f2 ∧
      (w.extractLsb' 0 19).extractLsb' 4 5 = f3 ∧
      (w.extractLsb' 0 19).extractLsb' 2 2 = f4 ∧
      (w.extractLsb' 0 19).extractLsb' 0 2 = f5 ∧
      w.extractLsb' 0 19 &&& 0x03800#19 = 0x00000#19 := by
  subst hw
  have ho : BitVec.extractLsb' 19 8 (o ++ f0 ++ 0#3 ++ f2 ++ f3 ++ f4 ++ f5) = o := (high_part 19 8 (by decide)).trans ((high_part 17 8 (by decide)).trans ((high_part 15 8 (by decide)).trans ((high_part 10 8 (by decide)).trans ((high_part 8 8 (by decide)).trans ((high_part 5 8 (by decide)).trans (whole_part))))))
  have h0 : (BitVec.extractLsb' 0 19 (o ++ f0 ++ 0#3 ++ f2 ++ f3 ++ f4 ++ f5)).extractLsb' 14 5 = f0 := (field_of_low (by decide)).trans ((high_part 14 5 (by decide)).trans ((high_part 12 5 (by decide)).trans ((high_part 10 5 (by decide)).trans ((high_part 5 5 (by decide)).trans ((high_part 3 5 (by decide)).trans ((low_part 0 5 (by decide)).trans (whole_part)))))))
  have h2 : (BitVec.extractLsb' 0 19 (o ++ f0 ++ 0#3 ++ f2 ++ f3 ++ f4 ++ f5)).extractLsb' 9 2 = f2 := (field_of_low (by decide)).trans ((high_part 9 2 (by decide)).trans ((high_part 7 2 (by decide)).trans ((high_part 5 2 (by decide)).trans ((low_part 0 2 (by decide)).trans (whole_part)))))
  have h3 : (BitVec.extractLsb' 0 19 (o ++ f0 ++ 0#3 ++ f2 ++ f3 ++ f4 ++ f5)).extractLsb' 4 5 = f3 := (field_of_low (by decide)).trans ((high_part 4 5 (by decide)).trans ((high_part 2 5 (by decide)).trans ((low_part 0 5 (by decide)).trans (whole_part))))
  have h4 : (BitVec.extractLsb' 0 19 (o ++ f0 ++ 0#3 ++ f2 ++ f3 ++ f4 ++ f5)).extractLsb' 2 2 = f4 := (field_of_low (by decide)).trans ((high_part 2 2 (by decide)).trans ((low_part 0 2 (by decide)).trans (whole_part)))
  have h5 : (BitVec.extractLsb' 0 19 (o ++ f0 ++ 0#3 ++ f2 ++ f3 ++ f4 ++ f5)).extractLsb' 0 2 = f5 := (field_of_low (by decide)).trans ((low_part 0 2 (by decide)).trans (whole_part))
  have h1 : (BitVec.extractLsb' 0 19 (o ++ f0 ++ 0#3 ++ f2 ++ f3 ++ f4 ++ f5)).extractLsb' 11 3 = 0#3 := (field_of_low (by decide)).trans ((high_part 11 3 (by decide)).trans ((high_part 9 3 (by decide)).trans ((high_part 7 3 (by decide)).trans ((high_part 2 3 (by decide)).trans ((low_part 0 3 (by decide)).trans (whole_part))))))
  exact ⟨ho, h0, h2, h3, h4, h5, (mask_field 11 3 _ h1)⟩

theorem layout_5_2_3_5_2_2 {w : BitVec 27} (o : BitVec 8) (f0 : BitVec 5) (f1 : BitVec 2) (f2 : BitVec 3) (f3 : BitVec 5) (f4 : BitVec 2) (f5 : BitVec 2) (hw : o ++ f0 ++ f1 ++ f2 ++ f3 ++ f4 ++ f5 = w) :
    w.extractLsb' 19 8 = o ∧
      (w.extractLsb' 0 19).extractLsb' 14 5 = f0 ∧
      (w.extractLsb' 0 19).extractLsb' 12 2 = f1 ∧
      (w.extractLsb' 0 19).extractLsb' 9 3 = f2 ∧
      (w.extractLsb' 0 19).extractLsb' 4 5 = f3 ∧
      (w.extractLsb' 0 19).extractLsb' 2 2 = f4 ∧
      (w.extractLsb' 0 19).extractLsb' 0 2 = f5 := by
  subst hw
  have ho : BitVec.extractLsb' 19 8 (o ++ f0 ++ f1 ++ f2 ++ f3 ++ f4 ++ f5) = o := (high_part 19 8 (by decide)).trans ((high_part 17 8 (by decide)).trans ((high_part 15 8 (by decide)).trans ((high_part 10 8 (by decide)).trans ((high_part 7 8 (by decide)).trans ((high_part 5 8 (by decide)).trans (whole_part))))))
  have h0 : (BitVec.extractLsb' 0 19 (o ++ f0 ++ f1 ++ f2 ++ f3 ++ f4 ++ f5)).extractLsb' 14 5 = f0 := (field_of_low (by decide)).trans ((high_part 14 5 (by decide)).trans ((high_part 12 5 (by decide)).trans ((high_part 10 5 (by decide)).trans ((high_part 5 5 (by decide)).trans ((high_part 2 5 (by decide)).trans ((low_part 0 5 (by decide)).trans (whole_part)))))))
  have h1 : (BitVec.extractLsb' 0 19 (o ++ f0 ++ f1 ++ f2 ++ f3 ++ f4 ++ f5)).extractLsb' 12 2 = f1 := (field_of_low (by decide)).trans ((high_part 12 2 (by decide)).trans ((high_part 10 2 (by decide)).trans ((high_part 8 2 (by decide)).trans ((high_part 3 2 (by decide)).trans ((low_part 0 2 (by decide)).trans (whole_part))))))
  have h2 : (BitVec.extractLsb' 0 19 (o ++ f0 ++ f1 ++ f2 ++ f3 ++ f4 ++ f5)).extractLsb' 9 3 = f2 := (field_of_low (by decide)).trans ((high_part 9 3 (by decide)).trans ((high_part 7 3 (by decide)).trans ((high_part 5 3 (by decide)).trans ((low_part 0 3 (by decide)).trans (whole_part)))))
  have h3 : (BitVec.extractLsb' 0 19 (o ++ f0 ++ f1 ++ f2 ++ f3 ++ f4 ++ f5)).extractLsb' 4 5 = f3 := (field_of_low (by decide)).trans ((high_part 4 5 (by decide)).trans ((high_part 2 5 (by decide)).trans ((low_part 0 5 (by decide)).trans (whole_part))))
  have h4 : (BitVec.extractLsb' 0 19 (o ++ f0 ++ f1 ++ f2 ++ f3 ++ f4 ++ f5)).extractLsb' 2 2 = f4 := (field_of_low (by decide)).trans ((high_part 2 2 (by decide)).trans ((low_part 0 2 (by decide)).trans (whole_part)))
  have h5 : (BitVec.extractLsb' 0 19 (o ++ f0 ++ f1 ++ f2 ++ f3 ++ f4 ++ f5)).extractLsb' 0 2 = f5 := (field_of_low (by decide)).trans ((low_part 0 2 (by decide)).trans (whole_part))
  exact ⟨ho, h0, h1, h2, h3, h4, h5⟩

theorem layout_5_5_z3_2_2_2 {w : BitVec 27} (o : BitVec 8) (f0 : BitVec 5) (f1 : BitVec 5) (f3 : BitVec 2) (f4 : BitVec 2) (f5 : BitVec 2) (hw : o ++ f0 ++ f1 ++ 0#3 ++ f3 ++ f4 ++ f5 = w) :
    w.extractLsb' 19 8 = o ∧
      (w.extractLsb' 0 19).extractLsb' 14 5 = f0 ∧
      (w.extractLsb' 0 19).extractLsb' 9 5 = f1 ∧
      (w.extractLsb' 0 19).extractLsb' 4 2 = f3 ∧
      (w.extractLsb' 0 19).extractLsb' 2 2 = f4 ∧
      (w.extractLsb' 0 19).extractLsb' 0 2 = f5 ∧
      w.extractLsb' 0 19 &&& 0x001C0#19 = 0x00000#19 := by
  subst hw
  have ho : BitVec.extractLsb' 19 8 (o ++ f0 ++ f1 ++ 0#3 ++ f3 ++ f4 ++ f5) = o := (high_part 19 8 (by decide)).trans ((high_part 17 8 (by decide)).trans ((high_part 15 8 (by decide)).trans ((high_part 13 8 (by decide)).trans ((high_part 10 8 (by decide)).trans ((high_part 5 8 (by decide)).trans (whole_part))))))
  have h0 : (BitVec.extractLsb' 0 19 (o ++ f0 ++ f1 ++ 0#3 ++ f3 ++ f4 ++ f5)).extractLsb' 14 5 = f0 := (field_of_low (by decide)).trans ((high_part 14 5 (by decide)).trans ((high_part 12 5 (by decide)).trans ((high_part 10 5 (by decide)).trans ((high_part 8 5 (by decide)).trans ((high_part 5 5 (by decide)).trans ((low_part 0 5 (by decide)).trans (whole_part)))))))
  have h1 : (BitVec.extractLsb' 0 19 (o ++ f0 ++ f1 ++ 0#3 ++ f3 ++ f4 ++ f5)).extractLsb' 9 5 = f1 := (field_of_low (by decide)).trans ((high_part 9 5 (by decide)).trans ((high_part 7 5 (by decide)).trans ((high_part 5 5 (by decide)).trans ((high_part 3 5 (by decide)).trans ((low_part 0 5 (by decide)).trans (whole_part))))))
  have h3 : (BitVec.extractLsb' 0 19 (o ++ f0 ++ f1 ++ 0#3 ++ f3 ++ f4 ++ f5)).extractLsb' 4 2 = f3 := (field_of_low (by decide)).trans ((high_part 4 2 (by decide)).trans ((high_part 2 2 (by decide)).trans ((low_part 0 2 (by decide)).trans (whole_part))))
  have h4 : (BitVec.extractLsb' 0 19 (o ++ f0 ++ f1 ++ 0#3 ++ f3 ++ f4 ++ f5)).extractLsb' 2 2 = f4 := (field_of_low (by decide)).trans ((high_part 2 2 (by decide)).trans ((low_part 0 2 (by decide)).trans (whole_part)))
  have h5 : (BitVec.extractLsb' 0 19 (o ++ f0 ++ f1 ++ 0#3 ++ f3 ++ f4 ++ f5)).extractLsb' 0 2 = f5 := (field_of_low (by decide)).trans ((low_part 0 2 (by decide)).trans (whole_part))
  have h2 : (BitVec.extractLsb' 0 19 (o ++ f0 ++ f1 ++ 0#3 ++ f3 ++ f4 ++ f5)).extractLsb' 6 3 = 0#3 := (field_of_low (by decide)).trans ((high_part 6 3 (by decide)).trans ((high_part 4 3 (by decide)).trans ((high_part 2 3 (by decide)).trans ((low_part 0 3 (by decide)).trans (whole_part)))))
  exact ⟨ho, h0, h1, h3, h4, h5, (mask_field 6 3 _ h2)⟩

theorem layout_5_5_z1_1_1_2_2_2 {w : BitVec 27} (o : BitVec 8) (f0 : BitVec 5) (f1 : BitVec 5) (f3 : BitVec 1) (f4 : BitVec 1) (f5 : BitVec 2) (f6 : BitVec 2) (f7 : BitVec 2) (hw : o ++ f0 ++ f1 ++ 0#1 ++ f3 ++ f4 ++ f5 ++ f6 ++ f7 = w) :
    w.extractLsb' 19 8 = o ∧
      (w.extractLsb' 0 19).extractLsb' 14 5 = f0 ∧
      (w.extractLsb' 0 19).extractLsb' 9 5 = f1 ∧
      (w.extractLsb' 0 19).extractLsb' 7 1 = f3 ∧
      (w.extractLsb' 0 19).extractLsb' 6 1 = f4 ∧
      (w.extractLsb' 0 19).extractLsb' 4 2 = f5 ∧
      (w.extractLsb' 0 19).extractLsb' 2 2 = f6 ∧
      (w.extractLsb' 0 19).extractLsb' 0 2 = f7 ∧
      w.extractLsb' 0 19 &&& 0x00100#19 = 0x00000#19 := by
  subst hw
  have ho : BitVec.extractLsb' 19 8 (o ++ f0 ++ f1 ++ 0#1 ++ f3 ++ f4 ++ f5 ++ f6 ++ f7) = o := (high_part 19 8 (by decide)).trans ((high_part 17 8 (by decide)).trans ((high_part 15 8 (by decide)).trans ((high_part 13 8 (by decide)).trans ((high_part 12 8 (by decide)).trans ((high_part 11 8 (by decide)).trans ((high_part 10 8 (by decide)).trans ((high_part 5 8 (by decide)).trans (whole_part))))))))
  have h0 : (BitVec.extractLsb' 0 19 (o ++ f0 ++ f1 ++ 0#1 ++ f3 ++ f4 ++ f5 ++ f6 ++ f7)).extractLsb' 14 5 = f0 := (field_of_low (by decide)).trans ((high_part 14 5 (by decide)).trans ((high_part 12 5 (by decide)).trans ((high_part 10 5 (by decide)).trans ((high_part 8 5 (by decide)).trans ((high_part 7 5 (by decide)).trans ((high_part 6 5 (by decide)).trans ((high_part 5 5 (by decide)).trans ((low_part 0 5 (by decide)).trans (whole_part)))))))))
  have h1 : (BitVec.extractLsb' 0 19 (o ++ f0 ++ f1 ++ 0#1 ++ f3 ++ f4 ++ f5 ++ f6 ++ f7)).extractLsb' 9 5 = f1 := (field_of_low (by decide)).trans ((high_part 9 5 (by decide)).trans ((high_part 7 5 (by decide)).trans ((high_part 5 5 (by decide)).trans ((high_part 3 5 (by decide)).trans ((high_part 2 5 (by decide)).trans ((high_part 1 5 (by decide)).trans ((low_part 0 5 (by decide)).trans (whole_part))))))))
  have h3 : (BitVec.extractLsb' 0 19 (o ++ f0 ++ f1 ++ 0#1 ++ f3 ++ f4 ++ f5 ++ f6 ++ f7)).extractLsb' 7 1 = f3 := (field_of_low (by decide)).trans ((high_part 7 1 (by decide)).trans ((high_part 5 1 (by decide)).trans ((high_part 3 1 (by decide)).trans ((high_part 1 1 (by decide)).trans ((low_part 0 1 (by decide)).trans (whole_part))))))
  have h4 : (BitVec.extractLsb' 0 19 (o ++ f0 ++ f1 ++ 0#1 ++ f3 ++ f4 ++ f5 ++ f6 ++ f7)).extractLsb' 6 1 = f4 := (field_of_low (by decide)).trans ((high_part 6 1 (by decide)).trans ((high_part 4 1 (by decide)).trans ((high_part 2 1 (by decide)).trans ((low_part 0 1 (by decide)).trans (whole_part)))))
  have h5 : (BitVec.extractLsb' 0 19 (o ++ f0 ++ f1 ++ 0#1 ++ f3 ++ f4 ++ f5 ++ f6 ++ f7)).extractLsb' 4 2 = f5 := (field_of_low (by decide)).trans ((high_part 4 2 (by decide)).trans ((high_part 2 2 (by decide)).trans ((low_part 0 2 (by decide)).trans (whole_part))))
  have h6 : (BitVec.extractLsb' 0 19 (o ++ f0 ++ f1 ++ 0#1 ++ f3 ++ f4 ++ f5 ++ f6 ++ f7)).extractLsb' 2 2 = f6 := (field_of_low (by decide)).trans ((high_part 2 2 (by decide)).trans ((low_part 0 2 (by decide)).trans (whole_part)))
  have h7 : (BitVec.extractLsb' 0 19 (o ++ f0 ++ f1 ++ 0#1 ++ f3 ++ f4 ++ f5 ++ f6 ++ f7)).extractLsb' 0 2 = f7 := (field_of_low (by decide)).trans ((low_part 0 2 (by decide)).trans (whole_part))
  have h2 : (BitVec.extractLsb' 0 19 (o ++ f0 ++ f1 ++ 0#1 ++ f3 ++ f4 ++ f5 ++ f6 ++ f7)).extractLsb' 8 1 = 0#1 := (field_of_low (by decide)).trans ((high_part 8 1 (by decide)).trans ((high_part 6 1 (by decide)).trans ((high_part 4 1 (by decide)).trans ((high_part 2 1 (by decide)).trans ((high_part 1 1 (by decide)).trans ((low_part 0 1 (by decide)).trans (whole_part)))))))
  exact ⟨ho, h0, h1, h3, h4, h5, h6, h7, (mask_field 8 1 _ h2)⟩

theorem layout_5_5_z1_2_2_2_2 {w : BitVec 27} (o : BitVec 8) (f0 : BitVec 5) (f1 : BitVec 5) (f3 : BitVec 2) (f4 : BitVec 2) (f5 : BitVec 2) (f6 : BitVec 2) (hw : o ++ f0 ++ f1 ++ 0#1 ++ f3 ++ f4 ++ f5 ++ f6 = w) :
    w.extractLsb' 19 8 = o ∧
      (w.extractLsb' 0 19).extractLsb' 14 5 = f0 ∧
      (w.extractLsb' 0 19).extractLsb' 9 5 = f1 ∧
      (w.extractLsb' 0 19).extractLsb' 6 2 = f3 ∧
      (w.extractLsb' 0 19).extractLsb' 4 2 = f4 ∧
      (w.extractLsb' 0 19).extractLsb' 2 2 = f5 ∧
      (w.extractLsb' 0 19).extractLsb' 0 2 = f6 ∧
      w.extractLsb' 0 19 &&& 0x00100#19 = 0x00000#19 := by
  subst hw
  have ho : BitVec.extractLsb' 19 8 (o ++ f0 ++ f1 ++ 0#1 ++ f3 ++ f4 ++ f5 ++ f6) = o := (high_part 19 8 (by decide)).trans ((high_part 17 8 (by decide)).trans ((high_part 15 8 (by decide)).trans ((high_part 13 8 (by decide)).trans ((high_part 11 8 (by decide)).trans ((high_part 10 8 (by decide)).trans ((high_part 5 8 (by decide)).trans (whole_part)))))))
  have h0 : (BitVec.extractLsb' 0 19 (o ++ f0 ++ f1 ++ 0#1 ++ f3 ++ f4 ++ f5 ++ f6)).extractLsb' 14 5 = f0 := (field_of_low (by decide)).trans ((high_part 14 5 (by decide)).trans ((high_part 12 5 (by decide)).trans ((high_part 10 5 (by decide)).trans ((high_part 8 5 (by decide)).trans ((high_part 6 5 (by decide)).trans ((high_part 5 5 (by decide)).trans ((low_part 0 5 (by decide)).trans (whole_part))))))))
  have h1 : (BitVec.extractLsb' 0 19 (o ++ f0 ++ f1 ++ 0#1 ++ f3 ++ f4 ++ f5 ++ f6)).extractLsb' 9 5 = f1 := (field_of_low (by decide)).trans ((high_part 9 5 (by decide)).trans ((high_part 7 5 (by decide)).trans ((high_part 5 5 (by decide)).trans ((high_part 3 5 (by decide)).trans ((high_part 1 5 (by decide)).trans ((low_part 0 5 (by decide)).trans (whole_part)))))))
  have h3 : (BitVec.extractLsb' 0 19 (o ++ f0 ++ f1 ++ 0#1 ++ f3 ++ f4 ++ f5 ++ f6)).extractLsb' 6 2 = f3 := (field_of_low (by decide)).trans ((high_part 6 2 (by decide)).trans ((high_part 4 2 (by decide)).trans ((high_part 2 2 (by decide)).trans ((low_part 0 2 (by decide)).trans (whole_part)))))
  have h4 : (BitVec.extractLsb' 0 19 (o ++ f0 ++ f1 ++ 0#1 ++ f3 ++ f4 ++ f5 ++ f6)).extractLsb' 4 2 = f4 := (field_of_low (by decide)).trans ((high_part 4 2 (by decide)).trans ((high_part 2 2 (by decide)).trans ((low_part 0 2 (by decide)).trans (whole_part))))
  have h5 : (BitVec.extractLsb' 0 19 (o ++ f0 ++ f1 ++ 0#1 ++ f3 ++ f4 ++ f5 ++ f6)).extractLsb' 2 2 = f5 := (field_of_low (by decide)).trans ((high_part 2 2 (by decide)).trans ((low_part 0 2 (by decide)).trans (whole_part)))
  have h6 : (BitVec.extractLsb' 0 19 (o ++ f0 ++ f1 ++ 0#1 ++ f3 ++ f4 ++ f5 ++ f6)).extractLsb' 0 2 = f6 := (field_of_low (by decide)).trans ((low_part 0 2 (by decide)).trans (whole_part))
  have h2 : (BitVec.extractLsb' 0 19 (o ++ f0 ++ f1 ++ 0#1 ++ f3 ++ f4 ++ f5 ++ f6)).extractLsb' 8 1 = 0#1 := (field_of_low (by decide)).trans ((high_part 8 1 (by decide)).trans ((high_part 6 1 (by decide)).trans ((high_part 4 1 (by decide)).trans ((high_part 2 1 (by decide)).trans ((low_part 0 1 (by decide)).trans (whole_part))))))
  exact ⟨ho, h0, h1, h3, h4, h5, h6, (mask_field 8 1 _ h2)⟩

theorem layout_z5_5_5_2_2 {w : BitVec 27} (o : BitVec 8) (f1 : BitVec 5) (f2 : BitVec 5) (f3 : BitVec 2) (f4 : BitVec 2) (hw : o ++ 0#5 ++ f1 ++ f2 ++ f3 ++ f4 = w) :
    w.extractLsb' 19 8 = o ∧
      (w.extractLsb' 0 19).extractLsb' 9 5 = f1 ∧
      (w.extractLsb' 0 19).extractLsb' 4 5 = f2 ∧
      (w.extractLsb' 0 19).extractLsb' 2 2 = f3 ∧
      (w.extractLsb' 0 19).extractLsb' 0 2 = f4 ∧
      w.extractLsb' 0 19 &&& 0x7C000#19 = 0x00000#19 := by
  subst hw
  have ho : BitVec.extractLsb' 19 8 (o ++ 0#5 ++ f1 ++ f2 ++ f3 ++ f4) = o := (high_part 19 8 (by decide)).trans ((high_part 17 8 (by decide)).trans ((high_part 15 8 (by decide)).trans ((high_part 10 8 (by decide)).trans ((high_part 5 8 (by decide)).trans (whole_part)))))
  have h1 : (BitVec.extractLsb' 0 19 (o ++ 0#5 ++ f1 ++ f2 ++ f3 ++ f4)).extractLsb' 9 5 = f1 := (field_of_low (by decide)).trans ((high_part 9 5 (by decide)).trans ((high_part 7 5 (by decide)).trans ((high_part 5 5 (by decide)).trans ((low_part 0 5 (by decide)).trans (whole_part)))))
  have h2 : (BitVec.extractLsb' 0 19 (o ++ 0#5 ++ f1 ++ f2 ++ f3 ++ f4)).extractLsb' 4 5 = f2 := (field_of_low (by decide)).trans ((high_part 4 5 (by decide)).trans ((high_part 2 5 (by decide)).trans ((low_part 0 5 (by decide)).trans (whole_part))))
  have h3 : (BitVec.extractLsb' 0 19 (o ++ 0#5 ++ f1 ++ f2 ++ f3 ++ f4)).extractLsb' 2 2 = f3 := (field_of_low (by decide)).trans ((high_part 2 2 (by decide)).trans ((low_part 0 2 (by decide)).trans (whole_part)))
  have h4 : (BitVec.extractLsb' 0 19 (o ++ 0#5 ++ f1 ++ f2 ++ f3 ++ f4)).extractLsb' 0 2 = f4 := (field_of_low (by decide)).trans ((low_part 0 2 (by decide)).trans (whole_part))
  have h0 : (BitVec.extractLsb' 0 19 (o ++ 0#5 ++ f1 ++ f2 ++ f3 ++ f4)).extractLsb' 14 5 = 0#5 := (field_of_low (by decide)).trans ((high_part 14 5 (by decide)).trans ((high_part 12 5 (by decide)).trans ((high_part 10 5 (by decide)).trans ((high_part 5 5 (by decide)).trans ((low_part 0 5 (by decide)).trans (whole_part))))))
  exact ⟨ho, h1, h2, h3, h4, (mask_field 14 5 _ h0)⟩

theorem layout_5_4_1_5_o4 {w : BitVec 27} (o : BitVec 8) (f0 : BitVec 5) (f1 : BitVec 4) (f2 : BitVec 1) (f3 : BitVec 5) (hw : o ++ f0 ++ f1 ++ f2 ++ f3 ++ 8#4 = w) :
    w.extractLsb' 19 8 = o ∧
      (w.extractLsb' 0 19).extractLsb' 14 5 = f0 ∧
      (w.extractLsb' 0 19).extractLsb' 10 4 = f1 ∧
      (w.extractLsb' 0 19).extractLsb' 9 1 = f2 ∧
      (w.extractLsb' 0 19).extractLsb' 4 5 = f3 ∧
      w.extractLsb' 0 19 &&& 0x0000F#19 = 0x00008#19 := by
  subst hw
  have ho : BitVec.extractLsb' 19 8 (o ++ f0 ++ f1 ++ f2 ++ f3 ++ 8#4) = o := (high_part 19 8 (by decide)).trans ((high_part 15 8 (by decide)).trans ((high_part 10 8 (by decide)).trans ((high_part 9 8 (by decide)).trans ((high_part 5 8 (by decide)).trans (whole_part)))))
  have h0 : (BitVec.extractLsb' 0 19 (o ++ f0 ++ f1 ++ f2 ++ f3 ++ 8#4)).extractLsb' 14 5 = f0 := (field_of_low (by decide)).trans ((high_part 14 5 (by decide)).trans ((high_part 10 5 (by decide)).trans ((high_part 5 5 (by decide)).trans ((high_part 4 5 (by decide)).trans ((low_part 0 5 (by decide)).trans (whole_part))))))
  have h1 : (BitVec.extractLsb' 0 19 (o ++ f0 ++ f1 ++ f2 ++ f3 ++ 8#4)).extractLsb' 10 4 = f1 := (field_of_low (by decide)).trans ((high_part 10 4 (by decide)).trans ((high_part 6 4 (by decide)).trans ((high_part 1 4 (by decide)).trans ((low_part 0 4 (by decide)).trans (whole_part)))))
  have h2 : (BitVec.extractLsb' 0 19 (o ++ f0 ++ f1 ++ f2 ++ f3 ++ 8#4)).extractLsb' 9 1 = f2 := (field_of_low (by decide)).trans ((high_part 9 1 (by decide)).trans ((high_part 5 1 (by decide)).trans ((low_part 0 1 (by decide)).trans (whole_part))))
  have h3 : (BitVec.extractLsb' 0 19 (o ++ f0 ++ f1 ++ f2 ++ f3 ++ 8#4)).extractLsb' 4 5 = f3 := (field_of_low (by decide)).trans ((high_part 4 5 (by decide)).trans ((low_part 0 5 (by decide)).trans (whole_part)))
  have h4 : (BitVec.extractLsb' 0 19 (o ++ f0 ++ f1 ++ f2 ++ f3 ++ 8#4)).extractLsb' 0 4 = 8#4 := (field_of_low (by decide)).trans ((low_part 0 4 (by decide)).trans (whole_part))
  exact ⟨ho, h0, h1, h2, h3, (mask_field 0 4 _ h4)⟩

theorem layout_5_5_z2_3_2_2 {w : BitVec 27} (o : BitVec 8) (f0 : BitVec 5) (f1 : BitVec 5) (f3 : BitVec 3) (f4 : BitVec 2) (f5 : BitVec 2) (hw : o ++ f0 ++ f1 ++ 0#2 ++ f3 ++ f4 ++ f5 = w) :
    w.extractLsb' 19 8 = o ∧
      (w.extractLsb' 0 19).extractLsb' 14 5 = f0 ∧
      (w.extractLsb' 0 19).extractLsb' 9 5 = f1 ∧
      (w.extractLsb' 0 19).extractLsb' 4 3 = f3 ∧
      (w.extractLsb' 0 19).extractLsb' 2 2 = f4 ∧
      (w.extractLsb' 0 19).extractLsb' 0 2 = f5 ∧
      w.extractLsb' 0 19 &&& 0x00180#19 = 0x00000#19 := by
  subst hw
  have ho : BitVec.extractLsb' 19 8 (o ++ f0 ++ f1 ++ 0#2 ++ f3 ++ f4 ++ f5) = o := (high_part 19 8 (by decide)).trans ((high_part 17 8 (by decide)).trans ((high_part 15 8 (by decide)).trans ((high_part 12 8 (by decide)).trans ((high_part 10 8 (by decide)).trans ((high_part 5 8 (by decide)).trans (whole_part))))))
  have h0 : (BitVec.extractLsb' 0 19 (o ++ f0 ++ f1 ++ 0#2 ++ f3 ++ f4 ++ f5)).extractLsb' 14 5 = f0 := (field_of_low (by decide)).trans ((high_part 14 5 (by decide)).trans ((high_part 12 5 (by decide)).trans ((high_part 10 5 (by decide)).trans ((high_part 7 5 (by decide)).trans ((high_part 5 5 (by decide)).trans ((low_part 0 5 (by decide)).trans (whole_part)))))))
  have h1 : (BitVec.extractLsb' 0 19 (o ++ f0 ++ f1 ++ 0#2 ++ f3 ++ f4 ++ f5)).extractLsb' 9 5 = f1 := (field_of_low (by decide)).trans ((high_part 9 5 (by decide)).trans ((high_part 7 5 (by decide)).trans ((high_part 5 5 (by decide)).trans ((high_part 2 5 (by decide)).trans ((low_part 0 5 (by decide)).trans (whole_part))))))
  have h3 : (BitVec.extractLsb' 0 19 (o ++ f0 ++ f1 ++ 0#2 ++ f3 ++ f4 ++ f5)).extractLsb' 4 3 = f3 := (field_of_low (by decide)).trans ((high_part 4 3 (by decide)).trans ((high_part 2 3 (by decide)).trans ((low_part 0 3 (by decide)).trans (whole_part))))
  have h4 : (BitVec.extractLsb' 0 19 (o ++ f0 ++ f1 ++ 0#2 ++ f3 ++ f4 ++ f5)).extractLsb' 2 2 = f4 := (field_of_low (by decide)).trans ((high_part 2 2 (by decide)).trans ((low_part 0 2 (by decide)).trans (whole_part)))
  have h5 : (BitVec.extractLsb' 0 19 (o ++ f0 ++ f1 ++ 0#2 ++ f3 ++ f4 ++ f5)).extractLsb' 0 2 = f5 := (field_of_low (by decide)).trans ((low_part 0 2 (by decide)).trans (whole_part))
  have h2 : (BitVec.extractLsb' 0 19 (o ++ f0 ++ f1 ++ 0#2 ++ f3 ++ f4 ++ f5)).extractLsb' 7 2 = 0#2 := (field_of_low (by decide)).trans ((high_part 7 2 (by decide)).trans ((high_part 5 2 (by decide)).trans ((high_part 3 2 (by decide)).trans ((low_part 0 2 (by decide)).trans (whole_part)))))
  exact ⟨ho, h0, h1, h3, h4, h5, (mask_field 7 2 _ h2)⟩

theorem layout_5_5_z3_2_o4 {w : BitVec 27} (o : BitVec 8) (f0 : BitVec 5) (f1 : BitVec 5) (f3 : BitVec 2) (hw : o ++ f0 ++ f1 ++ 0#3 ++ f3 ++ 8#4 = w) :
    w.extractLsb' 19 8 = o ∧
      (w.extractLsb' 0 19).extractLsb' 14 5 = f0 ∧
      (w.extractLsb' 0 19).extractLsb' 9 5 = f1 ∧
      (w.extractLsb' 0 19).extractLsb' 4 2 = f3 ∧
      w.extractLsb' 0 19 &&& 0x001CF#19 = 0x00008#19 := by
  subst hw
  have ho : BitVec.extractLsb' 19 8 (o ++ f0 ++ f1 ++ 0#3 ++ f3 ++ 8#4) = o := (high_part 19 8 (by decide)).trans ((high_part 15 8 (by decide)).trans ((high_part 13 8 (by decide)).trans ((high_part 10 8 (by decide)).trans ((high_part 5 8 (by decide)).trans (whole_part)))))
  have h0 : (BitVec.extractLsb' 0 19 (o ++ f0 ++ f1 ++ 0#3 ++ f3 ++ 8#4)).extractLsb' 14 5 = f0 := (field_of_low (by decide)).trans ((high_part 14 5 (by decide)).trans ((high_part 10 5 (by decide)).trans ((high_part 8 5 (by decide)).trans ((high_part 5 5 (by decide)).trans ((low_part 0 5 (by decide)).trans (whole_part))))))
  have h1 : (BitVec.extractLsb' 0 19 (o ++ f0 ++ f1 ++ 0#3 ++ f3 ++ 8#4)).extractLsb' 9 5 = f1 := (field_of_low (by decide)).trans ((high_part 9 5 (by decide)).trans ((high_part 5 5 (by decide)).trans ((high_part 3 5 (by decide)).trans ((low_part 0 5 (by decide)).trans (whole_part)))))
  have h3 : (BitVec.extractLsb' 0 19 (o ++ f0 ++ f1 ++ 0#3 ++ f3 ++ 8#4)).extractLsb' 4 2 = f3 := (field_of_low (by decide)).trans ((high_part 4 2 (by decide)).trans ((low_part 0 2 (by decide)).trans (whole_part)))
  have h2 : (BitVec.extractLsb' 0 19 (o ++ f0 ++ f1 ++ 0#3 ++ f3 ++ 8#4)).extractLsb' 6 3 = 0#3 := (field_of_low (by decide)).trans ((high_part 6 3 (by decide)).trans ((high_part 2 3 (by decide)).trans ((low_part 0 3 (by decide)).trans (whole_part))))
  have h4 : (BitVec.extractLsb' 0 19 (o ++ f0 ++ f1 ++ 0#3 ++ f3 ++ 8#4)).extractLsb' 0 4 = 8#4 := (field_of_low (by decide)).trans ((low_part 0 4 (by decide)).trans (whole_part))
  exact ⟨ho, h0, h1, h3, (mask_or (mask_field 6 3 _ h2) (mask_field 0 4 _ h4))⟩

theorem layout_5_5_z4_1_2_2 {w : BitVec 27} (o : BitVec 8) (f0 : BitVec 5) (f1 : BitVec 5) (f3 : BitVec 1) (f4 : BitVec 2) (f5 : BitVec 2) (hw : o ++ f0 ++ f1 ++ 0#4 ++ f3 ++ f4 ++ f5 = w) :
    w.extractLsb' 19 8 = o ∧
      (w.extractLsb' 0 19).extractLsb' 14 5 = f0 ∧
      (w.extractLsb' 0 19).extractLsb' 9 5 = f1 ∧
      (w.extractLsb' 0 19).extractLsb' 4 1 = f3 ∧
      (w.extractLsb' 0 19).extractLsb' 2 2 = f4 ∧
      (w.extractLsb' 0 19).extractLsb' 0 2 = f5 ∧
      w.extractLsb' 0 19 &&& 0x001E0#19 = 0x00000#19 := by
  subst hw
  have ho : BitVec.extractLsb' 19 8 (o ++ f0 ++ f1 ++ 0#4 ++ f3 ++ f4 ++ f5) = o := (high_part 19 8 (by decide)).trans ((high_part 17 8 (by decide)).trans ((high_part 15 8 (by decide)).trans ((high_part 14 8 (by decide)).trans ((high_part 10 8 (by decide)).trans ((high_part 5 8 (by decide)).trans (whole_part))))))
  have h0 : (BitVec.extractLsb' 0 19 (o ++ f0 ++ f1 ++ 0#4 ++ f3 ++ f4 ++ f5)).extractLsb' 14 5 = f0 := (field_of_low (by decide)).trans ((high_part 14 5 (by decide)).trans ((high_part 12 5 (by decide)).trans ((high_part 10 5 (by decide)).trans ((high_part 9 5 (by decide)).trans ((high_part 5 5 (by decide)).trans ((low_part 0 5 (by decide)).trans (whole_part)))))))
  have h1 : (BitVec.extractLsb' 0 19 (o ++ f0 ++ f1 ++ 0#4 ++ f3 ++ f4 ++ f5)).extractLsb' 9 5 = f1 := (field_of_low (by decide)).trans ((high_part 9 5 (by decide)).trans ((high_part 7 5 (by decide)).trans ((high_part 5 5 (by decide)).trans ((high_part 4 5 (by decide)).trans ((low_part 0 5 (by decide)).trans (whole_part))))))
  have h3 : (BitVec.extractLsb' 0 19 (o ++ f0 ++ f1 ++ 0#4 ++ f3 ++ f4 ++ f5)).extractLsb' 4 1 = f3 := (field_of_low (by decide)).trans ((high_part 4 1 (by decide)).trans ((high_part 2 1 (by decide)).trans ((low_part 0 1 (by decide)).trans (whole_part))))
  have h4 : (BitVec.extractLsb' 0 19 (o ++ f0 ++ f1 ++ 0#4 ++ f3 ++ f4 ++ f5)).extractLsb' 2 2 = f4 := (field_of_low (by decide)).trans ((high_part 2 2 (by decide)).trans ((low_part 0 2 (by decide)).trans (whole_part)))
  have h5 : (BitVec.extractLsb' 0 19 (o ++ f0 ++ f1 ++ 0#4 ++ f3 ++ f4 ++ f5)).extractLsb' 0 2 = f5 := (field_of_low (by decide)).trans ((low_part 0 2 (by decide)).trans (whole_part))
  have h2 : (BitVec.extractLsb' 0 19 (o ++ f0 ++ f1 ++ 0#4 ++ f3 ++ f4 ++ f5)).extractLsb' 5 4 = 0#4 := (field_of_low (by decide)).trans ((high_part 5 4 (by decide)).trans ((high_part 3 4 (by decide)).trans ((high_part 1 4 (by decide)).trans ((low_part 0 4 (by decide)).trans (whole_part)))))
  exact ⟨ho, h0, h1, h3, h4, h5, (mask_field 5 4 _ h2)⟩

theorem layout_7_2_10 {w : BitVec 27} (o : BitVec 8) (f0 : BitVec 7) (f1 : BitVec 2) (f2 : BitVec 10) (hw : o ++ f0 ++ f1 ++ f2 = w) :
    w.extractLsb' 19 8 = o ∧
      (w.extractLsb' 0 19).extractLsb' 12 7 = f0 ∧
      (w.extractLsb' 0 19).extractLsb' 10 2 = f1 ∧
      (w.extractLsb' 0 19).extractLsb' 0 10 = f2 := by
  subst hw
  have ho : BitVec.extractLsb' 19 8 (o ++ f0 ++ f1 ++ f2) = o := (high_part 19 8 (by decide)).trans ((high_part 9 8 (by decide)).trans ((high_part 7 8 (by decide)).trans (whole_part)))
  have h0 : (BitVec.extractLsb' 0 19 (o ++ f0 ++ f1 ++ f2)).extractLsb' 12 7 = f0 := (field_of_low (by decide)).trans ((high_part 12 7 (by decide)).trans ((high_part 2 7 (by decide)).trans ((low_part 0 7 (by decide)).trans (whole_part))))
  have h1 : (BitVec.extractLsb' 0 19 (o ++ f0 ++ f1 ++ f2)).extractLsb' 10 2 = f1 := (field_of_low (by decide)).trans ((high_part 10 2 (by decide)).trans ((low_part 0 2 (by decide)).trans (whole_part)))
  have h2 : (BitVec.extractLsb' 0 19 (o ++ f0 ++ f1 ++ f2)).extractLsb' 0 10 = f2 := (field_of_low (by decide)).trans ((low_part 0 10 (by decide)).trans (whole_part))
  exact ⟨ho, h0, h1, h2⟩

theorem layout_7_2_7_2_1 {w : BitVec 27} (o : BitVec 8) (f0 : BitVec 7) (f1 : BitVec 2) (f2 : BitVec 7) (f3 : BitVec 2) (f4 : BitVec 1) (hw : o ++ f0 ++ f1 ++ f2 ++ f3 ++ f4 = w) :
    w.extractLsb' 19 8 = o ∧
      (w.extractLsb' 0 19).extractLsb' 12 7 = f0 ∧
      (w.extractLsb' 0 19).extractLsb' 10 2 = f1 ∧
      (w.extractLsb' 0 19).extractLsb' 3 7 = f2 ∧
      (w.extractLsb' 0 19).extractLsb' 1 2 = f3 ∧
      (w.extractLsb' 0 19).extractLsb' 0 1 = f4 := by
  subst hw
  have ho : BitVec.extractLsb' 19 8 (o ++ f0 ++ f1 ++ f2 ++ f3 ++ f4) = o := (high_part 19 8 (by decide)).trans ((high_part 18 8 (by decide)).trans ((high_part 16 8 (by decide)).trans ((high_part 9 8 (by decide)).trans ((high_part 7 8 (by decide)).trans (whole_part)))))
  have h0 : (BitVec.extractLsb' 0 19 (o ++ f0 ++ f1 ++ f2 ++ f3 ++ f4)).extractLsb' 12 7 = f0 := (field_of_low (by decide)).trans ((high_part 12 7 (by decide)).trans ((high_part 11 7 (by decide)).trans ((high_part 9 7 (by decide)).trans ((high_part 2 7 (by decide)).trans ((low_part 0 7 (by decide)).trans (whole_part))))))
  have h1 : (BitVec.extractLsb' 0 19 (o ++ f0 ++ f1 ++ f2 ++ f3 ++ f4)).extractLsb' 10 2 = f1 := (field_of_low (by decide)).trans ((high_part 10 2 (by decide)).trans ((high_part 9 2 (by decide)).trans ((high_part 7 2 (by decide)).trans ((low_part 0 2 (by decide)).trans (whole_part)))))
  have h2 : (BitVec.extractLsb' 0 19 (o ++ f0 ++ f1 ++ f2 ++ f3 ++ f4)).extractLsb' 3 7 = f2 := (field_of_low (by decide)).trans ((high_part 3 7 (by decide)).trans ((high_part 2 7 (by decide)).trans ((low_part 0 7 (by decide)).trans (whole_part))))
  have h3 : (BitVec.extractLsb' 0 19 (o ++ f0 ++ f1 ++ f2 ++ f3 ++ f4)).extractLsb' 1 2 = f3 := (field_of_low (by decide)).trans ((high_part 1 2 (by decide)).trans ((low_part 0 2 (by decide)).trans (whole_part)))
  have h4 : (BitVec.extractLsb' 0 19 (o ++ f0 ++ f1 ++ f2 ++ f3 ++ f4)).extractLsb' 0 1 = f4 := (field_of_low (by decide)).trans ((low_part 0 1 (by decide)).trans (whole_part))
  exact ⟨ho, h0, h1, h2, h3, h4⟩

theorem layout_7_2_7_2_z1 {w : BitVec 27} (o : BitVec 8) (f0 : BitVec 7) (f1 : BitVec 2) (f2 : BitVec 7) (f3 : BitVec 2) (hw : o ++ f0 ++ f1 ++ f2 ++ f3 ++ 0#1 = w) :
    w.extractLsb' 19 8 = o ∧
      (w.extractLsb' 0 19).extractLsb' 12 7 = f0 ∧
      (w.extractLsb' 0 19).extractLsb' 10 2 = f1 ∧
      (w.extractLsb' 0 19).extractLsb' 3 7 = f2 ∧
      (w.extractLsb' 0 19).extractLsb' 1 2 = f3 ∧
      w.extractLsb' 0 19 &&& 0x00001#19 = 0x00000#19 := by
  subst hw
  have ho : BitVec.extractLsb' 19 8 (o ++ f0 ++ f1 ++ f2 ++ f3 ++ 0#1) = o := (high_part 19 8 (by decide)).trans ((high_part 18 8 (by decide)).trans ((high_part 16 8 (by decide)).trans ((high_part 9 8 (by decide)).trans ((high_part 7 8 (by decide)).trans (whole_part)))))
  have h0 : (BitVec.extractLsb' 0 19 (o ++ f0 ++ f1 ++ f2 ++ f3 ++ 0#1)).extractLsb' 12 7 = f0 := (field_of_low (by decide)).trans ((high_part 12 7 (by decide)).trans ((high_part 11 7 (by decide)).trans ((high_part 9 7 (by decide)).trans ((high_part 2 7 (by decide)).trans ((low_part 0 7 (by decide)).trans (whole_part))))))
  have h1 : (BitVec.extractLsb' 0 19 (o ++ f0 ++ f1 ++ f2 ++ f3 ++ 0#1)).extractLsb' 10 2 = f1 := (field_of_low (by decide)).trans ((high_part 10 2 (by decide)).trans ((high_part 9 2 (by decide)).trans ((high_part 7 2 (by decide)).trans ((low_part 0 2 (by decide)).trans (whole_part)))))
  have h2 : (BitVec.extractLsb' 0 19 (o ++ f0 ++ f1 ++ f2 ++ f3 ++ 0#1)).extractLsb' 3 7 = f2 := (field_of_low (by decide)).trans ((high_part 3 7 (by decide)).trans ((high_part 2 7 (by decide)).trans ((low_part 0 7 (by decide)).trans (whole_part))))
  have h3 : (BitVec.extractLsb' 0 19 (o ++ f0 ++ f1 ++ f2 ++ f3 ++ 0#1)).extractLsb' 1 2 = f3 := (field_of_low (by decide)).trans ((high_part 1 2 (by decide)).trans ((low_part 0 2 (by decide)).trans (whole_part)))
  have h4 : (BitVec.extractLsb' 0 19 (o ++ f0 ++ f1 ++ f2 ++ f3 ++ 0#1)).extractLsb' 0 1 = 0#1 := (field_of_low (by decide)).trans ((low_part 0 1 (by decide)).trans (whole_part))
  exact ⟨ho, h0, h1, h2, h3, (mask_field 0 1 _ h4)⟩

theorem layout_z11_2_6 {w : BitVec 27} (o : BitVec 8) (f1 : BitVec 2) (f2 : BitVec 6) (hw : o ++ 0#11 ++ f1 ++ f2 = w) :
    w.extractLsb' 19 8 = o ∧
      (w.extractLsb' 0 19).extractLsb' 6 2 = f1 ∧
      (w.extractLsb' 0 19).extractLsb' 0 6 = f2 ∧
      w.extractLsb' 0 19 &&& 0x7FF00#19 = 0x00000#19 := by
  subst hw
  have ho : BitVec.extractLsb' 19 8 (o ++ 0#11 ++ f1 ++ f2) = o := (high_part 19 8 (by decide)).trans ((high_part 13 8 (by decide)).trans ((high_part 11 8 (by decide)).trans (whole_part)))
  have h1 : (BitVec.extractLsb' 0 19 (o ++ 0#11 ++ f1 ++ f2)).extractLsb' 6 2 = f1 := (field_of_low (by decide)).trans ((high_part 6 2 (by decide)).trans ((low_part 0 2 (by decide)).trans (whole_part)))
  have h2 : (BitVec.extractLsb' 0 19 (o ++ 0#11 ++ f1 ++ f2)).extractLsb' 0 6 = f2 := (field_of_low (by decide)).trans ((low_part 0 6 (by decide)).trans (whole_part))
  have h0 : (BitVec.extractLsb' 0 19 (o ++ 0#11 ++ f1 ++ f2)).extractLsb' 8 11 = 0#11 := (field_of_low (by decide)).trans ((high_part 8 11 (by decide)).trans ((high_part 2 11 (by decide)).trans ((low_part 0 11 (by decide)).trans (whole_part))))
  exact ⟨ho, h1, h2, (mask_field 8 11 _ h0)⟩

theorem layout_z9_10 {w : BitVec 27} (o : BitVec 8) (f1 : BitVec 10) (hw : o ++ 0#9 ++ f1 = w) :
    w.extractLsb' 19 8 = o ∧
      (w.extractLsb' 0 19).extractLsb' 0 10 = f1 ∧
      w.extractLsb' 0 19 &&& 0x7FC00#19 = 0x00000#19 := by
  subst hw
  have ho : BitVec.extractLsb' 19 8 (o ++ 0#9 ++ f1) = o := (high_part 19 8 (by decide)).trans ((high_part 9 8 (by decide)).trans (whole_part))
  have h1 : (BitVec.extractLsb' 0 19 (o ++ 0#9 ++ f1)).extractLsb' 0 10 = f1 := (field_of_low (by decide)).trans ((low_part 0 10 (by decide)).trans (whole_part))
  have h0 : (BitVec.extractLsb' 0 19 (o ++ 0#9 ++ f1)).extractLsb' 10 9 = 0#9 := (field_of_low (by decide)).trans ((high_part 10 9 (by decide)).trans ((low_part 0 9 (by decide)).trans (whole_part)))
  exact ⟨ho, h1, (mask_field 10 9 _ h0)⟩

theorem layout_5_5_5_z2_2 {w : BitVec 27} (o : BitVec 8) (f0 : BitVec 5) (f1 : BitVec 5) (f2 : BitVec 5) (f4 : BitVec 2) (hw : o ++ f0 ++ f1 ++ f2 ++ 0#2 ++ f4 = w) :
    w.extractLsb' 19 8 = o ∧
      (w.extractLsb' 0 19).extractLsb' 14 5 = f0 ∧
      (w.extractLsb' 0 19).extractLsb' 9 5 = f1 ∧
      (w.extractLsb' 0 19).extractLsb' 4 5 = f2 ∧
      (w.extractLsb' 0 19).extractLsb' 0 2 = f4 ∧
      w.extractLsb' 0 19 &&& 0x0000C#19 = 0x00000#19 := by
  subst hw
  have ho : BitVec.extractLsb' 19 8 (o ++ f0 ++ f1 ++ f2 ++ 0#2 ++ f4) = o := (high_part 19 8 (by decide)).trans ((high_part 17 8 (by decide)).trans ((high_part 15 8 (by decide)).trans ((high_part 10 8 (by decide)).trans ((high_part 5 8 (by decide)).trans (whole_part)))))
  have h0 : (BitVec.extractLsb' 0 19 (o ++ f0 ++ f1 ++ f2 ++ 0#2 ++ f4)).extractLsb' 14 5 = f0 := (field_of_low (by decide)).trans ((high_part 14 5 (by decide)).trans ((high_part 12 5 (by decide)).trans ((high_part 10 5 (by decide)).trans ((high_part 5 5 (by decide)).trans ((low_part 0 5 (by decide)).trans (whole_part))))))
  have h1 : (BitVec.extractLsb' 0 19 (o ++ f0 ++ f1 ++ f2 ++ 0#2 ++ f4)).extractLsb' 9 5 = f1 := (field_of_low (by decide)).trans ((high_part 9 5 (by decide)).trans ((high_part 7 5 (by decide)).trans ((high_part 5 5 (by decide)).trans ((low_part 0 5 (by decide)).trans (whole_part)))))
  have h2 : (BitVec.extractLsb' 0 19 (o ++ f0 ++ f1 ++ f2 ++ 0#2 ++ f4)).extractLsb' 4 5 = f2 := (field_of_low (by decide)).trans ((high_part 4 5 (by decide)).trans ((high_part 2 5 (by decide)).trans ((low_part 0 5 (by decide)).trans (whole_part))))
  have h4 : (BitVec.extractLsb' 0 19 (o ++ f0 ++ f1 ++ f2 ++ 0#2 ++ f4)).extractLsb' 0 2 = f4 := (field_of_low (by decide)).trans ((low_part 0 2 (by decide)).trans (whole_part))
  have h3 : (BitVec.extractLsb' 0 19 (o ++ f0 ++ f1 ++ f2 ++ 0#2 ++ f4)).extractLsb' 2 2 = 0#2 := (field_of_low (by decide)).trans ((high_part 2 2 (by decide)).trans ((low_part 0 2 (by decide)).trans (whole_part)))
  exact ⟨ho, h0, h1, h2, h4, (mask_field 2 2 _ h3)⟩

/-! ### Every instruction -/

/-- The operand bits that an instruction of a slot or an action is encoded in are read back as that instruction. -/
def RoundTrip.Statement (i : Instr) : Prop :=
  i.isEvent = false →
    decodeOperands ((encodeBody i).extractLsb' 19 8) ((encodeBody i).extractLsb' 0 19) = some i

theorem RoundTrip.nop : RoundTrip.Statement .nop := by
  intro _
  generalize hw : encodeBody .nop = word
  obtain ⟨ho, hm⟩ := layout_z19 0x00#8 hw
  rw [ho]
  generalize word.extractLsb' 0 19 = bits at *
  exact if_pos hm
theorem RoundTrip.add (d : BitVec 5) (a : BitVec 5) (b : BitVec 5) : RoundTrip.Statement (.add d a b) := by
  intro _
  generalize hw : encodeBody (.add d a b) = word
  obtain ⟨ho, h0, h1, h2, hm⟩ := layout_5_5_5_z4 0x01#8 d a b hw
  rw [ho]
  generalize word.extractLsb' 0 19 = bits at *
  exact (if_pos hm).trans (by rw [h0, h1, h2])
theorem RoundTrip.addi (d : BitVec 5) (a : BitVec 5) (im : BitVec 9) : RoundTrip.Statement (.addi d a im) := by
  intro _
  generalize hw : encodeBody (.addi d a im) = word
  obtain ⟨ho, h0, h1, h2⟩ := layout_5_5_9 0x02#8 d a im hw
  rw [ho]
  generalize word.extractLsb' 0 19 = bits at *
  exact (show _ = some (Instr.addi (bits.extractLsb' 14 5) (bits.extractLsb' 9 5) (bits.extractLsb' 0 9)) from rfl).trans (by rw [h0, h1, h2])
theorem RoundTrip.sub (d : BitVec 5) (a : BitVec 5) (b : BitVec 5) : RoundTrip.Statement (.sub d a b) := by
  intro _
  generalize hw : encodeBody (.sub d a b) = word
  obtain ⟨ho, h0, h1, h2, hm⟩ := layout_5_5_5_z4 0x03#8 d a b hw
  rw [ho]
  generalize word.extractLsb' 0 19 = bits at *
  exact (if_pos hm).trans (by rw [h0, h1, h2])
theorem RoundTrip.mul (d : BitVec 5) (a : BitVec 5) (b : BitVec 5) : RoundTrip.Statement (.mul d a b) := by
  intro _
  generalize hw : encodeBody (.mul d a b) = word
  obtain ⟨ho, h0, h1, h2, hm⟩ := layout_5_5_5_z4 0x04#8 d a b hw
  rw [ho]
  generalize word.extractLsb' 0 19 = bits at *
  exact (if_pos hm).trans (by rw [h0, h1, h2])
theorem RoundTrip.mulh (d : BitVec 5) (a : BitVec 5) (b : BitVec 5) : RoundTrip.Statement (.mulh d a b) := by
  intro _
  generalize hw : encodeBody (.mulh d a b) = word
  obtain ⟨ho, h0, h1, h2, hm⟩ := layout_5_5_5_z4 0x05#8 d a b hw
  rw [ho]
  generalize word.extractLsb' 0 19 = bits at *
  exact (if_pos hm).trans (by rw [h0, h1, h2])
theorem RoundTrip.mulhz (d : BitVec 5) (a : BitVec 5) (b : BitVec 5) : RoundTrip.Statement (.mulhz d a b) := by
  intro _
  generalize hw : encodeBody (.mulhz d a b) = word
  obtain ⟨ho, h0, h1, h2, hm⟩ := layout_5_5_5_z4 0x06#8 d a b hw
  rw [ho]
  generalize word.extractLsb' 0 19 = bits at *
  exact (if_pos hm).trans (by rw [h0, h1, h2])
theorem RoundTrip.and (d : BitVec 5) (a : BitVec 5) (b : BitVec 5) : RoundTrip.Statement (.and d a b) := by
  intro _
  generalize hw : encodeBody (.and d a b) = word
  obtain ⟨ho, h0, h1, h2, hm⟩ := layout_5_5_5_z4 0x07#8 d a b hw
  rw [ho]
  generalize word.extractLsb' 0 19 = bits at *
  exact (if_pos hm).trans (by rw [h0, h1, h2])
theorem RoundTrip.andi (d : BitVec 5) (a : BitVec 5) (im : BitVec 9) : RoundTrip.Statement (.andi d a im) := by
  intro _
  generalize hw : encodeBody (.andi d a im) = word
  obtain ⟨ho, h0, h1, h2⟩ := layout_5_5_9 0x08#8 d a im hw
  rw [ho]
  generalize word.extractLsb' 0 19 = bits at *
  exact (show _ = some (Instr.andi (bits.extractLsb' 14 5) (bits.extractLsb' 9 5) (bits.extractLsb' 0 9)) from rfl).trans (by rw [h0, h1, h2])
theorem RoundTrip.or (d : BitVec 5) (a : BitVec 5) (b : BitVec 5) : RoundTrip.Statement (.or d a b) := by
  intro _
  generalize hw : encodeBody (.or d a b) = word
  obtain ⟨ho, h0, h1, h2, hm⟩ := layout_5_5_5_z4 0x09#8 d a b hw
  rw [ho]
  generalize word.extractLsb' 0 19 = bits at *
  exact (if_pos hm).trans (by rw [h0, h1, h2])
theorem RoundTrip.ori (d : BitVec 5) (a : BitVec 5) (im : BitVec 9) : RoundTrip.Statement (.ori d a im) := by
  intro _
  generalize hw : encodeBody (.ori d a im) = word
  obtain ⟨ho, h0, h1, h2⟩ := layout_5_5_9 0x0A#8 d a im hw
  rw [ho]
  generalize word.extractLsb' 0 19 = bits at *
  exact (show _ = some (Instr.ori (bits.extractLsb' 14 5) (bits.extractLsb' 9 5) (bits.extractLsb' 0 9)) from rfl).trans (by rw [h0, h1, h2])
theorem RoundTrip.xor (d : BitVec 5) (a : BitVec 5) (b : BitVec 5) : RoundTrip.Statement (.xor d a b) := by
  intro _
  generalize hw : encodeBody (.xor d a b) = word
  obtain ⟨ho, h0, h1, h2, hm⟩ := layout_5_5_5_z4 0x0B#8 d a b hw
  rw [ho]
  generalize word.extractLsb' 0 19 = bits at *
  exact (if_pos hm).trans (by rw [h0, h1, h2])
theorem RoundTrip.xori (d : BitVec 5) (a : BitVec 5) (im : BitVec 9) : RoundTrip.Statement (.xori d a im) := by
  intro _
  generalize hw : encodeBody (.xori d a im) = word
  obtain ⟨ho, h0, h1, h2⟩ := layout_5_5_9 0x0C#8 d a im hw
  rw [ho]
  generalize word.extractLsb' 0 19 = bits at *
  exact (show _ = some (Instr.xori (bits.extractLsb' 14 5) (bits.extractLsb' 9 5) (bits.extractLsb' 0 9)) from rfl).trans (by rw [h0, h1, h2])
theorem RoundTrip.shl (d : BitVec 5) (a : BitVec 5) (b : BitVec 5) : RoundTrip.Statement (.shl d a b) := by
  intro _
  generalize hw : encodeBody (.shl d a b) = word
  obtain ⟨ho, h0, h1, h2, hm⟩ := layout_5_5_5_z4 0x0D#8 d a b hw
  rw [ho]
  generalize word.extractLsb' 0 19 = bits at *
  exact (if_pos hm).trans (by rw [h0, h1, h2])
theorem RoundTrip.shli (d : BitVec 5) (a : BitVec 5) (im : BitVec 8) : RoundTrip.Statement (.shli d a im) := by
  intro _
  generalize hw : encodeBody (.shli d a im) = word
  obtain ⟨ho, h0, h1, h2, hm⟩ := layout_5_5_z1_8 0x0E#8 d a im hw
  rw [ho]
  generalize word.extractLsb' 0 19 = bits at *
  exact (if_pos hm).trans (by rw [h0, h1, h2])
theorem RoundTrip.shr (d : BitVec 5) (a : BitVec 5) (b : BitVec 5) : RoundTrip.Statement (.shr d a b) := by
  intro _
  generalize hw : encodeBody (.shr d a b) = word
  obtain ⟨ho, h0, h1, h2, hm⟩ := layout_5_5_5_z4 0x0F#8 d a b hw
  rw [ho]
  generalize word.extractLsb' 0 19 = bits at *
  exact (if_pos hm).trans (by rw [h0, h1, h2])
theorem RoundTrip.shri (d : BitVec 5) (a : BitVec 5) (im : BitVec 8) : RoundTrip.Statement (.shri d a im) := by
  intro _
  generalize hw : encodeBody (.shri d a im) = word
  obtain ⟨ho, h0, h1, h2, hm⟩ := layout_5_5_z1_8 0x10#8 d a im hw
  rw [ho]
  generalize word.extractLsb' 0 19 = bits at *
  exact (if_pos hm).trans (by rw [h0, h1, h2])
theorem RoundTrip.sra (d : BitVec 5) (a : BitVec 5) (b : BitVec 5) : RoundTrip.Statement (.sra d a b) := by
  intro _
  generalize hw : encodeBody (.sra d a b) = word
  obtain ⟨ho, h0, h1, h2, hm⟩ := layout_5_5_5_z4 0x11#8 d a b hw
  rw [ho]
  generalize word.extractLsb' 0 19 = bits at *
  exact (if_pos hm).trans (by rw [h0, h1, h2])
theorem RoundTrip.srai (d : BitVec 5) (a : BitVec 5) (im : BitVec 8) : RoundTrip.Statement (.srai d a im) := by
  intro _
  generalize hw : encodeBody (.srai d a im) = word
  obtain ⟨ho, h0, h1, h2, hm⟩ := layout_5_5_z1_8 0x12#8 d a im hw
  rw [ho]
  generalize word.extractLsb' 0 19 = bits at *
  exact (if_pos hm).trans (by rw [h0, h1, h2])
theorem RoundTrip.rot (d : BitVec 5) (a : BitVec 5) (b : BitVec 5) : RoundTrip.Statement (.rot d a b) := by
  intro _
  generalize hw : encodeBody (.rot d a b) = word
  obtain ⟨ho, h0, h1, h2, hm⟩ := layout_5_5_5_z4 0x13#8 d a b hw
  rw [ho]
  generalize word.extractLsb' 0 19 = bits at *
  exact (if_pos hm).trans (by rw [h0, h1, h2])
theorem RoundTrip.roti (d : BitVec 5) (a : BitVec 5) (im : BitVec 8) : RoundTrip.Statement (.roti d a im) := by
  intro _
  generalize hw : encodeBody (.roti d a im) = word
  obtain ⟨ho, h0, h1, h2, hm⟩ := layout_5_5_z1_8 0x14#8 d a im hw
  rw [ho]
  generalize word.extractLsb' 0 19 = bits at *
  exact (if_pos hm).trans (by rw [h0, h1, h2])
theorem RoundTrip.min (d : BitVec 5) (a : BitVec 5) (b : BitVec 5) : RoundTrip.Statement (.min d a b) := by
  intro _
  generalize hw : encodeBody (.min d a b) = word
  obtain ⟨ho, h0, h1, h2, hm⟩ := layout_5_5_5_z4 0x15#8 d a b hw
  rw [ho]
  generalize word.extractLsb' 0 19 = bits at *
  exact (if_pos hm).trans (by rw [h0, h1, h2])
theorem RoundTrip.max (d : BitVec 5) (a : BitVec 5) (b : BitVec 5) : RoundTrip.Statement (.max d a b) := by
  intro _
  generalize hw : encodeBody (.max d a b) = word
  obtain ⟨ho, h0, h1, h2, hm⟩ := layout_5_5_5_z4 0x16#8 d a b hw
  rw [ho]
  generalize word.extractLsb' 0 19 = bits at *
  exact (if_pos hm).trans (by rw [h0, h1, h2])
theorem RoundTrip.minz (d : BitVec 5) (a : BitVec 5) (b : BitVec 5) : RoundTrip.Statement (.minz d a b) := by
  intro _
  generalize hw : encodeBody (.minz d a b) = word
  obtain ⟨ho, h0, h1, h2, hm⟩ := layout_5_5_5_z4 0x17#8 d a b hw
  rw [ho]
  generalize word.extractLsb' 0 19 = bits at *
  exact (if_pos hm).trans (by rw [h0, h1, h2])
theorem RoundTrip.maxz (d : BitVec 5) (a : BitVec 5) (b : BitVec 5) : RoundTrip.Statement (.maxz d a b) := by
  intro _
  generalize hw : encodeBody (.maxz d a b) = word
  obtain ⟨ho, h0, h1, h2, hm⟩ := layout_5_5_5_z4 0x18#8 d a b hw
  rw [ho]
  generalize word.extractLsb' 0 19 = bits at *
  exact (if_pos hm).trans (by rw [h0, h1, h2])
theorem RoundTrip.abs (d : BitVec 5) (a : BitVec 5) : RoundTrip.Statement (.abs d a) := by
  intro _
  generalize hw : encodeBody (.abs d a) = word
  obtain ⟨ho, h0, h1, hm⟩ := layout_5_5_z9 0x19#8 d a hw
  rw [ho]
  generalize word.extractLsb' 0 19 = bits at *
  exact (if_pos hm).trans (by rw [h0, h1])
theorem RoundTrip.clz (d : BitVec 5) (a : BitVec 5) : RoundTrip.Statement (.clz d a) := by
  intro _
  generalize hw : encodeBody (.clz d a) = word
  obtain ⟨ho, h0, h1, hm⟩ := layout_5_5_z9 0x1A#8 d a hw
  rw [ho]
  generalize word.extractLsb' 0 19 = bits at *
  exact (if_pos hm).trans (by rw [h0, h1])
theorem RoundTrip.popc (d : BitVec 5) (a : BitVec 5) : RoundTrip.Statement (.popc d a) := by
  intro _
  generalize hw : encodeBody (.popc d a) = word
  obtain ⟨ho, h0, h1, hm⟩ := layout_5_5_z9 0x1B#8 d a hw
  rw [ho]
  generalize word.extractLsb' 0 19 = bits at *
  exact (if_pos hm).trans (by rw [h0, h1])
theorem RoundTrip.sxb (d : BitVec 5) (a : BitVec 5) : RoundTrip.Statement (.sxb d a) := by
  intro _
  generalize hw : encodeBody (.sxb d a) = word
  obtain ⟨ho, h0, h1, hm⟩ := layout_5_5_z9 0x1C#8 d a hw
  rw [ho]
  generalize word.extractLsb' 0 19 = bits at *
  exact (if_pos hm).trans (by rw [h0, h1])
theorem RoundTrip.sxh (d : BitVec 5) (a : BitVec 5) : RoundTrip.Statement (.sxh d a) := by
  intro _
  generalize hw : encodeBody (.sxh d a) = word
  obtain ⟨ho, h0, h1, hm⟩ := layout_5_5_z9 0x1D#8 d a hw
  rw [ho]
  generalize word.extractLsb' 0 19 = bits at *
  exact (if_pos hm).trans (by rw [h0, h1])
theorem RoundTrip.zxb (d : BitVec 5) (a : BitVec 5) : RoundTrip.Statement (.zxb d a) := by
  intro _
  generalize hw : encodeBody (.zxb d a) = word
  obtain ⟨ho, h0, h1, hm⟩ := layout_5_5_z9 0x1E#8 d a hw
  rw [ho]
  generalize word.extractLsb' 0 19 = bits at *
  exact (if_pos hm).trans (by rw [h0, h1])
theorem RoundTrip.zxh (d : BitVec 5) (a : BitVec 5) : RoundTrip.Statement (.zxh d a) := by
  intro _
  generalize hw : encodeBody (.zxh d a) = word
  obtain ⟨ho, h0, h1, hm⟩ := layout_5_5_z9 0x1F#8 d a hw
  rw [ho]
  generalize word.extractLsb' 0 19 = bits at *
  exact (if_pos hm).trans (by rw [h0, h1])
theorem RoundTrip.setl (d : BitVec 5) (im : BitVec 14) : RoundTrip.Statement (.setl d im) := by
  intro _
  generalize hw : encodeBody (.setl d im) = word
  obtain ⟨ho, h0, h1⟩ := layout_5_14 0x20#8 d im hw
  rw [ho]
  generalize word.extractLsb' 0 19 = bits at *
  exact (show _ = some (Instr.setl (bits.extractLsb' 14 5) (bits.extractLsb' 0 14)) from rfl).trans (by rw [h0, h1])
theorem RoundTrip.seth (d : BitVec 5) (im : BitVec 14) : RoundTrip.Statement (.seth d im) := by
  intro _
  generalize hw : encodeBody (.seth d im) = word
  obtain ⟨ho, h0, h1⟩ := layout_5_14 0x21#8 d im hw
  rw [ho]
  generalize word.extractLsb' 0 19 = bits at *
  exact (show _ = some (Instr.seth (bits.extractLsb' 14 5) (bits.extractLsb' 0 14)) from rfl).trans (by rw [h0, h1])
theorem RoundTrip.mov (d : BitVec 5) (a : BitVec 5) (f : BitVec 4) : RoundTrip.Statement (.mov d a f) := by
  intro _
  generalize hw : encodeBody (.mov d a f) = word
  obtain ⟨ho, h0, h1, h2, hm⟩ := layout_5_5_z5_4 0x22#8 d a f hw
  rw [ho]
  generalize word.extractLsb' 0 19 = bits at *
  exact (if_pos hm).trans (by rw [h0, h1, h2])
theorem RoundTrip.movs (d : BitVec 5) (a : BitVec 5) : RoundTrip.Statement (.movs d a) := by
  intro _
  generalize hw : encodeBody (.movs d a) = word
  obtain ⟨ho, h0, h1, hm⟩ := layout_5_5_z9 0x23#8 d a hw
  rw [ho]
  generalize word.extractLsb' 0 19 = bits at *
  exact (if_pos hm).trans (by rw [h0, h1])
theorem RoundTrip.movt (d : BitVec 5) (a : BitVec 5) : RoundTrip.Statement (.movt d a) := by
  intro _
  generalize hw : encodeBody (.movt d a) = word
  obtain ⟨ho, h0, h1, hm⟩ := layout_5_5_z9 0x24#8 d a hw
  rw [ho]
  generalize word.extractLsb' 0 19 = bits at *
  exact (if_pos hm).trans (by rw [h0, h1])
theorem RoundTrip.cmp (d : BitVec 5) (a : BitVec 5) (b : BitVec 5) (c : BitVec 1) (n : BitVec 3) : RoundTrip.Statement (.cmp d a b c n) := by
  intro _
  generalize hw : encodeBody (.cmp d a b c n) = word
  obtain ⟨ho, h0, h1, h2, h3, h4⟩ := layout_5_5_5_1_3 0x25#8 d a b c n hw
  rw [ho]
  generalize word.extractLsb' 0 19 = bits at *
  exact (show _ = some (Instr.cmp (bits.extractLsb' 14 5) (bits.extractLsb' 9 5) (bits.extractLsb' 4 5) (bits.extractLsb' 3 1) (bits.extractLsb' 0 3)) from rfl).trans (by rw [h0, h1, h2, h3, h4])
theorem RoundTrip.cmpi (d : BitVec 5) (a : BitVec 5) (n : BitVec 3) (im : BitVec 6) : RoundTrip.Statement (.cmpi d a n im) := by
  intro _
  generalize hw : encodeBody (.cmpi d a n im) = word
  obtain ⟨ho, h0, h1, h2, h3⟩ := layout_5_5_3_6 0x26#8 d a n im hw
  rw [ho]
  generalize word.extractLsb' 0 19 = bits at *
  exact (show _ = some (Instr.cmpi (bits.extractLsb' 14 5) (bits.extractLsb' 9 5) (bits.extractLsb' 6 3) (bits.extractLsb' 0 6)) from rfl).trans (by rw [h0, h1, h2, h3])
theorem RoundTrip.cmpz (d : BitVec 5) (a : BitVec 5) (b : BitVec 5) (c : BitVec 1) (n : BitVec 3) : RoundTrip.Statement (.cmpz d a b c n) := by
  intro _
  generalize hw : encodeBody (.cmpz d a b c n) = word
  obtain ⟨ho, h0, h1, h2, h3, h4⟩ := layout_5_5_5_1_3 0x27#8 d a b c n hw
  rw [ho]
  generalize word.extractLsb' 0 19 = bits at *
  exact (show _ = some (Instr.cmpz (bits.extractLsb' 14 5) (bits.extractLsb' 9 5) (bits.extractLsb' 4 5) (bits.extractLsb' 3 1) (bits.extractLsb' 0 3)) from rfl).trans (by rw [h0, h1, h2, h3, h4])
theorem RoundTrip.pand (d : BitVec 5) (a : BitVec 5) (b : BitVec 5) (t : BitVec 1) (u : BitVec 1) (v : BitVec 1) : RoundTrip.Statement (.pand d a b t u v) := by
  intro _
  generalize hw : encodeBody (.pand d a b t u v) = word
  obtain ⟨ho, h0, h1, h2, h3, h4, h5, hm⟩ := layout_5_5_5_z1_1_1_1 0x28#8 d a b t u v hw
  rw [ho]
  generalize word.extractLsb' 0 19 = bits at *
  exact (if_pos hm).trans (by rw [h0, h1, h2, h3, h4, h5])
theorem RoundTrip.por (d : BitVec 5) (a : BitVec 5) (b : BitVec 5) (t : BitVec 1) (u : BitVec 1) (v : BitVec 1) : RoundTrip.Statement (.por d a b t u v) := by
  intro _
  generalize hw : encodeBody (.por d a b t u v) = word
  obtain ⟨ho, h0, h1, h2, h3, h4, h5, hm⟩ := layout_5_5_5_z1_1_1_1 0x29#8 d a b t u v hw
  rw [ho]
  generalize word.extractLsb' 0 19 = bits at *
  exact (if_pos hm).trans (by rw [h0, h1, h2, h3, h4, h5])
theorem RoundTrip.pxor (d : BitVec 5) (a : BitVec 5) (b : BitVec 5) (t : BitVec 1) (u : BitVec 1) (v : BitVec 1) : RoundTrip.Statement (.pxor d a b t u v) := by
  intro _
  generalize hw : encodeBody (.pxor d a b t u v) = word
  obtain ⟨ho, h0, h1, h2, h3, h4, h5, hm⟩ := layout_5_5_5_z1_1_1_1 0x2A#8 d a b t u v hw
  rw [ho]
  generalize word.extractLsb' 0 19 = bits at *
  exact (if_pos hm).trans (by rw [h0, h1, h2, h3, h4, h5])
theorem RoundTrip.pset (d : BitVec 5) (a : BitVec 5) (f : BitVec 4) : RoundTrip.Statement (.pset d a f) := by
  intro _
  generalize hw : encodeBody (.pset d a f) = word
  obtain ⟨ho, h0, h1, h2, hm⟩ := layout_5_5_z5_4 0x2B#8 d a f hw
  rw [ho]
  generalize word.extractLsb' 0 19 = bits at *
  exact (if_pos hm).trans (by rw [h0, h1, h2])
theorem RoundTrip.cadd (d : BitVec 5) (a : BitVec 5) (b : BitVec 5) (f : BitVec 4) : RoundTrip.Statement (.cadd d a b f) := by
  intro _
  generalize hw : encodeBody (.cadd d a b f) = word
  obtain ⟨ho, h0, h1, h2, h3⟩ := layout_5_5_5_4 0x2C#8 d a b f hw
  rw [ho]
  generalize word.extractLsb' 0 19 = bits at *
  exact (show _ = some (Instr.cadd (bits.extractLsb' 14 5) (bits.extractLsb' 9 5) (bits.extractLsb' 4 5) (bits.extractLsb' 0 4)) from rfl).trans (by rw [h0, h1, h2, h3])
theorem RoundTrip.caddi (d : BitVec 5) (a : BitVec 5) (im : BitVec 9) : RoundTrip.Statement (.caddi d a im) := by
  intro _
  generalize hw : encodeBody (.caddi d a im) = word
  obtain ⟨ho, h0, h1, h2⟩ := layout_5_5_9 0x2D#8 d a im hw
  rw [ho]
  generalize word.extractLsb' 0 19 = bits at *
  exact (show _ = some (Instr.caddi (bits.extractLsb' 14 5) (bits.extractLsb' 9 5) (bits.extractLsb' 0 9)) from rfl).trans (by rw [h0, h1, h2])
theorem RoundTrip.cset (d : BitVec 5) (im : BitVec 14) : RoundTrip.Statement (.cset d im) := by
  intro _
  generalize hw : encodeBody (.cset d im) = word
  obtain ⟨ho, h0, h1⟩ := layout_5_14 0x2E#8 d im hw
  rw [ho]
  generalize word.extractLsb' 0 19 = bits at *
  exact (show _ = some (Instr.cset (bits.extractLsb' 14 5) (bits.extractLsb' 0 14)) from rfl).trans (by rw [h0, h1])
theorem RoundTrip.cmov (d : BitVec 5) (a : BitVec 5) (f : BitVec 4) : RoundTrip.Statement (.cmov d a f) := by
  intro _
  generalize hw : encodeBody (.cmov d a f) = word
  obtain ⟨ho, h0, h1, h2, hm⟩ := layout_5_5_z5_4 0x2F#8 d a f hw
  rw [ho]
  generalize word.extractLsb' 0 19 = bits at *
  exact (if_pos hm).trans (by rw [h0, h1, h2])
theorem RoundTrip.br (a : BitVec 5) (im : BitVec 9) : RoundTrip.Statement (.br a im) := by
  intro _
  generalize hw : encodeBody (.br a im) = word
  obtain ⟨ho, h0, h1, hm⟩ := layout_z5_5_9 0x30#8 a im hw
  rw [ho]
  generalize word.extractLsb' 0 19 = bits at *
  exact (if_pos hm).trans (by rw [h0, h1])
theorem RoundTrip.bri (im : BitVec 14) : RoundTrip.Statement (.bri im) := by
  intro _
  generalize hw : encodeBody (.bri im) = word
  obtain ⟨ho, h0, hm⟩ := layout_z5_14 0x31#8 im hw
  rw [ho]
  generalize word.extractLsb' 0 19 = bits at *
  exact (if_pos hm).trans (by rw [h0])
theorem RoundTrip.call (d : BitVec 5) (im : BitVec 14) : RoundTrip.Statement (.call d im) := by
  intro _
  generalize hw : encodeBody (.call d im) = word
  obtain ⟨ho, h0, h1⟩ := layout_5_14 0x32#8 d im hw
  rw [ho]
  generalize word.extractLsb' 0 19 = bits at *
  exact (show _ = some (Instr.call (bits.extractLsb' 14 5) (bits.extractLsb' 0 14)) from rfl).trans (by rw [h0, h1])
theorem RoundTrip.ret (a : BitVec 5) : RoundTrip.Statement (.ret a) := by
  intro _
  generalize hw : encodeBody (.ret a) = word
  obtain ⟨ho, h0, hm⟩ := layout_z5_5_z9 0x33#8 a hw
  rw [ho]
  generalize word.extractLsb' 0 19 = bits at *
  exact (if_pos hm).trans (by rw [h0])
theorem RoundTrip.loop (d : BitVec 5) (a : BitVec 5) (im : BitVec 9) : RoundTrip.Statement (.loop d a im) := by
  intro _
  generalize hw : encodeBody (.loop d a im) = word
  obtain ⟨ho, h0, h1, h2⟩ := layout_5_5_9 0x34#8 d a im hw
  rw [ho]
  generalize word.extractLsb' 0 19 = bits at *
  exact (show _ = some (Instr.loop (bits.extractLsb' 14 5) (bits.extractLsb' 9 5) (bits.extractLsb' 0 9)) from rfl).trans (by rw [h0, h1, h2])
theorem RoundTrip.mark : RoundTrip.Statement .mark := by
  intro _
  generalize hw : encodeBody .mark = word
  obtain ⟨ho, hm⟩ := layout_z19 0x35#8 hw
  rw [ho]
  generalize word.extractLsb' 0 19 = bits at *
  exact if_pos hm
theorem RoundTrip.sel (d : BitVec 5) (a : BitVec 5) (b : BitVec 5) (f : BitVec 4) : RoundTrip.Statement (.sel d a b f) := by
  intro _
  generalize hw : encodeBody (.sel d a b f) = word
  obtain ⟨ho, h0, h1, h2, h3⟩ := layout_5_5_5_4 0x36#8 d a b f hw
  rw [ho]
  generalize word.extractLsb' 0 19 = bits at *
  exact (show _ = some (Instr.sel (bits.extractLsb' 14 5) (bits.extractLsb' 9 5) (bits.extractLsb' 4 5) (bits.extractLsb' 0 4)) from rfl).trans (by rw [h0, h1, h2, h3])
theorem RoundTrip.chk (a : BitVec 5) (b : BitVec 5) (f : BitVec 4) : RoundTrip.Statement (.chk a b f) := by
  intro _
  generalize hw : encodeBody (.chk a b f) = word
  obtain ⟨ho, h0, h1, h2, hm⟩ := layout_z5_5_5_4 0x37#8 a b f hw
  rw [ho]
  generalize word.extractLsb' 0 19 = bits at *
  exact (if_pos hm).trans (by rw [h0, h1, h2])
theorem RoundTrip.ldS8 (d : BitVec 5) (a : BitVec 5) (im : BitVec 9) : RoundTrip.Statement (.ldS8 d a im) := by
  intro _
  generalize hw : encodeBody (.ldS8 d a im) = word
  obtain ⟨ho, h0, h1, h2⟩ := layout_5_5_9 0x40#8 d a im hw
  rw [ho]
  generalize word.extractLsb' 0 19 = bits at *
  exact (show _ = some (Instr.ldS8 (bits.extractLsb' 14 5) (bits.extractLsb' 9 5) (bits.extractLsb' 0 9)) from rfl).trans (by rw [h0, h1, h2])
theorem RoundTrip.ldZ8 (d : BitVec 5) (a : BitVec 5) (im : BitVec 9) : RoundTrip.Statement (.ldZ8 d a im) := by
  intro _
  generalize hw : encodeBody (.ldZ8 d a im) = word
  obtain ⟨ho, h0, h1, h2⟩ := layout_5_5_9 0x41#8 d a im hw
  rw [ho]
  generalize word.extractLsb' 0 19 = bits at *
  exact (show _ = some (Instr.ldZ8 (bits.extractLsb' 14 5) (bits.extractLsb' 9 5) (bits.extractLsb' 0 9)) from rfl).trans (by rw [h0, h1, h2])
theorem RoundTrip.ldS16 (d : BitVec 5) (a : BitVec 5) (im : BitVec 9) : RoundTrip.Statement (.ldS16 d a im) := by
  intro _
  generalize hw : encodeBody (.ldS16 d a im) = word
  obtain ⟨ho, h0, h1, h2⟩ := layout_5_5_9 0x42#8 d a im hw
  rw [ho]
  generalize word.extractLsb' 0 19 = bits at *
  exact (show _ = some (Instr.ldS16 (bits.extractLsb' 14 5) (bits.extractLsb' 9 5) (bits.extractLsb' 0 9)) from rfl).trans (by rw [h0, h1, h2])
theorem RoundTrip.ldZ16 (d : BitVec 5) (a : BitVec 5) (im : BitVec 9) : RoundTrip.Statement (.ldZ16 d a im) := by
  intro _
  generalize hw : encodeBody (.ldZ16 d a im) = word
  obtain ⟨ho, h0, h1, h2⟩ := layout_5_5_9 0x43#8 d a im hw
  rw [ho]
  generalize word.extractLsb' 0 19 = bits at *
  exact (show _ = some (Instr.ldZ16 (bits.extractLsb' 14 5) (bits.extractLsb' 9 5) (bits.extractLsb' 0 9)) from rfl).trans (by rw [h0, h1, h2])
theorem RoundTrip.ld32 (d : BitVec 5) (a : BitVec 5) (im : BitVec 9) : RoundTrip.Statement (.ld32 d a im) := by
  intro _
  generalize hw : encodeBody (.ld32 d a im) = word
  obtain ⟨ho, h0, h1, h2⟩ := layout_5_5_9 0x44#8 d a im hw
  rw [ho]
  generalize word.extractLsb' 0 19 = bits at *
  exact (show _ = some (Instr.ld32 (bits.extractLsb' 14 5) (bits.extractLsb' 9 5) (bits.extractLsb' 0 9)) from rfl).trans (by rw [h0, h1, h2])
theorem RoundTrip.st8 (d : BitVec 5) (a : BitVec 5) (im : BitVec 9) : RoundTrip.Statement (.st8 d a im) := by
  intro _
  generalize hw : encodeBody (.st8 d a im) = word
  obtain ⟨ho, h0, h1, h2⟩ := layout_5_5_9 0x45#8 d a im hw
  rw [ho]
  generalize word.extractLsb' 0 19 = bits at *
  exact (show _ = some (Instr.st8 (bits.extractLsb' 14 5) (bits.extractLsb' 9 5) (bits.extractLsb' 0 9)) from rfl).trans (by rw [h0, h1, h2])
theorem RoundTrip.st16 (d : BitVec 5) (a : BitVec 5) (im : BitVec 9) : RoundTrip.Statement (.st16 d a im) := by
  intro _
  generalize hw : encodeBody (.st16 d a im) = word
  obtain ⟨ho, h0, h1, h2⟩ := layout_5_5_9 0x46#8 d a im hw
  rw [ho]
  generalize word.extractLsb' 0 19 = bits at *
  exact (show _ = some (Instr.st16 (bits.extractLsb' 14 5) (bits.extractLsb' 9 5) (bits.extractLsb' 0 9)) from rfl).trans (by rw [h0, h1, h2])
theorem RoundTrip.st32 (d : BitVec 5) (a : BitVec 5) (im : BitVec 9) : RoundTrip.Statement (.st32 d a im) := by
  intro _
  generalize hw : encodeBody (.st32 d a im) = word
  obtain ⟨ho, h0, h1, h2⟩ := layout_5_5_9 0x47#8 d a im hw
  rw [ho]
  generalize word.extractLsb' 0 19 = bits at *
  exact (show _ = some (Instr.st32 (bits.extractLsb' 14 5) (bits.extractLsb' 9 5) (bits.extractLsb' 0 9)) from rfl).trans (by rw [h0, h1, h2])
theorem RoundTrip.ld2 (d : BitVec 5) (a : BitVec 5) (im : BitVec 9) : RoundTrip.Statement (.ld2 d a im) := by
  intro _
  generalize hw : encodeBody (.ld2 d a im) = word
  obtain ⟨ho, h0, h1, h2⟩ := layout_5_5_9 0x48#8 d a im hw
  rw [ho]
  generalize word.extractLsb' 0 19 = bits at *
  exact (show _ = some (Instr.ld2 (bits.extractLsb' 14 5) (bits.extractLsb' 9 5) (bits.extractLsb' 0 9)) from rfl).trans (by rw [h0, h1, h2])
theorem RoundTrip.st2 (d : BitVec 5) (a : BitVec 5) (im : BitVec 9) : RoundTrip.Statement (.st2 d a im) := by
  intro _
  generalize hw : encodeBody (.st2 d a im) = word
  obtain ⟨ho, h0, h1, h2⟩ := layout_5_5_9 0x49#8 d a im hw
  rw [ho]
  generalize word.extractLsb' 0 19 = bits at *
  exact (show _ = some (Instr.st2 (bits.extractLsb' 14 5) (bits.extractLsb' 9 5) (bits.extractLsb' 0 9)) from rfl).trans (by rw [h0, h1, h2])
theorem RoundTrip.ldv (d : BitVec 5) (a : BitVec 5) (w : BitVec 2) (h : BitVec 2) (im : BitVec 5) : RoundTrip.Statement (.ldv d a w h im) := by
  intro _
  generalize hw : encodeBody (.ldv d a w h im) = word
  obtain ⟨ho, h0, h1, h2, h3, h4⟩ := layout_5_5_2_2_5 0x4A#8 d a w h im hw
  rw [ho]
  generalize word.extractLsb' 0 19 = bits at *
  exact (show _ = some (Instr.ldv (bits.extractLsb' 14 5) (bits.extractLsb' 9 5) (bits.extractLsb' 7 2) (bits.extractLsb' 5 2) (bits.extractLsb' 0 5)) from rfl).trans (by rw [h0, h1, h2, h3, h4])
theorem RoundTrip.stv (d : BitVec 5) (a : BitVec 5) (w : BitVec 2) (h : BitVec 2) (im : BitVec 5) : RoundTrip.Statement (.stv d a w h im) := by
  intro _
  generalize hw : encodeBody (.stv d a w h im) = word
  obtain ⟨ho, h0, h1, h2, h3, h4⟩ := layout_5_5_2_2_5 0x4B#8 d a w h im hw
  rw [ho]
  generalize word.extractLsb' 0 19 = bits at *
  exact (show _ = some (Instr.stv (bits.extractLsb' 14 5) (bits.extractLsb' 9 5) (bits.extractLsb' 7 2) (bits.extractLsb' 5 2) (bits.extractLsb' 0 5)) from rfl).trans (by rw [h0, h1, h2, h3, h4])
theorem RoundTrip.ldt (d : BitVec 5) (a : BitVec 5) (b : BitVec 5) : RoundTrip.Statement (.ldt d a b) := by
  intro _
  generalize hw : encodeBody (.ldt d a b) = word
  obtain ⟨ho, h0, h1, h2, hm⟩ := layout_5_5_5_z4 0x4C#8 d a b hw
  rw [ho]
  generalize word.extractLsb' 0 19 = bits at *
  exact (if_pos hm).trans (by rw [h0, h1, h2])
theorem RoundTrip.ldvt (d : BitVec 5) (a : BitVec 5) (b : BitVec 5) (w : BitVec 2) (h : BitVec 2) : RoundTrip.Statement (.ldvt d a b w h) := by
  intro _
  generalize hw : encodeBody (.ldvt d a b w h) = word
  obtain ⟨ho, h0, h1, h2, h3, h4⟩ := layout_5_5_5_2_2 0x4D#8 d a b w h hw
  rw [ho]
  generalize word.extractLsb' 0 19 = bits at *
  exact (show _ = some (Instr.ldvt (bits.extractLsb' 14 5) (bits.extractLsb' 9 5) (bits.extractLsb' 4 5) (bits.extractLsb' 2 2) (bits.extractLsb' 0 2)) from rfl).trans (by rw [h0, h1, h2, h3, h4])
theorem RoundTrip.tld (d : BitVec 5) (k : BitVec 4) (b : BitVec 5) (w : BitVec 2) (h : BitVec 2) : RoundTrip.Statement (.tld d k b w h) := by
  intro _
  generalize hw : encodeBody (.tld d k b w h) = word
  obtain ⟨ho, h0, h1, h2, h3, h4, hm⟩ := layout_5_z1_4_5_2_2 0x4E#8 d k b w h hw
  rw [ho]
  generalize word.extractLsb' 0 19 = bits at *
  exact (if_pos hm).trans (by rw [h0, h1, h2, h3, h4])
theorem RoundTrip.tst (d : BitVec 5) (k : BitVec 4) (b : BitVec 5) (w : BitVec 2) (h : BitVec 2) : RoundTrip.Statement (.tst d k b w h) := by
  intro _
  generalize hw : encodeBody (.tst d k b w h) = word
  obtain ⟨ho, h0, h1, h2, h3, h4, hm⟩ := layout_5_z1_4_5_2_2 0x4F#8 d k b w h hw
  rw [ho]
  generalize word.extractLsb' 0 19 = bits at *
  exact (if_pos hm).trans (by rw [h0, h1, h2, h3, h4])
theorem RoundTrip.tldt (d : BitVec 5) (k : BitVec 4) (b : BitVec 5) (w : BitVec 2) (h : BitVec 2) : RoundTrip.Statement (.tldt d k b w h) := by
  intro _
  generalize hw : encodeBody (.tldt d k b w h) = word
  obtain ⟨ho, h0, h1, h2, h3, h4, hm⟩ := layout_5_z1_4_5_2_2 0x50#8 d k b w h hw
  rw [ho]
  generalize word.extractLsb' 0 19 = bits at *
  exact (if_pos hm).trans (by rw [h0, h1, h2, h3, h4])
theorem RoundTrip.aadd (d : BitVec 5) (a : BitVec 5) (b : BitVec 5) (f : BitVec 4) : RoundTrip.Statement (.aadd d a b f) := by
  intro _
  generalize hw : encodeBody (.aadd d a b f) = word
  obtain ⟨ho, h0, h1, h2, h3⟩ := layout_5_5_5_4 0x51#8 d a b f hw
  rw [ho]
  generalize word.extractLsb' 0 19 = bits at *
  exact (show _ = some (Instr.aadd (bits.extractLsb' 14 5) (bits.extractLsb' 9 5) (bits.extractLsb' 4 5) (bits.extractLsb' 0 4)) from rfl).trans (by rw [h0, h1, h2, h3])
theorem RoundTrip.amin (d : BitVec 5) (a : BitVec 5) (b : BitVec 5) (f : BitVec 4) : RoundTrip.Statement (.amin d a b f) := by
  intro _
  generalize hw : encodeBody (.amin d a b f) = word
  obtain ⟨ho, h0, h1, h2, h3⟩ := layout_5_5_5_4 0x52#8 d a b f hw
  rw [ho]
  generalize word.extractLsb' 0 19 = bits at *
  exact (show _ = some (Instr.amin (bits.extractLsb' 14 5) (bits.extractLsb' 9 5) (bits.extractLsb' 4 5) (bits.extractLsb' 0 4)) from rfl).trans (by rw [h0, h1, h2, h3])
theorem RoundTrip.amax (d : BitVec 5) (a : BitVec 5) (b : BitVec 5) (f : BitVec 4) : RoundTrip.Statement (.amax d a b f) := by
  intro _
  generalize hw : encodeBody (.amax d a b f) = word
  obtain ⟨ho, h0, h1, h2, h3⟩ := layout_5_5_5_4 0x53#8 d a b f hw
  rw [ho]
  generalize word.extractLsb' 0 19 = bits at *
  exact (show _ = some (Instr.amax (bits.extractLsb' 14 5) (bits.extractLsb' 9 5) (bits.extractLsb' 4 5) (bits.extractLsb' 0 4)) from rfl).trans (by rw [h0, h1, h2, h3])
theorem RoundTrip.aswp (d : BitVec 5) (a : BitVec 5) (b : BitVec 5) (f : BitVec 4) : RoundTrip.Statement (.aswp d a b f) := by
  intro _
  generalize hw : encodeBody (.aswp d a b f) = word
  obtain ⟨ho, h0, h1, h2, h3⟩ := layout_5_5_5_4 0x54#8 d a b f hw
  rw [ho]
  generalize word.extractLsb' 0 19 = bits at *
  exact (show _ = some (Instr.aswp (bits.extractLsb' 14 5) (bits.extractLsb' 9 5) (bits.extractLsb' 4 5) (bits.extractLsb' 0 4)) from rfl).trans (by rw [h0, h1, h2, h3])
theorem RoundTrip.acas (d : BitVec 5) (a : BitVec 5) (b : BitVec 5) (f : BitVec 4) : RoundTrip.Statement (.acas d a b f) := by
  intro _
  generalize hw : encodeBody (.acas d a b f) = word
  obtain ⟨ho, h0, h1, h2, h3⟩ := layout_5_5_5_4 0x55#8 d a b f hw
  rw [ho]
  generalize word.extractLsb' 0 19 = bits at *
  exact (show _ = some (Instr.acas (bits.extractLsb' 14 5) (bits.extractLsb' 9 5) (bits.extractLsb' 4 5) (bits.extractLsb' 0 4)) from rfl).trans (by rw [h0, h1, h2, h3])
theorem RoundTrip.afadd (d : BitVec 5) (a : BitVec 5) (b : BitVec 5) (f : BitVec 4) : RoundTrip.Statement (.afadd d a b f) := by
  intro _
  generalize hw : encodeBody (.afadd d a b f) = word
  obtain ⟨ho, h0, h1, h2, h3⟩ := layout_5_5_5_4 0x56#8 d a b f hw
  rw [ho]
  generalize word.extractLsb' 0 19 = bits at *
  exact (show _ = some (Instr.afadd (bits.extractLsb' 14 5) (bits.extractLsb' 9 5) (bits.extractLsb' 4 5) (bits.extractLsb' 0 4)) from rfl).trans (by rw [h0, h1, h2, h3])
theorem RoundTrip.tagw (d : BitVec 5) (a : BitVec 5) (im : BitVec 9) : RoundTrip.Statement (.tagw d a im) := by
  intro _
  generalize hw : encodeBody (.tagw d a im) = word
  obtain ⟨ho, h0, h1, h2⟩ := layout_5_5_9 0x57#8 d a im hw
  rw [ho]
  generalize word.extractLsb' 0 19 = bits at *
  exact (show _ = some (Instr.tagw (bits.extractLsb' 14 5) (bits.extractLsb' 9 5) (bits.extractLsb' 0 9)) from rfl).trans (by rw [h0, h1, h2])
theorem RoundTrip.tagr (d : BitVec 5) (a : BitVec 5) (im : BitVec 9) : RoundTrip.Statement (.tagr d a im) := by
  intro _
  generalize hw : encodeBody (.tagr d a im) = word
  obtain ⟨ho, h0, h1, h2⟩ := layout_5_5_9 0x58#8 d a im hw
  rw [ho]
  generalize word.extractLsb' 0 19 = bits at *
  exact (show _ = some (Instr.tagr (bits.extractLsb' 14 5) (bits.extractLsb' 9 5) (bits.extractLsb' 0 9)) from rfl).trans (by rw [h0, h1, h2])
theorem RoundTrip.formr (d : BitVec 5) (a : BitVec 5) (im : BitVec 9) : RoundTrip.Statement (.formr d a im) := by
  intro _
  generalize hw : encodeBody (.formr d a im) = word
  obtain ⟨ho, h0, h1, h2⟩ := layout_5_5_9 0x59#8 d a im hw
  rw [ho]
  generalize word.extractLsb' 0 19 = bits at *
  exact (show _ = some (Instr.formr (bits.extractLsb' 14 5) (bits.extractLsb' 9 5) (bits.extractLsb' 0 9)) from rfl).trans (by rw [h0, h1, h2])
theorem RoundTrip.sfnc : RoundTrip.Statement .sfnc := by
  intro _
  generalize hw : encodeBody .sfnc = word
  obtain ⟨ho, hm⟩ := layout_z19 0x5A#8 hw
  rw [ho]
  generalize word.extractLsb' 0 19 = bits at *
  exact if_pos hm
theorem RoundTrip.zline (a : BitVec 5) (im : BitVec 9) : RoundTrip.Statement (.zline a im) := by
  intro _
  generalize hw : encodeBody (.zline a im) = word
  obtain ⟨ho, h0, h1, hm⟩ := layout_z5_5_9 0x5B#8 a im hw
  rw [ho]
  generalize word.extractLsb' 0 19 = bits at *
  exact (if_pos hm).trans (by rw [h0, h1])
theorem RoundTrip.mma (e : BitVec 1) (n : BitVec 4) (a : BitVec 3) (b : BitVec 3) (y : BitVec 2) (x : BitVec 2) : RoundTrip.Statement (.mma e n a b y x) := by
  intro _
  generalize hw : encodeBody (.mma e n a b y x) = word
  obtain ⟨ho, h0, h1, h2, h3, h4, h5, hm⟩ := layout_1_4_z2_3_z2_3_2_2 0x60#8 e n a b y x hw
  rw [ho]
  generalize word.extractLsb' 0 19 = bits at *
  exact (if_pos hm).trans (by rw [h0, h1, h2, h3, h4, h5])
theorem RoundTrip.mmaz (e : BitVec 1) (n : BitVec 4) (a : BitVec 3) (b : BitVec 3) (y : BitVec 2) (x : BitVec 2) : RoundTrip.Statement (.mmaz e n a b y x) := by
  intro _
  generalize hw : encodeBody (.mmaz e n a b y x) = word
  obtain ⟨ho, h0, h1, h2, h3, h4, h5, hm⟩ := layout_1_4_z2_3_z2_3_2_2 0x61#8 e n a b y x hw
  rw [ho]
  generalize word.extractLsb' 0 19 = bits at *
  exact (if_pos hm).trans (by rw [h0, h1, h2, h3, h4, h5])
theorem RoundTrip.scac (d : BitVec 5) (a : BitVec 5) (b : BitVec 5) (k : BitVec 1) (j : BitVec 3) : RoundTrip.Statement (.scac d a b k j) := by
  intro _
  generalize hw : encodeBody (.scac d a b k j) = word
  obtain ⟨ho, h0, h1, h2, h3, h4⟩ := layout_5_5_5_1_3 0x62#8 d a b k j hw
  rw [ho]
  generalize word.extractLsb' 0 19 = bits at *
  exact (show _ = some (Instr.scac (bits.extractLsb' 14 5) (bits.extractLsb' 9 5) (bits.extractLsb' 4 5) (bits.extractLsb' 3 1) (bits.extractLsb' 0 3)) from rfl).trans (by rw [h0, h1, h2, h3, h4])
theorem RoundTrip.scacz (d : BitVec 5) (a : BitVec 5) (b : BitVec 5) (k : BitVec 1) (j : BitVec 3) : RoundTrip.Statement (.scacz d a b k j) := by
  intro _
  generalize hw : encodeBody (.scacz d a b k j) = word
  obtain ⟨ho, h0, h1, h2, h3, h4⟩ := layout_5_5_5_1_3 0x63#8 d a b k j hw
  rw [ho]
  generalize word.extractLsb' 0 19 = bits at *
  exact (show _ = some (Instr.scacz (bits.extractLsb' 14 5) (bits.extractLsb' 9 5) (bits.extractLsb' 4 5) (bits.extractLsb' 3 1) (bits.extractLsb' 0 3)) from rfl).trans (by rw [h0, h1, h2, h3, h4])
theorem RoundTrip.accrd (d : BitVec 5) (a : BitVec 5) (k : BitVec 1) (h : BitVec 1) : RoundTrip.Statement (.accrd d a k h) := by
  intro _
  generalize hw : encodeBody (.accrd d a k h) = word
  obtain ⟨ho, h0, h1, h2, h3, hm⟩ := layout_5_5_z3_1_1_z4 0x64#8 d a k h hw
  rw [ho]
  generalize word.extractLsb' 0 19 = bits at *
  exact (if_pos hm).trans (by rw [h0, h1, h2, h3])
theorem RoundTrip.accz (k : BitVec 1) : RoundTrip.Statement (.accz k) := by
  intro _
  generalize hw : encodeBody (.accz k) = word
  obtain ⟨ho, h0, hm⟩ := layout_z18_1 0x65#8 k hw
  rw [ho]
  generalize word.extractLsb' 0 19 = bits at *
  exact (if_pos hm).trans (by rw [h0])
theorem RoundTrip.mts (c : BitVec 1) (e : BitVec 4) (a : BitVec 5) (im : BitVec 9) : RoundTrip.Statement (.mts c e a im) := by
  intro _
  generalize hw : encodeBody (.mts c e a im) = word
  obtain ⟨ho, h0, h1, h2, h3⟩ := layout_1_4_5_9 0x66#8 c e a im hw
  rw [ho]
  generalize word.extractLsb' 0 19 = bits at *
  exact (show _ = some (Instr.mts (bits.extractLsb' 18 1) (bits.extractLsb' 14 4) (bits.extractLsb' 9 5) (bits.extractLsb' 0 9)) from rfl).trans (by rw [h0, h1, h2, h3])
theorem RoundTrip.rset (q : BitVec 3) (a : BitVec 5) (b : BitVec 5) : RoundTrip.Statement (.rset q a b) := by
  intro _
  generalize hw : encodeBody (.rset q a b) = word
  obtain ⟨ho, h0, h1, h2, hm⟩ := layout_z2_3_5_5_z4 0x67#8 q a b hw
  rw [ho]
  generalize word.extractLsb' 0 19 = bits at *
  exact (if_pos hm).trans (by rw [h0, h1, h2])
theorem RoundTrip.radv (q : BitVec 3) (im : BitVec 9) : RoundTrip.Statement (.radv q im) := by
  intro _
  generalize hw : encodeBody (.radv q im) = word
  obtain ⟨ho, h0, h1, hm⟩ := layout_z2_3_z5_9 0x68#8 q im hw
  rw [ho]
  generalize word.extractLsb' 0 19 = bits at *
  exact (if_pos hm).trans (by rw [h0, h1])
theorem RoundTrip.rpop (q : BitVec 3) (im : BitVec 9) : RoundTrip.Statement (.rpop q im) := by
  intro _
  generalize hw : encodeBody (.rpop q im) = word
  obtain ⟨ho, h0, h1, hm⟩ := layout_z2_3_z5_9 0x69#8 q im hw
  rw [ho]
  generalize word.extractLsb' 0 19 = bits at *
  exact (if_pos hm).trans (by rw [h0, h1])
theorem RoundTrip.cpy (d : BitVec 5) (a : BitVec 5) (b : BitVec 5) : RoundTrip.Statement (.cpy d a b) := by
  intro _
  generalize hw : encodeBody (.cpy d a b) = word
  obtain ⟨ho, h0, h1, h2, hm⟩ := layout_5_5_5_z4 0x6A#8 d a b hw
  rw [ho]
  generalize word.extractLsb' 0 19 = bits at *
  exact (if_pos hm).trans (by rw [h0, h1, h2])
theorem RoundTrip.cpyHbm (d : BitVec 5) (a : BitVec 5) (b : BitVec 5) (e : BitVec 1) : RoundTrip.Statement (.cpyHbm d a b e) := by
  intro _
  generalize hw : encodeBody (.cpyHbm d a b e) = word
  obtain ⟨ho, h0, h1, h2, h3, hm⟩ := layout_5_5_5_z2_1_o1 0x6A#8 d a b e hw
  rw [ho]
  generalize word.extractLsb' 0 19 = bits at *
  have hn : ¬ bits &&& 0x0000F#19 = 0x00000#19 := by
    intro hz
    have := congrArg (· &&& 0x0000D#19) hz
    simp only [BitVec.and_assoc] at this
    exact absurd (hm.symm.trans this) (by decide)
  exact (if_neg hn).trans ((if_pos hm).trans (by rw [h0, h1, h2, h3]))
theorem RoundTrip.hget (d : BitVec 5) (a : BitVec 5) (b : BitVec 5) (e : BitVec 1) : RoundTrip.Statement (.hget d a b e) := by
  intro _
  generalize hw : encodeBody (.hget d a b e) = word
  obtain ⟨ho, h0, h1, h2, h3, hm⟩ := layout_5_5_5_z3_1 0x6B#8 d a b e hw
  rw [ho]
  generalize word.extractLsb' 0 19 = bits at *
  exact (if_pos hm).trans (by rw [h0, h1, h2, h3])
theorem RoundTrip.hput (d : BitVec 5) (a : BitVec 5) (b : BitVec 5) (e : BitVec 1) : RoundTrip.Statement (.hput d a b e) := by
  intro _
  generalize hw : encodeBody (.hput d a b e) = word
  obtain ⟨ho, h0, h1, h2, h3, hm⟩ := layout_5_5_5_z3_1 0x6C#8 d a b e hw
  rw [ho]
  generalize word.extractLsb' 0 19 = bits at *
  exact (if_pos hm).trans (by rw [h0, h1, h2, h3])
theorem RoundTrip.gth (d : BitVec 5) (a : BitVec 5) (b : BitVec 5) (e : BitVec 1) : RoundTrip.Statement (.gth d a b e) := by
  intro _
  generalize hw : encodeBody (.gth d a b e) = word
  obtain ⟨ho, h0, h1, h2, h3, hm⟩ := layout_5_5_5_z3_1 0x6D#8 d a b e hw
  rw [ho]
  generalize word.extractLsb' 0 19 = bits at *
  exact (if_pos hm).trans (by rw [h0, h1, h2, h3])
theorem RoundTrip.sct (d : BitVec 5) (a : BitVec 5) (b : BitVec 5) (e : BitVec 1) : RoundTrip.Statement (.sct d a b e) := by
  intro _
  generalize hw : encodeBody (.sct d a b e) = word
  obtain ⟨ho, h0, h1, h2, h3, hm⟩ := layout_5_5_5_z3_1 0x6E#8 d a b e hw
  rw [ho]
  generalize word.extractLsb' 0 19 = bits at *
  exact (if_pos hm).trans (by rw [h0, h1, h2, h3])
theorem RoundTrip.xsnd (d : BitVec 5) (a : BitVec 5) (b : BitVec 5) : RoundTrip.Statement (.xsnd d a b) := by
  intro _
  generalize hw : encodeBody (.xsnd d a b) = word
  obtain ⟨ho, h0, h1, h2, hm⟩ := layout_5_5_5_z4 0x6F#8 d a b hw
  rw [ho]
  generalize word.extractLsb' 0 19 = bits at *
  exact (if_pos hm).trans (by rw [h0, h1, h2])
theorem RoundTrip.xrcv (d : BitVec 5) (a : BitVec 5) (b : BitVec 5) : RoundTrip.Statement (.xrcv d a b) := by
  intro _
  generalize hw : encodeBody (.xrcv d a b) = word
  obtain ⟨ho, h0, h1, h2, hm⟩ := layout_5_5_5_z4 0x70#8 d a b hw
  rw [ho]
  generalize word.extractLsb' 0 19 = bits at *
  exact (if_pos hm).trans (by rw [h0, h1, h2])
theorem RoundTrip.fput (a : BitVec 5) : RoundTrip.Statement (.fput a) := by
  intro _
  generalize hw : encodeBody (.fput a) = word
  obtain ⟨ho, h0, hm⟩ := layout_z5_5_z9 0x71#8 a hw
  rw [ho]
  generalize word.extractLsb' 0 19 = bits at *
  exact (if_pos hm).trans (by rw [h0])
theorem RoundTrip.fget (a : BitVec 5) : RoundTrip.Statement (.fget a) := by
  intro _
  generalize hw : encodeBody (.fget a) = word
  obtain ⟨ho, h0, hm⟩ := layout_z5_5_z9 0x72#8 a hw
  rw [ho]
  generalize word.extractLsb' 0 19 = bits at *
  exact (if_pos hm).trans (by rw [h0])
theorem RoundTrip.fatm (a : BitVec 5) : RoundTrip.Statement (.fatm a) := by
  intro _
  generalize hw : encodeBody (.fatm a) = word
  obtain ⟨ho, h0, hm⟩ := layout_z5_5_z9 0x73#8 a hw
  rw [ho]
  generalize word.extractLsb' 0 19 = bits at *
  exact (if_pos hm).trans (by rw [h0])
theorem RoundTrip.fflr (a : BitVec 5) : RoundTrip.Statement (.fflr a) := by
  intro _
  generalize hw : encodeBody (.fflr a) = word
  obtain ⟨ho, h0, hm⟩ := layout_z5_5_z9 0x74#8 a hw
  rw [ho]
  generalize word.extractLsb' 0 19 = bits at *
  exact (if_pos hm).trans (by rw [h0])
theorem RoundTrip.pinj (a : BitVec 5) : RoundTrip.Statement (.pinj a) := by
  intro _
  generalize hw : encodeBody (.pinj a) = word
  obtain ⟨ho, h0, hm⟩ := layout_z5_5_z9 0x75#8 a hw
  rw [ho]
  generalize word.extractLsb' 0 19 = bits at *
  exact (if_pos hm).trans (by rw [h0])
theorem RoundTrip.seal (a : BitVec 5) (b : BitVec 5) : RoundTrip.Statement (.seal a b) := by
  intro _
  generalize hw : encodeBody (.seal a b) = word
  obtain ⟨ho, h0, h1, hm⟩ := layout_z5_5_5_z4 0x76#8 a b hw
  rw [ho]
  generalize word.extractLsb' 0 19 = bits at *
  exact (if_pos hm).trans (by rw [h0, h1])
theorem RoundTrip.unseal (a : BitVec 5) (b : BitVec 5) : RoundTrip.Statement (.unseal a b) := by
  intro _
  generalize hw : encodeBody (.unseal a b) = word
  obtain ⟨ho, h0, h1, hm⟩ := layout_z5_5_5_z4 0x77#8 a b hw
  rw [ho]
  generalize word.extractLsb' 0 19 = bits at *
  exact (if_pos hm).trans (by rw [h0, h1])
theorem RoundTrip.cairn (a : BitVec 5) (b : BitVec 5) : RoundTrip.Statement (.cairn a b) := by
  intro _
  generalize hw : encodeBody (.cairn a b) = word
  obtain ⟨ho, h0, h1, hm⟩ := layout_z5_5_5_z4 0x78#8 a b hw
  rw [ho]
  generalize word.extractLsb' 0 19 = bits at *
  exact (if_pos hm).trans (by rw [h0, h1])
theorem RoundTrip.ufnc : RoundTrip.Statement .ufnc := by
  intro _
  generalize hw : encodeBody .ufnc = word
  obtain ⟨ho, hm⟩ := layout_z19 0x79#8 hw
  rw [ho]
  generalize word.extractLsb' 0 19 = bits at *
  exact if_pos hm
theorem RoundTrip.tblw (a : BitVec 5) : RoundTrip.Statement (.tblw a) := by
  intro _
  generalize hw : encodeBody (.tblw a) = word
  obtain ⟨ho, h0, hm⟩ := layout_z5_5_z9 0x7A#8 a hw
  rw [ho]
  generalize word.extractLsb' 0 19 = bits at *
  exact (if_pos hm).trans (by rw [h0])
theorem RoundTrip.tblr (d : BitVec 5) (a : BitVec 5) (b : BitVec 5) : RoundTrip.Statement (.tblr d a b) := by
  intro _
  generalize hw : encodeBody (.tblr d a b) = word
  obtain ⟨ho, h0, h1, h2, hm⟩ := layout_5_5_5_z4 0x7B#8 d a b hw
  rw [ho]
  generalize word.extractLsb' 0 19 = bits at *
  exact (if_pos hm).trans (by rw [h0, h1, h2])
theorem RoundTrip.spld (a : BitVec 5) (b : BitVec 5) (w : BitVec 1) : RoundTrip.Statement (.spld a b w) := by
  intro _
  generalize hw : encodeBody (.spld a b w) = word
  obtain ⟨ho, h0, h1, h2, hm⟩ := layout_z5_5_5_z3_1 0x7C#8 a b w hw
  rw [ho]
  generalize word.extractLsb' 0 19 = bits at *
  exact (if_pos hm).trans (by rw [h0, h1, h2])
theorem RoundTrip.shape (k : BitVec 4) (a : BitVec 5) : RoundTrip.Statement (.shape k a) := by
  intro _
  generalize hw : encodeBody (.shape k a) = word
  obtain ⟨ho, h0, h1, hm⟩ := layout_z1_4_5_z9 0x7D#8 k a hw
  rw [ho]
  generalize word.extractLsb' 0 19 = bits at *
  exact (if_pos hm).trans (by rw [h0, h1])
theorem RoundTrip.vaddF32 (d : BitVec 5) (a : BitVec 5) (b : BitVec 5) (w : BitVec 2) (h : BitVec 2) : RoundTrip.Statement (.vaddF32 d a b w h) := by
  intro _
  generalize hw : encodeBody (.vaddF32 d a b w h) = word
  obtain ⟨ho, h0, h1, h2, h3, h4⟩ := layout_5_5_5_2_2 0x80#8 d a b w h hw
  rw [ho]
  generalize word.extractLsb' 0 19 = bits at *
  exact (show _ = some (Instr.vaddF32 (bits.extractLsb' 14 5) (bits.extractLsb' 9 5) (bits.extractLsb' 4 5) (bits.extractLsb' 2 2) (bits.extractLsb' 0 2)) from rfl).trans (by rw [h0, h1, h2, h3, h4])
theorem RoundTrip.vsubF32 (d : BitVec 5) (a : BitVec 5) (b : BitVec 5) (w : BitVec 2) (h : BitVec 2) : RoundTrip.Statement (.vsubF32 d a b w h) := by
  intro _
  generalize hw : encodeBody (.vsubF32 d a b w h) = word
  obtain ⟨ho, h0, h1, h2, h3, h4⟩ := layout_5_5_5_2_2 0x81#8 d a b w h hw
  rw [ho]
  generalize word.extractLsb' 0 19 = bits at *
  exact (show _ = some (Instr.vsubF32 (bits.extractLsb' 14 5) (bits.extractLsb' 9 5) (bits.extractLsb' 4 5) (bits.extractLsb' 2 2) (bits.extractLsb' 0 2)) from rfl).trans (by rw [h0, h1, h2, h3, h4])
theorem RoundTrip.vmulF32 (d : BitVec 5) (a : BitVec 5) (b : BitVec 5) (w : BitVec 2) (h : BitVec 2) : RoundTrip.Statement (.vmulF32 d a b w h) := by
  intro _
  generalize hw : encodeBody (.vmulF32 d a b w h) = word
  obtain ⟨ho, h0, h1, h2, h3, h4⟩ := layout_5_5_5_2_2 0x82#8 d a b w h hw
  rw [ho]
  generalize word.extractLsb' 0 19 = bits at *
  exact (show _ = some (Instr.vmulF32 (bits.extractLsb' 14 5) (bits.extractLsb' 9 5) (bits.extractLsb' 4 5) (bits.extractLsb' 2 2) (bits.extractLsb' 0 2)) from rfl).trans (by rw [h0, h1, h2, h3, h4])
theorem RoundTrip.vfmaF32 (d : BitVec 5) (a : BitVec 5) (b : BitVec 5) (w : BitVec 2) (h : BitVec 2) : RoundTrip.Statement (.vfmaF32 d a b w h) := by
  intro _
  generalize hw : encodeBody (.vfmaF32 d a b w h) = word
  obtain ⟨ho, h0, h1, h2, h3, h4⟩ := layout_5_5_5_2_2 0x83#8 d a b w h hw
  rw [ho]
  generalize word.extractLsb' 0 19 = bits at *
  exact (show _ = some (Instr.vfmaF32 (bits.extractLsb' 14 5) (bits.extractLsb' 9 5) (bits.extractLsb' 4 5) (bits.extractLsb' 2 2) (bits.extractLsb' 0 2)) from rfl).trans (by rw [h0, h1, h2, h3, h4])
theorem RoundTrip.vfmsF32 (d : BitVec 5) (a : BitVec 5) (b : BitVec 5) (w : BitVec 2) (h : BitVec 2) : RoundTrip.Statement (.vfmsF32 d a b w h) := by
  intro _
  generalize hw : encodeBody (.vfmsF32 d a b w h) = word
  obtain ⟨ho, h0, h1, h2, h3, h4⟩ := layout_5_5_5_2_2 0x84#8 d a b w h hw
  rw [ho]
  generalize word.extractLsb' 0 19 = bits at *
  exact (show _ = some (Instr.vfmsF32 (bits.extractLsb' 14 5) (bits.extractLsb' 9 5) (bits.extractLsb' 4 5) (bits.extractLsb' 2 2) (bits.extractLsb' 0 2)) from rfl).trans (by rw [h0, h1, h2, h3, h4])
theorem RoundTrip.vminF32 (d : BitVec 5) (a : BitVec 5) (b : BitVec 5) (w : BitVec 2) (h : BitVec 2) : RoundTrip.Statement (.vminF32 d a b w h) := by
  intro _
  generalize hw : encodeBody (.vminF32 d a b w h) = word
  obtain ⟨ho, h0, h1, h2, h3, h4⟩ := layout_5_5_5_2_2 0x85#8 d a b w h hw
  rw [ho]
  generalize word.extractLsb' 0 19 = bits at *
  exact (show _ = some (Instr.vminF32 (bits.extractLsb' 14 5) (bits.extractLsb' 9 5) (bits.extractLsb' 4 5) (bits.extractLsb' 2 2) (bits.extractLsb' 0 2)) from rfl).trans (by rw [h0, h1, h2, h3, h4])
theorem RoundTrip.vmaxF32 (d : BitVec 5) (a : BitVec 5) (b : BitVec 5) (w : BitVec 2) (h : BitVec 2) : RoundTrip.Statement (.vmaxF32 d a b w h) := by
  intro _
  generalize hw : encodeBody (.vmaxF32 d a b w h) = word
  obtain ⟨ho, h0, h1, h2, h3, h4⟩ := layout_5_5_5_2_2 0x86#8 d a b w h hw
  rw [ho]
  generalize word.extractLsb' 0 19 = bits at *
  exact (show _ = some (Instr.vmaxF32 (bits.extractLsb' 14 5) (bits.extractLsb' 9 5) (bits.extractLsb' 4 5) (bits.extractLsb' 2 2) (bits.extractLsb' 0 2)) from rfl).trans (by rw [h0, h1, h2, h3, h4])
theorem RoundTrip.vminpF32 (d : BitVec 5) (a : BitVec 5) (b : BitVec 5) (w : BitVec 2) (h : BitVec 2) : RoundTrip.Statement (.vminpF32 d a b w h) := by
  intro _
  generalize hw : encodeBody (.vminpF32 d a b w h) = word
  obtain ⟨ho, h0, h1, h2, h3, h4⟩ := layout_5_5_5_2_2 0x87#8 d a b w h hw
  rw [ho]
  generalize word.extractLsb' 0 19 = bits at *
  exact (show _ = some (Instr.vminpF32 (bits.extractLsb' 14 5) (bits.extractLsb' 9 5) (bits.extractLsb' 4 5) (bits.extractLsb' 2 2) (bits.extractLsb' 0 2)) from rfl).trans (by rw [h0, h1, h2, h3, h4])
theorem RoundTrip.vmaxpF32 (d : BitVec 5) (a : BitVec 5) (b : BitVec 5) (w : BitVec 2) (h : BitVec 2) : RoundTrip.Statement (.vmaxpF32 d a b w h) := by
  intro _
  generalize hw : encodeBody (.vmaxpF32 d a b w h) = word
  obtain ⟨ho, h0, h1, h2, h3, h4⟩ := layout_5_5_5_2_2 0x88#8 d a b w h hw
  rw [ho]
  generalize word.extractLsb' 0 19 = bits at *
  exact (show _ = some (Instr.vmaxpF32 (bits.extractLsb' 14 5) (bits.extractLsb' 9 5) (bits.extractLsb' 4 5) (bits.extractLsb' 2 2) (bits.extractLsb' 0 2)) from rfl).trans (by rw [h0, h1, h2, h3, h4])
theorem RoundTrip.vabsF32 (d : BitVec 5) (a : BitVec 5) (w : BitVec 2) (h : BitVec 2) : RoundTrip.Statement (.vabsF32 d a w h) := by
  intro _
  generalize hw : encodeBody (.vabsF32 d a w h) = word
  obtain ⟨ho, h0, h1, h2, h3, hm⟩ := layout_5_5_z5_2_2 0x89#8 d a w h hw
  rw [ho]
  generalize word.extractLsb' 0 19 = bits at *
  exact (if_pos hm).trans (by rw [h0, h1, h2, h3])
theorem RoundTrip.vnegF32 (d : BitVec 5) (a : BitVec 5) (w : BitVec 2) (h : BitVec 2) : RoundTrip.Statement (.vnegF32 d a w h) := by
  intro _
  generalize hw : encodeBody (.vnegF32 d a w h) = word
  obtain ⟨ho, h0, h1, h2, h3, hm⟩ := layout_5_5_z5_2_2 0x8A#8 d a w h hw
  rw [ho]
  generalize word.extractLsb' 0 19 = bits at *
  exact (if_pos hm).trans (by rw [h0, h1, h2, h3])
theorem RoundTrip.vcmpF32 (d : BitVec 5) (a : BitVec 5) (b : BitVec 5) (w : BitVec 2) (h : BitVec 2) : RoundTrip.Statement (.vcmpF32 d a b w h) := by
  intro _
  generalize hw : encodeBody (.vcmpF32 d a b w h) = word
  obtain ⟨ho, h0, h1, h2, h3, h4⟩ := layout_5_5_5_2_2 0x8B#8 d a b w h hw
  rw [ho]
  generalize word.extractLsb' 0 19 = bits at *
  exact (show _ = some (Instr.vcmpF32 (bits.extractLsb' 14 5) (bits.extractLsb' 9 5) (bits.extractLsb' 4 5) (bits.extractLsb' 2 2) (bits.extractLsb' 0 2)) from rfl).trans (by rw [h0, h1, h2, h3, h4])
theorem RoundTrip.vaddBf16 (d : BitVec 5) (a : BitVec 5) (b : BitVec 5) (w : BitVec 2) (h : BitVec 2) : RoundTrip.Statement (.vaddBf16 d a b w h) := by
  intro _
  generalize hw : encodeBody (.vaddBf16 d a b w h) = word
  obtain ⟨ho, h0, h1, h2, h3, h4⟩ := layout_5_5_5_2_2 0x8C#8 d a b w h hw
  rw [ho]
  generalize word.extractLsb' 0 19 = bits at *
  exact (show _ = some (Instr.vaddBf16 (bits.extractLsb' 14 5) (bits.extractLsb' 9 5) (bits.extractLsb' 4 5) (bits.extractLsb' 2 2) (bits.extractLsb' 0 2)) from rfl).trans (by rw [h0, h1, h2, h3, h4])
theorem RoundTrip.vmulBf16 (d : BitVec 5) (a : BitVec 5) (b : BitVec 5) (w : BitVec 2) (h : BitVec 2) : RoundTrip.Statement (.vmulBf16 d a b w h) := by
  intro _
  generalize hw : encodeBody (.vmulBf16 d a b w h) = word
  obtain ⟨ho, h0, h1, h2, h3, h4⟩ := layout_5_5_5_2_2 0x8D#8 d a b w h hw
  rw [ho]
  generalize word.extractLsb' 0 19 = bits at *
  exact (show _ = some (Instr.vmulBf16 (bits.extractLsb' 14 5) (bits.extractLsb' 9 5) (bits.extractLsb' 4 5) (bits.extractLsb' 2 2) (bits.extractLsb' 0 2)) from rfl).trans (by rw [h0, h1, h2, h3, h4])
theorem RoundTrip.vfmaBf16 (d : BitVec 5) (a : BitVec 5) (b : BitVec 5) (w : BitVec 2) (h : BitVec 2) : RoundTrip.Statement (.vfmaBf16 d a b w h) := by
  intro _
  generalize hw : encodeBody (.vfmaBf16 d a b w h) = word
  obtain ⟨ho, h0, h1, h2, h3, h4⟩ := layout_5_5_5_2_2 0x8E#8 d a b w h hw
  rw [ho]
  generalize word.extractLsb' 0 19 = bits at *
  exact (show _ = some (Instr.vfmaBf16 (bits.extractLsb' 14 5) (bits.extractLsb' 9 5) (bits.extractLsb' 4 5) (bits.extractLsb' 2 2) (bits.extractLsb' 0 2)) from rfl).trans (by rw [h0, h1, h2, h3, h4])
theorem RoundTrip.vminBf16 (d : BitVec 5) (a : BitVec 5) (b : BitVec 5) (w : BitVec 2) (h : BitVec 2) : RoundTrip.Statement (.vminBf16 d a b w h) := by
  intro _
  generalize hw : encodeBody (.vminBf16 d a b w h) = word
  obtain ⟨ho, h0, h1, h2, h3, h4⟩ := layout_5_5_5_2_2 0x8F#8 d a b w h hw
  rw [ho]
  generalize word.extractLsb' 0 19 = bits at *
  exact (show _ = some (Instr.vminBf16 (bits.extractLsb' 14 5) (bits.extractLsb' 9 5) (bits.extractLsb' 4 5) (bits.extractLsb' 2 2) (bits.extractLsb' 0 2)) from rfl).trans (by rw [h0, h1, h2, h3, h4])
theorem RoundTrip.vmaxBf16 (d : BitVec 5) (a : BitVec 5) (b : BitVec 5) (w : BitVec 2) (h : BitVec 2) : RoundTrip.Statement (.vmaxBf16 d a b w h) := by
  intro _
  generalize hw : encodeBody (.vmaxBf16 d a b w h) = word
  obtain ⟨ho, h0, h1, h2, h3, h4⟩ := layout_5_5_5_2_2 0x90#8 d a b w h hw
  rw [ho]
  generalize word.extractLsb' 0 19 = bits at *
  exact (show _ = some (Instr.vmaxBf16 (bits.extractLsb' 14 5) (bits.extractLsb' 9 5) (bits.extractLsb' 4 5) (bits.extractLsb' 2 2) (bits.extractLsb' 0 2)) from rfl).trans (by rw [h0, h1, h2, h3, h4])
theorem RoundTrip.vaddI32 (d : BitVec 5) (a : BitVec 5) (b : BitVec 5) (w : BitVec 2) (h : BitVec 2) : RoundTrip.Statement (.vaddI32 d a b w h) := by
  intro _
  generalize hw : encodeBody (.vaddI32 d a b w h) = word
  obtain ⟨ho, h0, h1, h2, h3, h4⟩ := layout_5_5_5_2_2 0x91#8 d a b w h hw
  rw [ho]
  generalize word.extractLsb' 0 19 = bits at *
  exact (show _ = some (Instr.vaddI32 (bits.extractLsb' 14 5) (bits.extractLsb' 9 5) (bits.extractLsb' 4 5) (bits.extractLsb' 2 2) (bits.extractLsb' 0 2)) from rfl).trans (by rw [h0, h1, h2, h3, h4])
theorem RoundTrip.vsubI32 (d : BitVec 5) (a : BitVec 5) (b : BitVec 5) (w : BitVec 2) (h : BitVec 2) : RoundTrip.Statement (.vsubI32 d a b w h) := by
  intro _
  generalize hw : encodeBody (.vsubI32 d a b w h) = word
  obtain ⟨ho, h0, h1, h2, h3, h4⟩ := layout_5_5_5_2_2 0x92#8 d a b w h hw
  rw [ho]
  generalize word.extractLsb' 0 19 = bits at *
  exact (show _ = some (Instr.vsubI32 (bits.extractLsb' 14 5) (bits.extractLsb' 9 5) (bits.extractLsb' 4 5) (bits.extractLsb' 2 2) (bits.extractLsb' 0 2)) from rfl).trans (by rw [h0, h1, h2, h3, h4])
theorem RoundTrip.vmulI32 (d : BitVec 5) (a : BitVec 5) (b : BitVec 5) (w : BitVec 2) (h : BitVec 2) : RoundTrip.Statement (.vmulI32 d a b w h) := by
  intro _
  generalize hw : encodeBody (.vmulI32 d a b w h) = word
  obtain ⟨ho, h0, h1, h2, h3, h4⟩ := layout_5_5_5_2_2 0x93#8 d a b w h hw
  rw [ho]
  generalize word.extractLsb' 0 19 = bits at *
  exact (show _ = some (Instr.vmulI32 (bits.extractLsb' 14 5) (bits.extractLsb' 9 5) (bits.extractLsb' 4 5) (bits.extractLsb' 2 2) (bits.extractLsb' 0 2)) from rfl).trans (by rw [h0, h1, h2, h3, h4])
theorem RoundTrip.vminS32 (d : BitVec 5) (a : BitVec 5) (b : BitVec 5) (w : BitVec 2) (h : BitVec 2) : RoundTrip.Statement (.vminS32 d a b w h) := by
  intro _
  generalize hw : encodeBody (.vminS32 d a b w h) = word
  obtain ⟨ho, h0, h1, h2, h3, h4⟩ := layout_5_5_5_2_2 0x94#8 d a b w h hw
  rw [ho]
  generalize word.extractLsb' 0 19 = bits at *
  exact (show _ = some (Instr.vminS32 (bits.extractLsb' 14 5) (bits.extractLsb' 9 5) (bits.extractLsb' 4 5) (bits.extractLsb' 2 2) (bits.extractLsb' 0 2)) from rfl).trans (by rw [h0, h1, h2, h3, h4])
theorem RoundTrip.vmaxS32 (d : BitVec 5) (a : BitVec 5) (b : BitVec 5) (w : BitVec 2) (h : BitVec 2) : RoundTrip.Statement (.vmaxS32 d a b w h) := by
  intro _
  generalize hw : encodeBody (.vmaxS32 d a b w h) = word
  obtain ⟨ho, h0, h1, h2, h3, h4⟩ := layout_5_5_5_2_2 0x95#8 d a b w h hw
  rw [ho]
  generalize word.extractLsb' 0 19 = bits at *
  exact (show _ = some (Instr.vmaxS32 (bits.extractLsb' 14 5) (bits.extractLsb' 9 5) (bits.extractLsb' 4 5) (bits.extractLsb' 2 2) (bits.extractLsb' 0 2)) from rfl).trans (by rw [h0, h1, h2, h3, h4])
theorem RoundTrip.vminZ32 (d : BitVec 5) (a : BitVec 5) (b : BitVec 5) (w : BitVec 2) (h : BitVec 2) : RoundTrip.Statement (.vminZ32 d a b w h) := by
  intro _
  generalize hw : encodeBody (.vminZ32 d a b w h) = word
  obtain ⟨ho, h0, h1, h2, h3, h4⟩ := layout_5_5_5_2_2 0x96#8 d a b w h hw
  rw [ho]
  generalize word.extractLsb' 0 19 = bits at *
  exact (show _ = some (Instr.vminZ32 (bits.extractLsb' 14 5) (bits.extractLsb' 9 5) (bits.extractLsb' 4 5) (bits.extractLsb' 2 2) (bits.extractLsb' 0 2)) from rfl).trans (by rw [h0, h1, h2, h3, h4])
theorem RoundTrip.vmaxZ32 (d : BitVec 5) (a : BitVec 5) (b : BitVec 5) (w : BitVec 2) (h : BitVec 2) : RoundTrip.Statement (.vmaxZ32 d a b w h) := by
  intro _
  generalize hw : encodeBody (.vmaxZ32 d a b w h) = word
  obtain ⟨ho, h0, h1, h2, h3, h4⟩ := layout_5_5_5_2_2 0x97#8 d a b w h hw
  rw [ho]
  generalize word.extractLsb' 0 19 = bits at *
  exact (show _ = some (Instr.vmaxZ32 (bits.extractLsb' 14 5) (bits.extractLsb' 9 5) (bits.extractLsb' 4 5) (bits.extractLsb' 2 2) (bits.extractLsb' 0 2)) from rfl).trans (by rw [h0, h1, h2, h3, h4])
theorem RoundTrip.vaddI16 (d : BitVec 5) (a : BitVec 5) (b : BitVec 5) (w : BitVec 2) (h : BitVec 2) : RoundTrip.Statement (.vaddI16 d a b w h) := by
  intro _
  generalize hw : encodeBody (.vaddI16 d a b w h) = word
  obtain ⟨ho, h0, h1, h2, h3, h4⟩ := layout_5_5_5_2_2 0x98#8 d a b w h hw
  rw [ho]
  generalize word.extractLsb' 0 19 = bits at *
  exact (show _ = some (Instr.vaddI16 (bits.extractLsb' 14 5) (bits.extractLsb' 9 5) (bits.extractLsb' 4 5) (bits.extractLsb' 2 2) (bits.extractLsb' 0 2)) from rfl).trans (by rw [h0, h1, h2, h3, h4])
theorem RoundTrip.vsubI16 (d : BitVec 5) (a : BitVec 5) (b : BitVec 5) (w : BitVec 2) (h : BitVec 2) : RoundTrip.Statement (.vsubI16 d a b w h) := by
  intro _
  generalize hw : encodeBody (.vsubI16 d a b w h) = word
  obtain ⟨ho, h0, h1, h2, h3, h4⟩ := layout_5_5_5_2_2 0x99#8 d a b w h hw
  rw [ho]
  generalize word.extractLsb' 0 19 = bits at *
  exact (show _ = some (Instr.vsubI16 (bits.extractLsb' 14 5) (bits.extractLsb' 9 5) (bits.extractLsb' 4 5) (bits.extractLsb' 2 2) (bits.extractLsb' 0 2)) from rfl).trans (by rw [h0, h1, h2, h3, h4])
theorem RoundTrip.vaddsS16 (d : BitVec 5) (a : BitVec 5) (b : BitVec 5) (w : BitVec 2) (h : BitVec 2) : RoundTrip.Statement (.vaddsS16 d a b w h) := by
  intro _
  generalize hw : encodeBody (.vaddsS16 d a b w h) = word
  obtain ⟨ho, h0, h1, h2, h3, h4⟩ := layout_5_5_5_2_2 0x9A#8 d a b w h hw
  rw [ho]
  generalize word.extractLsb' 0 19 = bits at *
  exact (show _ = some (Instr.vaddsS16 (bits.extractLsb' 14 5) (bits.extractLsb' 9 5) (bits.extractLsb' 4 5) (bits.extractLsb' 2 2) (bits.extractLsb' 0 2)) from rfl).trans (by rw [h0, h1, h2, h3, h4])
theorem RoundTrip.vmulI16 (d : BitVec 5) (a : BitVec 5) (b : BitVec 5) (w : BitVec 2) (h : BitVec 2) : RoundTrip.Statement (.vmulI16 d a b w h) := by
  intro _
  generalize hw : encodeBody (.vmulI16 d a b w h) = word
  obtain ⟨ho, h0, h1, h2, h3, h4⟩ := layout_5_5_5_2_2 0x9B#8 d a b w h hw
  rw [ho]
  generalize word.extractLsb' 0 19 = bits at *
  exact (show _ = some (Instr.vmulI16 (bits.extractLsb' 14 5) (bits.extractLsb' 9 5) (bits.extractLsb' 4 5) (bits.extractLsb' 2 2) (bits.extractLsb' 0 2)) from rfl).trans (by rw [h0, h1, h2, h3, h4])
theorem RoundTrip.vaddI8 (d : BitVec 5) (a : BitVec 5) (b : BitVec 5) (w : BitVec 2) (h : BitVec 2) : RoundTrip.Statement (.vaddI8 d a b w h) := by
  intro _
  generalize hw : encodeBody (.vaddI8 d a b w h) = word
  obtain ⟨ho, h0, h1, h2, h3, h4⟩ := layout_5_5_5_2_2 0x9C#8 d a b w h hw
  rw [ho]
  generalize word.extractLsb' 0 19 = bits at *
  exact (show _ = some (Instr.vaddI8 (bits.extractLsb' 14 5) (bits.extractLsb' 9 5) (bits.extractLsb' 4 5) (bits.extractLsb' 2 2) (bits.extractLsb' 0 2)) from rfl).trans (by rw [h0, h1, h2, h3, h4])
theorem RoundTrip.vsubI8 (d : BitVec 5) (a : BitVec 5) (b : BitVec 5) (w : BitVec 2) (h : BitVec 2) : RoundTrip.Statement (.vsubI8 d a b w h) := by
  intro _
  generalize hw : encodeBody (.vsubI8 d a b w h) = word
  obtain ⟨ho, h0, h1, h2, h3, h4⟩ := layout_5_5_5_2_2 0x9D#8 d a b w h hw
  rw [ho]
  generalize word.extractLsb' 0 19 = bits at *
  exact (show _ = some (Instr.vsubI8 (bits.extractLsb' 14 5) (bits.extractLsb' 9 5) (bits.extractLsb' 4 5) (bits.extractLsb' 2 2) (bits.extractLsb' 0 2)) from rfl).trans (by rw [h0, h1, h2, h3, h4])
theorem RoundTrip.vaddsS8 (d : BitVec 5) (a : BitVec 5) (b : BitVec 5) (w : BitVec 2) (h : BitVec 2) : RoundTrip.Statement (.vaddsS8 d a b w h) := by
  intro _
  generalize hw : encodeBody (.vaddsS8 d a b w h) = word
  obtain ⟨ho, h0, h1, h2, h3, h4⟩ := layout_5_5_5_2_2 0x9E#8 d a b w h hw
  rw [ho]
  generalize word.extractLsb' 0 19 = bits at *
  exact (show _ = some (Instr.vaddsS8 (bits.extractLsb' 14 5) (bits.extractLsb' 9 5) (bits.extractLsb' 4 5) (bits.extractLsb' 2 2) (bits.extractLsb' 0 2)) from rfl).trans (by rw [h0, h1, h2, h3, h4])
theorem RoundTrip.vaddsZ8 (d : BitVec 5) (a : BitVec 5) (b : BitVec 5) (w : BitVec 2) (h : BitVec 2) : RoundTrip.Statement (.vaddsZ8 d a b w h) := by
  intro _
  generalize hw : encodeBody (.vaddsZ8 d a b w h) = word
  obtain ⟨ho, h0, h1, h2, h3, h4⟩ := layout_5_5_5_2_2 0x9F#8 d a b w h hw
  rw [ho]
  generalize word.extractLsb' 0 19 = bits at *
  exact (show _ = some (Instr.vaddsZ8 (bits.extractLsb' 14 5) (bits.extractLsb' 9 5) (bits.extractLsb' 4 5) (bits.extractLsb' 2 2) (bits.extractLsb' 0 2)) from rfl).trans (by rw [h0, h1, h2, h3, h4])
theorem RoundTrip.vand (d : BitVec 5) (a : BitVec 5) (b : BitVec 5) (w : BitVec 2) (h : BitVec 2) : RoundTrip.Statement (.vand d a b w h) := by
  intro _
  generalize hw : encodeBody (.vand d a b w h) = word
  obtain ⟨ho, h0, h1, h2, h3, h4⟩ := layout_5_5_5_2_2 0xA0#8 d a b w h hw
  rw [ho]
  generalize word.extractLsb' 0 19 = bits at *
  exact (show _ = some (Instr.vand (bits.extractLsb' 14 5) (bits.extractLsb' 9 5) (bits.extractLsb' 4 5) (bits.extractLsb' 2 2) (bits.extractLsb' 0 2)) from rfl).trans (by rw [h0, h1, h2, h3, h4])
theorem RoundTrip.vor (d : BitVec 5) (a : BitVec 5) (b : BitVec 5) (w : BitVec 2) (h : BitVec 2) : RoundTrip.Statement (.vor d a b w h) := by
  intro _
  generalize hw : encodeBody (.vor d a b w h) = word
  obtain ⟨ho, h0, h1, h2, h3, h4⟩ := layout_5_5_5_2_2 0xA1#8 d a b w h hw
  rw [ho]
  generalize word.extractLsb' 0 19 = bits at *
  exact (show _ = some (Instr.vor (bits.extractLsb' 14 5) (bits.extractLsb' 9 5) (bits.extractLsb' 4 5) (bits.extractLsb' 2 2) (bits.extractLsb' 0 2)) from rfl).trans (by rw [h0, h1, h2, h3, h4])
theorem RoundTrip.vxor (d : BitVec 5) (a : BitVec 5) (b : BitVec 5) (w : BitVec 2) (h : BitVec 2) : RoundTrip.Statement (.vxor d a b w h) := by
  intro _
  generalize hw : encodeBody (.vxor d a b w h) = word
  obtain ⟨ho, h0, h1, h2, h3, h4⟩ := layout_5_5_5_2_2 0xA2#8 d a b w h hw
  rw [ho]
  generalize word.extractLsb' 0 19 = bits at *
  exact (show _ = some (Instr.vxor (bits.extractLsb' 14 5) (bits.extractLsb' 9 5) (bits.extractLsb' 4 5) (bits.extractLsb' 2 2) (bits.extractLsb' 0 2)) from rfl).trans (by rw [h0, h1, h2, h3, h4])
theorem RoundTrip.vandn (d : BitVec 5) (a : BitVec 5) (b : BitVec 5) (w : BitVec 2) (h : BitVec 2) : RoundTrip.Statement (.vandn d a b w h) := by
  intro _
  generalize hw : encodeBody (.vandn d a b w h) = word
  obtain ⟨ho, h0, h1, h2, h3, h4⟩ := layout_5_5_5_2_2 0xA3#8 d a b w h hw
  rw [ho]
  generalize word.extractLsb' 0 19 = bits at *
  exact (show _ = some (Instr.vandn (bits.extractLsb' 14 5) (bits.extractLsb' 9 5) (bits.extractLsb' 4 5) (bits.extractLsb' 2 2) (bits.extractLsb' 0 2)) from rfl).trans (by rw [h0, h1, h2, h3, h4])
theorem RoundTrip.vshl (d : BitVec 5) (c : BitVec 2) (b : BitVec 5) (w : BitVec 2) (h : BitVec 2) : RoundTrip.Statement (.vshl d c b w h) := by
  intro _
  generalize hw : encodeBody (.vshl d c b w h) = word
  obtain ⟨ho, h0, h1, h2, h3, h4, hm⟩ := layout_5_z3_2_5_2_2 0xA4#8 d c b w h hw
  rw [ho]
  generalize word.extractLsb' 0 19 = bits at *
  exact (if_pos hm).trans (by rw [h0, h1, h2, h3, h4])
theorem RoundTrip.vshr (d : BitVec 5) (c : BitVec 2) (b : BitVec 5) (w : BitVec 2) (h : BitVec 2) : RoundTrip.Statement (.vshr d c b w h) := by
  intro _
  generalize hw : encodeBody (.vshr d c b w h) = word
  obtain ⟨ho, h0, h1, h2, h3, h4, hm⟩ := layout_5_z3_2_5_2_2 0xA5#8 d c b w h hw
  rw [ho]
  generalize word.extractLsb' 0 19 = bits at *
  exact (if_pos hm).trans (by rw [h0, h1, h2, h3, h4])
theorem RoundTrip.vsra (d : BitVec 5) (c : BitVec 2) (b : BitVec 5) (w : BitVec 2) (h : BitVec 2) : RoundTrip.Statement (.vsra d c b w h) := by
  intro _
  generalize hw : encodeBody (.vsra d c b w h) = word
  obtain ⟨ho, h0, h1, h2, h3, h4, hm⟩ := layout_5_z3_2_5_2_2 0xA6#8 d c b w h hw
  rw [ho]
  generalize word.extractLsb' 0 19 = bits at *
  exact (if_pos hm).trans (by rw [h0, h1, h2, h3, h4])
theorem RoundTrip.vrot (d : BitVec 5) (c : BitVec 2) (b : BitVec 5) (w : BitVec 2) (h : BitVec 2) : RoundTrip.Statement (.vrot d c b w h) := by
  intro _
  generalize hw : encodeBody (.vrot d c b w h) = word
  obtain ⟨ho, h0, h1, h2, h3, h4, hm⟩ := layout_5_z3_2_5_2_2 0xA7#8 d c b w h hw
  rw [ho]
  generalize word.extractLsb' 0 19 = bits at *
  exact (if_pos hm).trans (by rw [h0, h1, h2, h3, h4])
theorem RoundTrip.vshli (d : BitVec 5) (c : BitVec 2) (n : BitVec 3) (m : BitVec 5) (w : BitVec 2) (h : BitVec 2) : RoundTrip.Statement (.vshli d c n m w h) := by
  intro _
  generalize hw : encodeBody (.vshli d c n m w h) = word
  obtain ⟨ho, h0, h1, h2, h3, h4, h5⟩ := layout_5_2_3_5_2_2 0xA8#8 d c n m w h hw
  rw [ho]
  generalize word.extractLsb' 0 19 = bits at *
  exact (show _ = some (Instr.vshli (bits.extractLsb' 14 5) (bits.extractLsb' 12 2) (bits.extractLsb' 9 3) (bits.extractLsb' 4 5) (bits.extractLsb' 2 2) (bits.extractLsb' 0 2)) from rfl).trans (by rw [h0, h1, h2, h3, h4, h5])
theorem RoundTrip.vshri (d : BitVec 5) (c : BitVec 2) (n : BitVec 3) (m : BitVec 5) (w : BitVec 2) (h : BitVec 2) : RoundTrip.Statement (.vshri d c n m w h) := by
  intro _
  generalize hw : encodeBody (.vshri d c n m w h) = word
  obtain ⟨ho, h0, h1, h2, h3, h4, h5⟩ := layout_5_2_3_5_2_2 0xA9#8 d c n m w h hw
  rw [ho]
  generalize word.extractLsb' 0 19 = bits at *
  exact (show _ = some (Instr.vshri (bits.extractLsb' 14 5) (bits.extractLsb' 12 2) (bits.extractLsb' 9 3) (bits.extractLsb' 4 5) (bits.extractLsb' 2 2) (bits.extractLsb' 0 2)) from rfl).trans (by rw [h0, h1, h2, h3, h4, h5])
theorem RoundTrip.vsrai (d : BitVec 5) (c : BitVec 2) (n : BitVec 3) (m : BitVec 5) (w : BitVec 2) (h : BitVec 2) : RoundTrip.Statement (.vsrai d c n m w h) := by
  intro _
  generalize hw : encodeBody (.vsrai d c n m w h) = word
  obtain ⟨ho, h0, h1, h2, h3, h4, h5⟩ := layout_5_2_3_5_2_2 0xAA#8 d c n m w h hw
  rw [ho]
  generalize word.extractLsb' 0 19 = bits at *
  exact (show _ = some (Instr.vsrai (bits.extractLsb' 14 5) (bits.extractLsb' 12 2) (bits.extractLsb' 9 3) (bits.extractLsb' 4 5) (bits.extractLsb' 2 2) (bits.extractLsb' 0 2)) from rfl).trans (by rw [h0, h1, h2, h3, h4, h5])
theorem RoundTrip.vsel (d : BitVec 5) (a : BitVec 5) (b : BitVec 5) (w : BitVec 2) (h : BitVec 2) : RoundTrip.Statement (.vsel d a b w h) := by
  intro _
  generalize hw : encodeBody (.vsel d a b w h) = word
  obtain ⟨ho, h0, h1, h2, h3, h4⟩ := layout_5_5_5_2_2 0xAB#8 d a b w h hw
  rw [ho]
  generalize word.extractLsb' 0 19 = bits at *
  exact (show _ = some (Instr.vsel (bits.extractLsb' 14 5) (bits.extractLsb' 9 5) (bits.extractLsb' 4 5) (bits.extractLsb' 2 2) (bits.extractLsb' 0 2)) from rfl).trans (by rw [h0, h1, h2, h3, h4])
theorem RoundTrip.vmov (d : BitVec 5) (a : BitVec 5) (w : BitVec 2) (h : BitVec 2) : RoundTrip.Statement (.vmov d a w h) := by
  intro _
  generalize hw : encodeBody (.vmov d a w h) = word
  obtain ⟨ho, h0, h1, h2, h3, hm⟩ := layout_5_5_z5_2_2 0xAC#8 d a w h hw
  rw [ho]
  generalize word.extractLsb' 0 19 = bits at *
  exact (if_pos hm).trans (by rw [h0, h1, h2, h3])
theorem RoundTrip.vbcst (d : BitVec 5) (a : BitVec 5) (c : BitVec 2) (w : BitVec 2) (h : BitVec 2) : RoundTrip.Statement (.vbcst d a c w h) := by
  intro _
  generalize hw : encodeBody (.vbcst d a c w h) = word
  obtain ⟨ho, h0, h1, h2, h3, h4, hm⟩ := layout_5_5_z3_2_2_2 0xAD#8 d a c w h hw
  rw [ho]
  generalize word.extractLsb' 0 19 = bits at *
  exact (if_pos hm).trans (by rw [h0, h1, h2, h3, h4])
theorem RoundTrip.vext (d : BitVec 5) (a : BitVec 5) (l : BitVec 5) (w : BitVec 2) (h : BitVec 2) : RoundTrip.Statement (.vext d a l w h) := by
  intro _
  generalize hw : encodeBody (.vext d a l w h) = word
  obtain ⟨ho, h0, h1, h2, h3, h4⟩ := layout_5_5_5_2_2 0xAE#8 d a l w h hw
  rw [ho]
  generalize word.extractLsb' 0 19 = bits at *
  exact (show _ = some (Instr.vext (bits.extractLsb' 14 5) (bits.extractLsb' 9 5) (bits.extractLsb' 4 5) (bits.extractLsb' 2 2) (bits.extractLsb' 0 2)) from rfl).trans (by rw [h0, h1, h2, h3, h4])
theorem RoundTrip.vins (d : BitVec 5) (a : BitVec 5) (l : BitVec 5) (w : BitVec 2) (h : BitVec 2) : RoundTrip.Statement (.vins d a l w h) := by
  intro _
  generalize hw : encodeBody (.vins d a l w h) = word
  obtain ⟨ho, h0, h1, h2, h3, h4⟩ := layout_5_5_5_2_2 0xAF#8 d a l w h hw
  rw [ho]
  generalize word.extractLsb' 0 19 = bits at *
  exact (show _ = some (Instr.vins (bits.extractLsb' 14 5) (bits.extractLsb' 9 5) (bits.extractLsb' 4 5) (bits.extractLsb' 2 2) (bits.extractLsb' 0 2)) from rfl).trans (by rw [h0, h1, h2, h3, h4])
theorem RoundTrip.viota (d : BitVec 5) (a : BitVec 5) (c : BitVec 2) (w : BitVec 2) (h : BitVec 2) : RoundTrip.Statement (.viota d a c w h) := by
  intro _
  generalize hw : encodeBody (.viota d a c w h) = word
  obtain ⟨ho, h0, h1, h2, h3, h4, hm⟩ := layout_5_5_z3_2_2_2 0xB0#8 d a c w h hw
  rw [ho]
  generalize word.extractLsb' 0 19 = bits at *
  exact (if_pos hm).trans (by rw [h0, h1, h2, h3, h4])
theorem RoundTrip.vraddF32 (d : BitVec 5) (a : BitVec 5) (w : BitVec 2) (h : BitVec 2) : RoundTrip.Statement (.vraddF32 d a w h) := by
  intro _
  generalize hw : encodeBody (.vraddF32 d a w h) = word
  obtain ⟨ho, h0, h1, h2, h3, hm⟩ := layout_5_5_z5_2_2 0xB1#8 d a w h hw
  rw [ho]
  generalize word.extractLsb' 0 19 = bits at *
  exact (if_pos hm).trans (by rw [h0, h1, h2, h3])
theorem RoundTrip.vrmaxF32 (d : BitVec 5) (a : BitVec 5) (w : BitVec 2) (h : BitVec 2) : RoundTrip.Statement (.vrmaxF32 d a w h) := by
  intro _
  generalize hw : encodeBody (.vrmaxF32 d a w h) = word
  obtain ⟨ho, h0, h1, h2, h3, hm⟩ := layout_5_5_z5_2_2 0xB2#8 d a w h hw
  rw [ho]
  generalize word.extractLsb' 0 19 = bits at *
  exact (if_pos hm).trans (by rw [h0, h1, h2, h3])
theorem RoundTrip.vraddI32 (d : BitVec 5) (a : BitVec 5) (w : BitVec 2) (h : BitVec 2) : RoundTrip.Statement (.vraddI32 d a w h) := by
  intro _
  generalize hw : encodeBody (.vraddI32 d a w h) = word
  obtain ⟨ho, h0, h1, h2, h3, hm⟩ := layout_5_5_z5_2_2 0xB3#8 d a w h hw
  rw [ho]
  generalize word.extractLsb' 0 19 = bits at *
  exact (if_pos hm).trans (by rw [h0, h1, h2, h3])
theorem RoundTrip.vdotBf16 (d : BitVec 5) (a : BitVec 5) (b : BitVec 5) (w : BitVec 2) (h : BitVec 2) : RoundTrip.Statement (.vdotBf16 d a b w h) := by
  intro _
  generalize hw : encodeBody (.vdotBf16 d a b w h) = word
  obtain ⟨ho, h0, h1, h2, h3, h4⟩ := layout_5_5_5_2_2 0xB4#8 d a b w h hw
  rw [ho]
  generalize word.extractLsb' 0 19 = bits at *
  exact (show _ = some (Instr.vdotBf16 (bits.extractLsb' 14 5) (bits.extractLsb' 9 5) (bits.extractLsb' 4 5) (bits.extractLsb' 2 2) (bits.extractLsb' 0 2)) from rfl).trans (by rw [h0, h1, h2, h3, h4])
theorem RoundTrip.vcmpi (d : BitVec 5) (a : BitVec 5) (b : BitVec 5) (w : BitVec 2) (h : BitVec 2) : RoundTrip.Statement (.vcmpi d a b w h) := by
  intro _
  generalize hw : encodeBody (.vcmpi d a b w h) = word
  obtain ⟨ho, h0, h1, h2, h3, h4⟩ := layout_5_5_5_2_2 0xB5#8 d a b w h hw
  rw [ho]
  generalize word.extractLsb' 0 19 = bits at *
  exact (show _ = some (Instr.vcmpi (bits.extractLsb' 14 5) (bits.extractLsb' 9 5) (bits.extractLsb' 4 5) (bits.extractLsb' 2 2) (bits.extractLsb' 0 2)) from rfl).trans (by rw [h0, h1, h2, h3, h4])
theorem RoundTrip.vcnt (d : BitVec 5) (a : BitVec 5) (c : BitVec 2) (w : BitVec 2) (h : BitVec 2) : RoundTrip.Statement (.vcnt d a c w h) := by
  intro _
  generalize hw : encodeBody (.vcnt d a c w h) = word
  obtain ⟨ho, h0, h1, h2, h3, h4, hm⟩ := layout_5_5_z3_2_2_2 0xB6#8 d a c w h hw
  rw [ho]
  generalize word.extractLsb' 0 19 = bits at *
  exact (if_pos hm).trans (by rw [h0, h1, h2, h3, h4])
theorem RoundTrip.vclz (d : BitVec 5) (a : BitVec 5) (c : BitVec 2) (w : BitVec 2) (h : BitVec 2) : RoundTrip.Statement (.vclz d a c w h) := by
  intro _
  generalize hw : encodeBody (.vclz d a c w h) = word
  obtain ⟨ho, h0, h1, h2, h3, h4, hm⟩ := layout_5_5_z3_2_2_2 0xB7#8 d a c w h hw
  rw [ho]
  generalize word.extractLsb' 0 19 = bits at *
  exact (if_pos hm).trans (by rw [h0, h1, h2, h3, h4])
theorem RoundTrip.vmaskp (d : BitVec 5) (a : BitVec 5) (k : BitVec 1) (y : BitVec 1) (c : BitVec 2) (w : BitVec 2) (h : BitVec 2) : RoundTrip.Statement (.vmaskp d a k y c w h) := by
  intro _
  generalize hw : encodeBody (.vmaskp d a k y c w h) = word
  obtain ⟨ho, h0, h1, h2, h3, h4, h5, h6, hm⟩ := layout_5_5_z1_1_1_2_2_2 0xB8#8 d a k y c w h hw
  rw [ho]
  generalize word.extractLsb' 0 19 = bits at *
  exact (if_pos hm).trans (by rw [h0, h1, h2, h3, h4, h5, h6])
theorem RoundTrip.vptom (d : BitVec 5) (a : BitVec 5) (u : BitVec 2) (c : BitVec 2) (w : BitVec 2) (h : BitVec 2) : RoundTrip.Statement (.vptom d a u c w h) := by
  intro _
  generalize hw : encodeBody (.vptom d a u c w h) = word
  obtain ⟨ho, h0, h1, h2, h3, h4, h5, hm⟩ := layout_5_5_z1_2_2_2_2 0xB9#8 d a u c w h hw
  rw [ho]
  generalize word.extractLsb' 0 19 = bits at *
  exact (if_pos hm).trans (by rw [h0, h1, h2, h3, h4, h5])
theorem RoundTrip.vsclF32 (d : BitVec 5) (a : BitVec 5) (b : BitVec 5) (w : BitVec 2) (h : BitVec 2) : RoundTrip.Statement (.vsclF32 d a b w h) := by
  intro _
  generalize hw : encodeBody (.vsclF32 d a b w h) = word
  obtain ⟨ho, h0, h1, h2, h3, h4⟩ := layout_5_5_5_2_2 0xBA#8 d a b w h hw
  rw [ho]
  generalize word.extractLsb' 0 19 = bits at *
  exact (show _ = some (Instr.vsclF32 (bits.extractLsb' 14 5) (bits.extractLsb' 9 5) (bits.extractLsb' 4 5) (bits.extractLsb' 2 2) (bits.extractLsb' 0 2)) from rfl).trans (by rw [h0, h1, h2, h3, h4])
theorem RoundTrip.vchk (a : BitVec 5) (b : BitVec 5) (w : BitVec 2) (h : BitVec 2) : RoundTrip.Statement (.vchk a b w h) := by
  intro _
  generalize hw : encodeBody (.vchk a b w h) = word
  obtain ⟨ho, h0, h1, h2, h3, hm⟩ := layout_z5_5_5_2_2 0xBB#8 a b w h hw
  rw [ho]
  generalize word.extractLsb' 0 19 = bits at *
  exact (if_pos hm).trans (by rw [h0, h1, h2, h3])
theorem RoundTrip.vrsqe (d : BitVec 5) (a : BitVec 5) (w : BitVec 2) (h : BitVec 2) : RoundTrip.Statement (.vrsqe d a w h) := by
  intro _
  generalize hw : encodeBody (.vrsqe d a w h) = word
  obtain ⟨ho, h0, h1, h2, h3, hm⟩ := layout_5_5_z5_2_2 0xC0#8 d a w h hw
  rw [ho]
  generalize word.extractLsb' 0 19 = bits at *
  exact (if_pos hm).trans (by rw [h0, h1, h2, h3])
theorem RoundTrip.vrcpe (d : BitVec 5) (a : BitVec 5) (w : BitVec 2) (h : BitVec 2) : RoundTrip.Statement (.vrcpe d a w h) := by
  intro _
  generalize hw : encodeBody (.vrcpe d a w h) = word
  obtain ⟨ho, h0, h1, h2, h3, hm⟩ := layout_5_5_z5_2_2 0xC1#8 d a w h hw
  rw [ho]
  generalize word.extractLsb' 0 19 = bits at *
  exact (if_pos hm).trans (by rw [h0, h1, h2, h3])
theorem RoundTrip.vexp2 (d : BitVec 5) (a : BitVec 5) (w : BitVec 2) (h : BitVec 2) : RoundTrip.Statement (.vexp2 d a w h) := by
  intro _
  generalize hw : encodeBody (.vexp2 d a w h) = word
  obtain ⟨ho, h0, h1, h2, h3, hm⟩ := layout_5_5_z5_2_2 0xC2#8 d a w h hw
  rw [ho]
  generalize word.extractLsb' 0 19 = bits at *
  exact (if_pos hm).trans (by rw [h0, h1, h2, h3])
theorem RoundTrip.vlog2 (d : BitVec 5) (a : BitVec 5) (w : BitVec 2) (h : BitVec 2) : RoundTrip.Statement (.vlog2 d a w h) := by
  intro _
  generalize hw : encodeBody (.vlog2 d a w h) = word
  obtain ⟨ho, h0, h1, h2, h3, hm⟩ := layout_5_5_z5_2_2 0xC3#8 d a w h hw
  rw [ho]
  generalize word.extractLsb' 0 19 = bits at *
  exact (if_pos hm).trans (by rw [h0, h1, h2, h3])
theorem RoundTrip.vtanh (d : BitVec 5) (a : BitVec 5) (w : BitVec 2) (h : BitVec 2) : RoundTrip.Statement (.vtanh d a w h) := by
  intro _
  generalize hw : encodeBody (.vtanh d a w h) = word
  obtain ⟨ho, h0, h1, h2, h3, hm⟩ := layout_5_5_z5_2_2 0xC4#8 d a w h hw
  rw [ho]
  generalize word.extractLsb' 0 19 = bits at *
  exact (if_pos hm).trans (by rw [h0, h1, h2, h3])
theorem RoundTrip.vsig (d : BitVec 5) (a : BitVec 5) (w : BitVec 2) (h : BitVec 2) : RoundTrip.Statement (.vsig d a w h) := by
  intro _
  generalize hw : encodeBody (.vsig d a w h) = word
  obtain ⟨ho, h0, h1, h2, h3, hm⟩ := layout_5_5_z5_2_2 0xC5#8 d a w h hw
  rw [ho]
  generalize word.extractLsb' 0 19 = bits at *
  exact (if_pos hm).trans (by rw [h0, h1, h2, h3])
theorem RoundTrip.vshuf (d : BitVec 5) (p : BitVec 4) (x : BitVec 1) (k : BitVec 5) : RoundTrip.Statement (.vshuf d p x k) := by
  intro _
  generalize hw : encodeBody (.vshuf d p x k) = word
  obtain ⟨ho, h0, h1, h2, h3, hm⟩ := layout_5_4_1_5_o4 0xC6#8 d p x k hw
  rw [ho]
  generalize word.extractLsb' 0 19 = bits at *
  exact (if_pos hm).trans (by rw [h0, h1, h2, h3])
theorem RoundTrip.vswz (d : BitVec 5) (a : BitVec 5) (b : BitVec 5) (w : BitVec 2) (h : BitVec 2) : RoundTrip.Statement (.vswz d a b w h) := by
  intro _
  generalize hw : encodeBody (.vswz d a b w h) = word
  obtain ⟨ho, h0, h1, h2, h3, h4⟩ := layout_5_5_5_2_2 0xC7#8 d a b w h hw
  rw [ho]
  generalize word.extractLsb' 0 19 = bits at *
  exact (show _ = some (Instr.vswz (bits.extractLsb' 14 5) (bits.extractLsb' 9 5) (bits.extractLsb' 4 5) (bits.extractLsb' 2 2) (bits.extractLsb' 0 2)) from rfl).trans (by rw [h0, h1, h2, h3, h4])
theorem RoundTrip.vrotl (d : BitVec 5) (a : BitVec 5) (b : BitVec 5) (w : BitVec 2) (h : BitVec 2) : RoundTrip.Statement (.vrotl d a b w h) := by
  intro _
  generalize hw : encodeBody (.vrotl d a b w h) = word
  obtain ⟨ho, h0, h1, h2, h3, h4⟩ := layout_5_5_5_2_2 0xC8#8 d a b w h hw
  rw [ho]
  generalize word.extractLsb' 0 19 = bits at *
  exact (show _ = some (Instr.vrotl (bits.extractLsb' 14 5) (bits.extractLsb' 9 5) (bits.extractLsb' 4 5) (bits.extractLsb' 2 2) (bits.extractLsb' 0 2)) from rfl).trans (by rw [h0, h1, h2, h3, h4])
theorem RoundTrip.vcmpr (d : BitVec 5) (a : BitVec 5) (b : BitVec 5) (w : BitVec 2) (h : BitVec 2) : RoundTrip.Statement (.vcmpr d a b w h) := by
  intro _
  generalize hw : encodeBody (.vcmpr d a b w h) = word
  obtain ⟨ho, h0, h1, h2, h3, h4⟩ := layout_5_5_5_2_2 0xC9#8 d a b w h hw
  rw [ho]
  generalize word.extractLsb' 0 19 = bits at *
  exact (show _ = some (Instr.vcmpr (bits.extractLsb' 14 5) (bits.extractLsb' 9 5) (bits.extractLsb' 4 5) (bits.extractLsb' 2 2) (bits.extractLsb' 0 2)) from rfl).trans (by rw [h0, h1, h2, h3, h4])
theorem RoundTrip.vexpd (d : BitVec 5) (a : BitVec 5) (b : BitVec 5) (w : BitVec 2) (h : BitVec 2) : RoundTrip.Statement (.vexpd d a b w h) := by
  intro _
  generalize hw : encodeBody (.vexpd d a b w h) = word
  obtain ⟨ho, h0, h1, h2, h3, h4⟩ := layout_5_5_5_2_2 0xCA#8 d a b w h hw
  rw [ho]
  generalize word.extractLsb' 0 19 = bits at *
  exact (show _ = some (Instr.vexpd (bits.extractLsb' 14 5) (bits.extractLsb' 9 5) (bits.extractLsb' 4 5) (bits.extractLsb' 2 2) (bits.extractLsb' 0 2)) from rfl).trans (by rw [h0, h1, h2, h3, h4])
theorem RoundTrip.vcvtBf16F32 (d : BitVec 5) (a : BitVec 5) (r : BitVec 3) (w : BitVec 2) (h : BitVec 2) : RoundTrip.Statement (.vcvtBf16F32 d a r w h) := by
  intro _
  generalize hw : encodeBody (.vcvtBf16F32 d a r w h) = word
  obtain ⟨ho, h0, h1, h2, h3, h4, hm⟩ := layout_5_5_z2_3_2_2 0xCB#8 d a r w h hw
  rw [ho]
  generalize word.extractLsb' 0 19 = bits at *
  exact (if_pos hm).trans (by rw [h0, h1, h2, h3, h4])
theorem RoundTrip.vcvtF32Bf16 (d : BitVec 5) (a : BitVec 5) (r : BitVec 3) (w : BitVec 2) (h : BitVec 2) : RoundTrip.Statement (.vcvtF32Bf16 d a r w h) := by
  intro _
  generalize hw : encodeBody (.vcvtF32Bf16 d a r w h) = word
  obtain ⟨ho, h0, h1, h2, h3, h4, hm⟩ := layout_5_5_z2_3_2_2 0xCC#8 d a r w h hw
  rw [ho]
  generalize word.extractLsb' 0 19 = bits at *
  exact (if_pos hm).trans (by rw [h0, h1, h2, h3, h4])
theorem RoundTrip.vcvtS32F32 (d : BitVec 5) (a : BitVec 5) (r : BitVec 3) (w : BitVec 2) (h : BitVec 2) : RoundTrip.Statement (.vcvtS32F32 d a r w h) := by
  intro _
  generalize hw : encodeBody (.vcvtS32F32 d a r w h) = word
  obtain ⟨ho, h0, h1, h2, h3, h4, hm⟩ := layout_5_5_z2_3_2_2 0xCD#8 d a r w h hw
  rw [ho]
  generalize word.extractLsb' 0 19 = bits at *
  exact (if_pos hm).trans (by rw [h0, h1, h2, h3, h4])
theorem RoundTrip.vcvtF32S32 (d : BitVec 5) (a : BitVec 5) (r : BitVec 3) (w : BitVec 2) (h : BitVec 2) : RoundTrip.Statement (.vcvtF32S32 d a r w h) := by
  intro _
  generalize hw : encodeBody (.vcvtF32S32 d a r w h) = word
  obtain ⟨ho, h0, h1, h2, h3, h4, hm⟩ := layout_5_5_z2_3_2_2 0xCE#8 d a r w h hw
  rw [ho]
  generalize word.extractLsb' 0 19 = bits at *
  exact (if_pos hm).trans (by rw [h0, h1, h2, h3, h4])
theorem RoundTrip.vcvtE4m3F32 (d : BitVec 5) (a : BitVec 5) (r : BitVec 3) (w : BitVec 2) (h : BitVec 2) : RoundTrip.Statement (.vcvtE4m3F32 d a r w h) := by
  intro _
  generalize hw : encodeBody (.vcvtE4m3F32 d a r w h) = word
  obtain ⟨ho, h0, h1, h2, h3, h4, hm⟩ := layout_5_5_z2_3_2_2 0xCF#8 d a r w h hw
  rw [ho]
  generalize word.extractLsb' 0 19 = bits at *
  exact (if_pos hm).trans (by rw [h0, h1, h2, h3, h4])
theorem RoundTrip.vcvtF32E4m3 (d : BitVec 5) (a : BitVec 5) (r : BitVec 3) (w : BitVec 2) (h : BitVec 2) : RoundTrip.Statement (.vcvtF32E4m3 d a r w h) := by
  intro _
  generalize hw : encodeBody (.vcvtF32E4m3 d a r w h) = word
  obtain ⟨ho, h0, h1, h2, h3, h4, hm⟩ := layout_5_5_z2_3_2_2 0xD0#8 d a r w h hw
  rw [ho]
  generalize word.extractLsb' 0 19 = bits at *
  exact (if_pos hm).trans (by rw [h0, h1, h2, h3, h4])
theorem RoundTrip.vcvtE5m2F32 (d : BitVec 5) (a : BitVec 5) (r : BitVec 3) (w : BitVec 2) (h : BitVec 2) : RoundTrip.Statement (.vcvtE5m2F32 d a r w h) := by
  intro _
  generalize hw : encodeBody (.vcvtE5m2F32 d a r w h) = word
  obtain ⟨ho, h0, h1, h2, h3, h4, hm⟩ := layout_5_5_z2_3_2_2 0xD1#8 d a r w h hw
  rw [ho]
  generalize word.extractLsb' 0 19 = bits at *
  exact (if_pos hm).trans (by rw [h0, h1, h2, h3, h4])
theorem RoundTrip.vcvtF32E5m2 (d : BitVec 5) (a : BitVec 5) (r : BitVec 3) (w : BitVec 2) (h : BitVec 2) : RoundTrip.Statement (.vcvtF32E5m2 d a r w h) := by
  intro _
  generalize hw : encodeBody (.vcvtF32E5m2 d a r w h) = word
  obtain ⟨ho, h0, h1, h2, h3, h4, hm⟩ := layout_5_5_z2_3_2_2 0xD2#8 d a r w h hw
  rw [ho]
  generalize word.extractLsb' 0 19 = bits at *
  exact (if_pos hm).trans (by rw [h0, h1, h2, h3, h4])
theorem RoundTrip.vcvtF16F32 (d : BitVec 5) (a : BitVec 5) (r : BitVec 3) (w : BitVec 2) (h : BitVec 2) : RoundTrip.Statement (.vcvtF16F32 d a r w h) := by
  intro _
  generalize hw : encodeBody (.vcvtF16F32 d a r w h) = word
  obtain ⟨ho, h0, h1, h2, h3, h4, hm⟩ := layout_5_5_z2_3_2_2 0xD3#8 d a r w h hw
  rw [ho]
  generalize word.extractLsb' 0 19 = bits at *
  exact (if_pos hm).trans (by rw [h0, h1, h2, h3, h4])
theorem RoundTrip.vcvtF32F16 (d : BitVec 5) (a : BitVec 5) (r : BitVec 3) (w : BitVec 2) (h : BitVec 2) : RoundTrip.Statement (.vcvtF32F16 d a r w h) := by
  intro _
  generalize hw : encodeBody (.vcvtF32F16 d a r w h) = word
  obtain ⟨ho, h0, h1, h2, h3, h4, hm⟩ := layout_5_5_z2_3_2_2 0xD4#8 d a r w h hw
  rw [ho]
  generalize word.extractLsb' 0 19 = bits at *
  exact (if_pos hm).trans (by rw [h0, h1, h2, h3, h4])
theorem RoundTrip.qblk (d : BitVec 5) (a : BitVec 5) (f : BitVec 2) : RoundTrip.Statement (.qblk d a f) := by
  intro _
  generalize hw : encodeBody (.qblk d a f) = word
  obtain ⟨ho, h0, h1, h2, hm⟩ := layout_5_5_z3_2_o4 0xD5#8 d a f hw
  rw [ho]
  generalize word.extractLsb' 0 19 = bits at *
  exact (if_pos hm).trans (by rw [h0, h1, h2])
theorem RoundTrip.qblkb (d : BitVec 5) (a : BitVec 5) (f : BitVec 2) : RoundTrip.Statement (.qblkb d a f) := by
  intro _
  generalize hw : encodeBody (.qblkb d a f) = word
  obtain ⟨ho, h0, h1, h2, hm⟩ := layout_5_5_z3_2_o4 0xD6#8 d a f hw
  rw [ho]
  generalize word.extractLsb' 0 19 = bits at *
  exact (if_pos hm).trans (by rw [h0, h1, h2])
theorem RoundTrip.dqblk (d : BitVec 5) (a : BitVec 5) (f : BitVec 2) : RoundTrip.Statement (.dqblk d a f) := by
  intro _
  generalize hw : encodeBody (.dqblk d a f) = word
  obtain ⟨ho, h0, h1, h2, hm⟩ := layout_5_5_z3_2_o4 0xD7#8 d a f hw
  rw [ho]
  generalize word.extractLsb' 0 19 = bits at *
  exact (if_pos hm).trans (by rw [h0, h1, h2])
theorem RoundTrip.vpack (d : BitVec 5) (a : BitVec 5) (m : BitVec 3) (w : BitVec 2) (h : BitVec 2) : RoundTrip.Statement (.vpack d a m w h) := by
  intro _
  generalize hw : encodeBody (.vpack d a m w h) = word
  obtain ⟨ho, h0, h1, h2, h3, h4, hm⟩ := layout_5_5_z2_3_2_2 0xD8#8 d a m w h hw
  rw [ho]
  generalize word.extractLsb' 0 19 = bits at *
  exact (if_pos hm).trans (by rw [h0, h1, h2, h3, h4])
theorem RoundTrip.vunpk (d : BitVec 5) (a : BitVec 5) (m : BitVec 3) (w : BitVec 2) (h : BitVec 2) : RoundTrip.Statement (.vunpk d a m w h) := by
  intro _
  generalize hw : encodeBody (.vunpk d a m w h) = word
  obtain ⟨ho, h0, h1, h2, h3, h4, hm⟩ := layout_5_5_z2_3_2_2 0xD9#8 d a m w h hw
  rw [ho]
  generalize word.extractLsb' 0 19 = bits at *
  exact (if_pos hm).trans (by rw [h0, h1, h2, h3, h4])
theorem RoundTrip.vcnteq (d : BitVec 5) (a : BitVec 5) (b : BitVec 5) (w : BitVec 2) (h : BitVec 2) : RoundTrip.Statement (.vcnteq d a b w h) := by
  intro _
  generalize hw : encodeBody (.vcnteq d a b w h) = word
  obtain ⟨ho, h0, h1, h2, h3, h4⟩ := layout_5_5_5_2_2 0xDA#8 d a b w h hw
  rw [ho]
  generalize word.extractLsb' 0 19 = bits at *
  exact (show _ = some (Instr.vcnteq (bits.extractLsb' 14 5) (bits.extractLsb' 9 5) (bits.extractLsb' 4 5) (bits.extractLsb' 2 2) (bits.extractLsb' 0 2)) from rfl).trans (by rw [h0, h1, h2, h3, h4])
theorem RoundTrip.vscan (d : BitVec 5) (a : BitVec 5) (n : BitVec 1) (w : BitVec 2) (h : BitVec 2) : RoundTrip.Statement (.vscan d a n w h) := by
  intro _
  generalize hw : encodeBody (.vscan d a n w h) = word
  obtain ⟨ho, h0, h1, h2, h3, h4, hm⟩ := layout_5_5_z4_1_2_2 0xDB#8 d a n w h hw
  rw [ho]
  generalize word.extractLsb' 0 19 = bits at *
  exact (if_pos hm).trans (by rw [h0, h1, h2, h3, h4])
theorem RoundTrip.aSet (x : BitVec 7) (w : BitVec 2) (im : BitVec 10) : RoundTrip.Statement (.aSet x w im) := by
  intro _
  generalize hw : encodeBody (.aSet x w im) = word
  obtain ⟨ho, h0, h1, h2⟩ := layout_7_2_10 0xE0#8 x w im hw
  rw [ho]
  generalize word.extractLsb' 0 19 = bits at *
  exact (show _ = some (Instr.aSet (bits.extractLsb' 12 7) (bits.extractLsb' 10 2) (bits.extractLsb' 0 10)) from rfl).trans (by rw [h0, h1, h2])
theorem RoundTrip.aAdd (x : BitVec 7) (w : BitVec 2) (y : BitVec 7) (v : BitVec 2) (q : BitVec 1) : RoundTrip.Statement (.aAdd x w y v q) := by
  intro _
  generalize hw : encodeBody (.aAdd x w y v q) = word
  obtain ⟨ho, h0, h1, h2, h3, h4⟩ := layout_7_2_7_2_1 0xE1#8 x w y v q hw
  rw [ho]
  generalize word.extractLsb' 0 19 = bits at *
  exact (show _ = some (Instr.aAdd (bits.extractLsb' 12 7) (bits.extractLsb' 10 2) (bits.extractLsb' 3 7) (bits.extractLsb' 1 2) (bits.extractLsb' 0 1)) from rfl).trans (by rw [h0, h1, h2, h3, h4])
theorem RoundTrip.aCopy (x : BitVec 7) (w : BitVec 2) (y : BitVec 7) (v : BitVec 2) (q : BitVec 1) : RoundTrip.Statement (.aCopy x w y v q) := by
  intro _
  generalize hw : encodeBody (.aCopy x w y v q) = word
  obtain ⟨ho, h0, h1, h2, h3, h4⟩ := layout_7_2_7_2_1 0xE2#8 x w y v q hw
  rw [ho]
  generalize word.extractLsb' 0 19 = bits at *
  exact (show _ = some (Instr.aCopy (bits.extractLsb' 12 7) (bits.extractLsb' 10 2) (bits.extractLsb' 3 7) (bits.extractLsb' 1 2) (bits.extractLsb' 0 1)) from rfl).trans (by rw [h0, h1, h2, h3, h4])
theorem RoundTrip.aHash (x : BitVec 7) (w : BitVec 2) (y : BitVec 7) (v : BitVec 2) : RoundTrip.Statement (.aHash x w y v) := by
  intro _
  generalize hw : encodeBody (.aHash x w y v) = word
  obtain ⟨ho, h0, h1, h2, h3, hm⟩ := layout_7_2_7_2_z1 0xE3#8 x w y v hw
  rw [ho]
  generalize word.extractLsb' 0 19 = bits at *
  exact (if_pos hm).trans (by rw [h0, h1, h2, h3])
theorem RoundTrip.aAbsorb (x : BitVec 7) (w : BitVec 2) (y : BitVec 7) (v : BitVec 2) (q : BitVec 1) : RoundTrip.Statement (.aAbsorb x w y v q) := by
  intro _
  generalize hw : encodeBody (.aAbsorb x w y v q) = word
  obtain ⟨ho, h0, h1, h2, h3, h4⟩ := layout_7_2_7_2_1 0xE4#8 x w y v q hw
  rw [ho]
  generalize word.extractLsb' 0 19 = bits at *
  exact (show _ = some (Instr.aAbsorb (bits.extractLsb' 12 7) (bits.extractLsb' 10 2) (bits.extractLsb' 3 7) (bits.extractLsb' 1 2) (bits.extractLsb' 0 1)) from rfl).trans (by rw [h0, h1, h2, h3, h4])
theorem RoundTrip.aCount (x : BitVec 7) (w : BitVec 2) (im : BitVec 10) : RoundTrip.Statement (.aCount x w im) := by
  intro _
  generalize hw : encodeBody (.aCount x w im) = word
  obtain ⟨ho, h0, h1, h2⟩ := layout_7_2_10 0xE5#8 x w im hw
  rw [ho]
  generalize word.extractLsb' 0 19 = bits at *
  exact (show _ = some (Instr.aCount (bits.extractLsb' 12 7) (bits.extractLsb' 10 2) (bits.extractLsb' 0 10)) from rfl).trans (by rw [h0, h1, h2])
theorem RoundTrip.aFwd (k : BitVec 2) (p : BitVec 6) : RoundTrip.Statement (.aFwd k p) := by
  intro _
  generalize hw : encodeBody (.aFwd k p) = word
  obtain ⟨ho, h0, h1, hm⟩ := layout_z11_2_6 0xE6#8 k p hw
  rw [ho]
  generalize word.extractLsb' 0 19 = bits at *
  exact (if_pos hm).trans (by rw [h0, h1])
theorem RoundTrip.aRoute : RoundTrip.Statement .aRoute := by
  intro _
  generalize hw : encodeBody .aRoute = word
  obtain ⟨ho, hm⟩ := layout_z19 0xE7#8 hw
  rw [ho]
  generalize word.extractLsb' 0 19 = bits at *
  exact if_pos hm
theorem RoundTrip.aDrop : RoundTrip.Statement .aDrop := by
  intro _
  generalize hw : encodeBody .aDrop = word
  obtain ⟨ho, hm⟩ := layout_z19 0xE8#8 hw
  rw [ho]
  generalize word.extractLsb' 0 19 = bits at *
  exact if_pos hm
theorem RoundTrip.aMirror (im : BitVec 10) : RoundTrip.Statement (.aMirror im) := by
  intro _
  generalize hw : encodeBody (.aMirror im) = word
  obtain ⟨ho, h0, hm⟩ := layout_z9_10 0xE9#8 im hw
  rw [ho]
  generalize word.extractLsb' 0 19 = bits at *
  exact (if_pos hm).trans (by rw [h0])
theorem RoundTrip.aMeter (x : BitVec 7) (w : BitVec 2) (y : BitVec 7) (v : BitVec 2) (q : BitVec 1) : RoundTrip.Statement (.aMeter x w y v q) := by
  intro _
  generalize hw : encodeBody (.aMeter x w y v q) = word
  obtain ⟨ho, h0, h1, h2, h3, h4⟩ := layout_7_2_7_2_1 0xEA#8 x w y v q hw
  rw [ho]
  generalize word.extractLsb' 0 19 = bits at *
  exact (show _ = some (Instr.aMeter (bits.extractLsb' 12 7) (bits.extractLsb' 10 2) (bits.extractLsb' 3 7) (bits.extractLsb' 1 2) (bits.extractLsb' 0 1)) from rfl).trans (by rw [h0, h1, h2, h3, h4])
theorem RoundTrip.aRegadd (x : BitVec 7) (w : BitVec 2) (y : BitVec 7) (v : BitVec 2) (q : BitVec 1) : RoundTrip.Statement (.aRegadd x w y v q) := by
  intro _
  generalize hw : encodeBody (.aRegadd x w y v q) = word
  obtain ⟨ho, h0, h1, h2, h3, h4⟩ := layout_7_2_7_2_1 0xEB#8 x w y v q hw
  rw [ho]
  generalize word.extractLsb' 0 19 = bits at *
  exact (show _ = some (Instr.aRegadd (bits.extractLsb' 12 7) (bits.extractLsb' 10 2) (bits.extractLsb' 3 7) (bits.extractLsb' 1 2) (bits.extractLsb' 0 1)) from rfl).trans (by rw [h0, h1, h2, h3, h4])
theorem RoundTrip.aPunt (im : BitVec 10) : RoundTrip.Statement (.aPunt im) := by
  intro _
  generalize hw : encodeBody (.aPunt im) = word
  obtain ⟨ho, h0, hm⟩ := layout_z9_10 0xEC#8 im hw
  rw [ho]
  generalize word.extractLsb' 0 19 = bits at *
  exact (if_pos hm).trans (by rw [h0])
theorem RoundTrip.aTrunc (im : BitVec 10) : RoundTrip.Statement (.aTrunc im) := by
  intro _
  generalize hw : encodeBody (.aTrunc im) = word
  obtain ⟨ho, h0, hm⟩ := layout_z9_10 0xED#8 im hw
  rw [ho]
  generalize word.extractLsb' 0 19 = bits at *
  exact (if_pos hm).trans (by rw [h0])
theorem RoundTrip.trap (im : BitVec 14) : RoundTrip.Statement (.trap im) := by
  intro _
  generalize hw : encodeBody (.trap im) = word
  obtain ⟨ho, h0, hm⟩ := layout_z5_14 0xF0#8 im hw
  rw [ho]
  generalize word.extractLsb' 0 19 = bits at *
  exact (if_pos hm).trans (by rw [h0])
theorem RoundTrip.tret : RoundTrip.Statement .tret := by
  intro _
  generalize hw : encodeBody .tret = word
  obtain ⟨ho, hm⟩ := layout_z19 0xF1#8 hw
  rw [ho]
  generalize word.extractLsb' 0 19 = bits at *
  exact if_pos hm
theorem RoundTrip.assay (d : BitVec 5) (a : BitVec 5) : RoundTrip.Statement (.assay d a) := by
  intro _
  generalize hw : encodeBody (.assay d a) = word
  obtain ⟨ho, h0, h1, hm⟩ := layout_5_5_z9 0xF2#8 d a hw
  rw [ho]
  generalize word.extractLsb' 0 19 = bits at *
  exact (if_pos hm).trans (by rw [h0, h1])
theorem RoundTrip.halt : RoundTrip.Statement .halt := by
  intro _
  generalize hw : encodeBody .halt = word
  obtain ⟨ho, hm⟩ := layout_z19 0xF3#8 hw
  rw [ho]
  generalize word.extractLsb' 0 19 = bits at *
  exact if_pos hm
theorem RoundTrip.bar : RoundTrip.Statement .bar := by
  intro _
  generalize hw : encodeBody .bar = word
  obtain ⟨ho, hm⟩ := layout_z19 0xF4#8 hw
  rw [ho]
  generalize word.extractLsb' 0 19 = bits at *
  exact if_pos hm
theorem RoundTrip.pitch : RoundTrip.Statement .pitch := by
  intro _
  generalize hw : encodeBody .pitch = word
  obtain ⟨ho, hm⟩ := layout_z19 0xF5#8 hw
  rw [ho]
  generalize word.extractLsb' 0 19 = bits at *
  exact if_pos hm
theorem RoundTrip.wait (a : BitVec 5) (b : BitVec 5) (c : BitVec 1) : RoundTrip.Statement (.wait a b c) := by
  intro _
  generalize hw : encodeBody (.wait a b c) = word
  obtain ⟨ho, h0, h1, h2, hm⟩ := layout_z5_5_5_z3_1 0xF6#8 a b c hw
  rw [ho]
  generalize word.extractLsb' 0 19 = bits at *
  exact (if_pos hm).trans (by rw [h0, h1, h2])
theorem RoundTrip.cnt (d : BitVec 5) (a : BitVec 5) (b : BitVec 5) (m : BitVec 2) : RoundTrip.Statement (.cnt d a b m) := by
  intro _
  generalize hw : encodeBody (.cnt d a b m) = word
  obtain ⟨ho, h0, h1, h2, h3, hm⟩ := layout_5_5_5_z2_2 0xF7#8 d a b m hw
  rw [ho]
  generalize word.extractLsb' 0 19 = bits at *
  exact (if_pos hm).trans (by rw [h0, h1, h2, h3])
theorem RoundTrip.rollback (g : Nat) : RoundTrip.Statement (.rollback g) := fun h => Bool.noConfusion h
theorem RoundTrip.resultLand (g : Nat) (k : Nat) : RoundTrip.Statement (.resultLand g k) := fun h => Bool.noConfusion h
theorem RoundTrip.contextResume (g : Nat) (k : Nat) (x : Nat) : RoundTrip.Statement (.contextResume g k x) := fun h => Bool.noConfusion h
theorem RoundTrip.withholdDrain (g : Nat) (k : Nat) : RoundTrip.Statement (.withholdDrain g k) := fun h => Bool.noConfusion h
theorem RoundTrip.arrivalCounterUpdate (g : Nat) : RoundTrip.Statement (.arrivalCounterUpdate g) := fun h => Bool.noConfusion h
theorem RoundTrip.contextLaunch (g : Nat) (k : Nat) : RoundTrip.Statement (.contextLaunch g k) := fun h => Bool.noConfusion h
theorem RoundTrip.barRelease (g : Nat) : RoundTrip.Statement (.barRelease g) := fun h => Bool.noConfusion h
theorem RoundTrip.pitchComplete (g : Nat) (k : Nat) : RoundTrip.Statement (.pitchComplete g k) := fun h => Bool.noConfusion h
theorem RoundTrip.localBoundary (m : Nat) : RoundTrip.Statement (.localBoundary m) := fun h => Bool.noConfusion h
theorem RoundTrip.pitchStart (m : Nat) : RoundTrip.Statement (.pitchStart m) := fun h => Bool.noConfusion h
theorem RoundTrip.syncIdle (m : Nat) (p : Nat) (fr : Frame) : RoundTrip.Statement (.syncIdle m p fr) := fun h => Bool.noConfusion h
theorem RoundTrip.syncReady (m : Nat) (p : Nat) (fr : Frame) : RoundTrip.Statement (.syncReady m p fr) := fun h => Bool.noConfusion h
theorem RoundTrip.syncPending (m : Nat) (p : Nat) (fr : Frame) : RoundTrip.Statement (.syncPending m p fr) := fun h => Bool.noConfusion h
theorem RoundTrip.syncGo (m : Nat) (p : Nat) (fr : Frame) : RoundTrip.Statement (.syncGo m p fr) := fun h => Bool.noConfusion h
theorem RoundTrip.syncStop (m : Nat) (p : Nat) (fr : Frame) : RoundTrip.Statement (.syncStop m p fr) := fun h => Bool.noConfusion h
theorem RoundTrip.syncReplay (m : Nat) (p : Nat) (fr : Frame) : RoundTrip.Statement (.syncReplay m p fr) := fun h => Bool.noConfusion h
theorem RoundTrip.syncLoss (m : Nat) (p : Nat) : RoundTrip.Statement (.syncLoss m p) := fun h => Bool.noConfusion h
theorem RoundTrip.goTimeout (m : Nat) : RoundTrip.Statement (.goTimeout m) := fun h => Bool.noConfusion h
theorem RoundTrip.straggler (m : Nat) : RoundTrip.Statement (.straggler m) := fun h => Bool.noConfusion h
theorem RoundTrip.mmaStart (g : Nat) (k : Nat) : RoundTrip.Statement (.mmaStart g k) := fun h => Bool.noConfusion h
theorem RoundTrip.mmaRetire (g : Nat) (k : Nat) : RoundTrip.Statement (.mmaRetire g k) := fun h => Bool.noConfusion h
theorem RoundTrip.mmaLand (g : Nat) (k : Nat) : RoundTrip.Statement (.mmaLand g k) := fun h => Bool.noConfusion h
theorem RoundTrip.foldStart (g : Nat) (k : Nat) : RoundTrip.Statement (.foldStart g k) := fun h => Bool.noConfusion h
theorem RoundTrip.foldComplete (g : Nat) (k : Nat) : RoundTrip.Statement (.foldComplete g k) := fun h => Bool.noConfusion h
theorem RoundTrip.localCopyComplete (g : Nat) (k : Nat) : RoundTrip.Statement (.localCopyComplete g k) := fun h => Bool.noConfusion h
theorem RoundTrip.copyEngineComplete (g : Nat) (e : Nat) : RoundTrip.Statement (.copyEngineComplete g e) := fun h => Bool.noConfusion h
theorem RoundTrip.xsndDelivery (g : Nat) (k : Nat) : RoundTrip.Statement (.xsndDelivery g k) := fun h => Bool.noConfusion h
theorem RoundTrip.xrcvComplete (g : Nat) (k : Nat) : RoundTrip.Statement (.xrcvComplete g k) := fun h => Bool.noConfusion h
theorem RoundTrip.sealComplete (g : Nat) (k : Nat) : RoundTrip.Statement (.sealComplete g k) := fun h => Bool.noConfusion h
theorem RoundTrip.openComplete (g : Nat) (k : Nat) : RoundTrip.Statement (.openComplete g k) := fun h => Bool.noConfusion h
theorem RoundTrip.spldSwitch (g : Nat) (k : Nat) : RoundTrip.Statement (.spldSwitch g k) := fun h => Bool.noConfusion h
theorem RoundTrip.fabricDepart (g : Nat) (k : Nat) : RoundTrip.Statement (.fabricDepart g k) := fun h => Bool.noConfusion h
theorem RoundTrip.untimedComplete (g : Nat) (k : Nat) (x : Nat) : RoundTrip.Statement (.untimedComplete g k x) := fun h => Bool.noConfusion h
theorem RoundTrip.cairnWrite (r : Nat) (b : Nat) : RoundTrip.Statement (.cairnWrite r b) := fun h => Bool.noConfusion h
theorem RoundTrip.cairnRetry (r : Nat) (b : Nat) : RoundTrip.Statement (.cairnRetry r b) := fun h => Bool.noConfusion h
theorem RoundTrip.responseTimeout (g : Nat) (k : Nat) (x : Nat) : RoundTrip.Statement (.responseTimeout g k x) := fun h => Bool.noConfusion h
theorem RoundTrip.packetIngress (p : Nat) (pk : Option (List Byte)) : RoundTrip.Statement (.packetIngress p pk) := fun h => Bool.noConfusion h
theorem RoundTrip.importRequest (p : ImportInput) : RoundTrip.Statement (.importRequest p) := fun h => Bool.noConfusion h
theorem RoundTrip.absorbLineWrite (g : Nat) (k : Nat) (bk : Nat) : RoundTrip.Statement (.absorbLineWrite g k bk) := fun h => Bool.noConfusion h
theorem RoundTrip.absorbAbandon (p : Nat) : RoundTrip.Statement (.absorbAbandon p) := fun h => Bool.noConfusion h
theorem RoundTrip.puntDelivery (p : Nat) : RoundTrip.Statement (.puntDelivery p) := fun h => Bool.noConfusion h
theorem RoundTrip.tableWriteApply (p : Nat) : RoundTrip.Statement (.tableWriteApply p) := fun h => Bool.noConfusion h
theorem RoundTrip.packetEgress (p : Nat) : RoundTrip.Statement (.packetEgress p) := fun h => Bool.noConfusion h
theorem RoundTrip.frameIdle (p : Nat) (fr : Frame) : RoundTrip.Statement (.frameIdle p fr) := fun h => Bool.noConfusion h
theorem RoundTrip.framePacket (p : Nat) (fr : Frame) : RoundTrip.Statement (.framePacket p fr) := fun h => Bool.noConfusion h
theorem RoundTrip.frameScheduled (p : Nat) (fr : Frame) : RoundTrip.Statement (.frameScheduled p fr) := fun h => Bool.noConfusion h
theorem RoundTrip.frameCalibration (p : Nat) (fr : Frame) : RoundTrip.Statement (.frameCalibration p fr) := fun h => Bool.noConfusion h
theorem RoundTrip.linkSilenceTimeout (p : Nat) : RoundTrip.Statement (.linkSilenceTimeout p) := fun h => Bool.noConfusion h
theorem RoundTrip.linkTrain (p : Nat) (ln : LinkInfo) : RoundTrip.Statement (.linkTrain p ln) := fun h => Bool.noConfusion h
theorem RoundTrip.scheduledDeparture (m : Nat) (r : Nat) : RoundTrip.Statement (.scheduledDeparture m r) := fun h => Bool.noConfusion h
theorem RoundTrip.scheduledLanding (p : Nat) : RoundTrip.Statement (.scheduledLanding p) := fun h => Bool.noConfusion h
theorem RoundTrip.clusterExchange (m : Nat) (r : Nat) : RoundTrip.Statement (.clusterExchange m r) := fun h => Bool.noConfusion h
theorem RoundTrip.reductionStep (m : Nat) (r : Nat) : RoundTrip.Statement (.reductionStep m r) := fun h => Bool.noConfusion h
theorem RoundTrip.migration (mq : MigrationInput) : RoundTrip.Statement (.migration mq) := fun h => Bool.noConfusion h
theorem RoundTrip.rekey (n : Nat) : RoundTrip.Statement (.rekey n) := fun h => Bool.noConfusion h
theorem RoundTrip.admission (w : Nat) (pr : Nat) : RoundTrip.Statement (.admission w pr) := fun h => Bool.noConfusion h
theorem RoundTrip.capture (t : CaptureInput) : RoundTrip.Statement (.capture t) := fun h => Bool.noConfusion h
theorem RoundTrip.captureEnd (q : SetInput) : RoundTrip.Statement (.captureEnd q) := fun h => Bool.noConfusion h
theorem RoundTrip.restoreRelease (q : Nat) : RoundTrip.Statement (.restoreRelease q) := fun h => Bool.noConfusion h
theorem RoundTrip.domainPartEnd (m : Nat) : RoundTrip.Statement (.domainPartEnd m) := fun h => Bool.noConfusion h
theorem RoundTrip.triggerTaskEnd (t : Nat) : RoundTrip.Statement (.triggerTaskEnd t) := fun h => Bool.noConfusion h
theorem RoundTrip.fuseRead (rq : AssayReq) : RoundTrip.Statement (.fuseRead rq) := fun h => Bool.noConfusion h
theorem RoundTrip.nonce (rq : AssayReq) : RoundTrip.Statement (.nonce rq) := fun h => Bool.noConfusion h
theorem RoundTrip.debugToken (rq : AssayReq) : RoundTrip.Statement (.debugToken rq) := fun h => Bool.noConfusion h
theorem RoundTrip.worldCreate (rq : AssayReq) : RoundTrip.Statement (.worldCreate rq) := fun h => Bool.noConfusion h
theorem RoundTrip.worldConfig (rq : AssayReq) : RoundTrip.Statement (.worldConfig rq) := fun h => Bool.noConfusion h
theorem RoundTrip.keyImport (rq : AssayReq) : RoundTrip.Statement (.keyImport rq) := fun h => Bool.noConfusion h
theorem RoundTrip.imageLoad (rq : AssayReq) : RoundTrip.Statement (.imageLoad rq) := fun h => Bool.noConfusion h
theorem RoundTrip.imageUnload (rq : AssayReq) : RoundTrip.Statement (.imageUnload rq) := fun h => Bool.noConfusion h
theorem RoundTrip.worldReset (rq : AssayReq) : RoundTrip.Statement (.worldReset rq) := fun h => Bool.noConfusion h
theorem RoundTrip.report (rq : AssayReq) : RoundTrip.Statement (.report rq) := fun h => Bool.noConfusion h
theorem RoundTrip.extend (rq : AssayReq) : RoundTrip.Statement (.extend rq) := fun h => Bool.noConfusion h
theorem RoundTrip.deploy (rq : AssayReq) : RoundTrip.Statement (.deploy rq) := fun h => Bool.noConfusion h
theorem RoundTrip.retire (rq : AssayReq) : RoundTrip.Statement (.retire rq) := fun h => Bool.noConfusion h
theorem RoundTrip.scrubComplete (wd : Nat) : RoundTrip.Statement (.scrubComplete wd) := fun h => Bool.noConfusion h
theorem RoundTrip.launch (fn : Nat) (v : BitVec 64) : RoundTrip.Statement (.launch fn v) := fun h => Bool.noConfusion h
theorem RoundTrip.ptchg (fn : Nat) (v : Word) : RoundTrip.Statement (.ptchg fn v) := fun h => Bool.noConfusion h
theorem RoundTrip.shootw (v : Word) : RoundTrip.Statement (.shootw v) := fun h => Bool.noConfusion h
theorem RoundTrip.selftGo (v : Word) : RoundTrip.Statement (.selftGo v) := fun h => Bool.noConfusion h
theorem RoundTrip.selftComplete (pass : Bool) : RoundTrip.Statement (.selftComplete pass) := fun h => Bool.noConfusion h
theorem RoundTrip.registerWrite (fn : Nat) (off : Nat) (wd : Nat) (v : BitVec 64) : RoundTrip.Statement (.registerWrite fn off wd v) := fun h => Bool.noConfusion h
theorem RoundTrip.functionLevelReset (fn : Nat) : RoundTrip.Statement (.functionLevelReset fn) := fun h => Bool.noConfusion h
theorem RoundTrip.pfFunctionLevelReset : RoundTrip.Statement .pfFunctionLevelReset := fun h => Bool.noConfusion h
theorem RoundTrip.pcieHotReset : RoundTrip.Statement .pcieHotReset := fun h => Bool.noConfusion h
theorem RoundTrip.powerOn (cold : Bool) : RoundTrip.Statement (.powerOn cold) := fun h => Bool.noConfusion h
theorem RoundTrip.pcieLinkUp : RoundTrip.Statement .pcieLinkUp := fun h => Bool.noConfusion h
theorem RoundTrip.hbmTrain (die : Nat) : RoundTrip.Statement (.hbmTrain die) := fun h => Bool.noConfusion h
theorem RoundTrip.tickCalibration : RoundTrip.Statement .tickCalibration := fun h => Bool.noConfusion h
theorem RoundTrip.pipelineReady (p : ReadyInput) : RoundTrip.Statement (.pipelineReady p) := fun h => Bool.noConfusion h
theorem RoundTrip.supplySag : RoundTrip.Statement .supplySag := fun h => Bool.noConfusion h
theorem RoundTrip.powerFaultReset : RoundTrip.Statement .powerFaultReset := fun h => Bool.noConfusion h
theorem RoundTrip.tokenRefill : RoundTrip.Statement .tokenRefill := fun h => Bool.noConfusion h
theorem RoundTrip.supplyRecovery : RoundTrip.Statement .supplyRecovery := fun h => Bool.noConfusion h
theorem RoundTrip.syncTick (m : Nat) (p : Nat) : RoundTrip.Statement (.syncTick m p) := fun h => Bool.noConfusion h
theorem RoundTrip.provisioning (ky : BitVec 256) : RoundTrip.Statement (.provisioning ky) := fun h => Bool.noConfusion h
theorem RoundTrip.launchWithdrawal (wd : Nat) (pr : Nat) (ix : Nat) : RoundTrip.Statement (.launchWithdrawal wd pr ix) := fun h => Bool.noConfusion h

end Sys2Proof.Laws
end

