-- ==== Sys2Proof/Tests/Slice0.lean ====
section
/-! SUPPORT. Tests of one step each, with expected values worked by hand from the spec's encodings, tables and examples; ill-formed
terms that WellFormed refuses; and for each obligation with hypotheses, states and operands that meet them. -/

namespace Sys2Proof.Tests

set_option Elab.async false

open Sys2Proof.Machine Sys2Proof.Claims

/-- A module whose one listed cluster is 0, with what a test needs of it. -/
def small (cl : Cluster) : State := { State.reset with clusters := [(0, cl)] }

/-- A module whose one listed core is core 0 of cluster 0, in a pitch or in trigger mode. -/
def coreState (c : Core) : State := small { cores := [(0, c)] }
def coreTrigger (c : Core) : State := small { trigger := true, cores := [(0, c)] }

/-- A module whose one listed context is the one in hand. -/
def ctxState (x : Ctx) : State := coreState { ctxs := [(0, x)] }
def ctxTrigger (x : Ctx) : State := coreTrigger { ctxs := [(0, x)] }

/-- A state with scalar, coordinate or vector registers. -/
def scalars (l : Tbl Word) : State := ctxState { s := l }
def coords (l : Tbl Word) : State := ctxState { c := l }
def vectors (l : Tbl Vec) : State := ctxState { v := l }

/-- What a step put in flight: landing cycle, destination, and the value under its mask. -/
def flights (o : Out) : List Result := match o with
  | .next t => t.here.flight
  | _ => []
def landed (o : Out) : List (Nat × Dest × Nat) := (flights o).map fun r => (r.due, r.dest, (r.val &&& r.mask).toNat)
def flagged (o : Out) : List Word := (flights o).map (·.flags)

/-- The cause of the trap that a step took, and the state it answers. -/
def trapOf (o : Out) : Option Nat := match o with
  | .next t => t.cur.trapped.map (·.1)
  | _ => none
def after (o : Out) : State := match o with
  | .next t => t
  | _ => State.reset

/-- The lanes of width e, from lane 0 up, packed in a vector register; and the first n lanes of one. -/
def pack (e : Nat) (l : List Nat) : Vec := BitVec.ofNat 1024 (l.foldr (fun x a => x + a * 2 ^ e) 0)
def lanesOf (e n : Nat) (o : Out) : List Nat := ((flights o).map fun r => (List.range n).map fun i => elem r.val (e * i) e).flatten

/-! ### Decoding: words written out from the fields of R66 and R67 (03) -/

theorem test_decode_add : decodeSlot 0x00090810 = .ok ⟨false, 0, .add 4 4 1⟩ := by decide +kernel
theorem test_decode_mul : decodeSlot 0x00214220 = .ok ⟨false, 0, .mul 5 1 2⟩ := by decide +kernel
theorem test_decode_loop : decodeSlot 0x01A1D1FC = .ok ⟨false, 0, .loop 7 8 0x1FC⟩ := by decide +kernel
theorem test_decode_cmp : decodeSlot 0x8128885A = .ok ⟨true, 0, .cmp 2 4 5 1 2⟩ := by decide +kernel
theorem test_decode_cmpi : decodeSlot 0x01308601 = .ok ⟨false, 0, .cmpi 2 3 0 1⟩ := by decide +kernel
theorem test_decode_caddi : decodeSlot 0x01688408 = .ok ⟨false, 0, .caddi 2 2 8⟩ := by decide +kernel
theorem test_decode_ld32 : decodeSlot 0x02218008 = .ok ⟨false, 0, .ld32 6 0 8⟩ := by decide +kernel
theorem test_decode_mmaz : decodeSlot 0x830C4018 = .ok ⟨true, 0, .mmaz 1 1 0 1 2 0⟩ := by decide +kernel
theorem test_decode_hget : decodeSlot 0x835A96C1 = .ok ⟨true, 0, .hget 10 11 12 1⟩ := by decide +kernel
theorem test_decode_gth : decodeSlot 0x936A96C0 = .ok ⟨true, 2, .gth 10 11 12 0⟩ := by decide +kernel
theorem test_decode_vfma : decodeSlot 0x9418C228 = .ok ⟨true, 2, .vfmaF32 3 1 2 2 0⟩ := by decide +kernel
theorem test_decode_vcvt : decodeSlot 0x867A5048 = .ok ⟨true, 0, .vcvtE4m3F32 9 8 4 2 0⟩ := by decide +kernel
theorem test_decode_vcvt_wide : decodeSlot 0x86810208 = .ok ⟨true, 0, .vcvtF32E4m3 4 1 0 2 0⟩ := by decide +kernel
theorem test_decode_vrsqe : decodeSlot 0x06014808 = .ok ⟨false, 0, .vrsqe 5 4 2 0⟩ := by decide +kernel
theorem test_decode_vmov : decodeSlot 0x8561D408 = .ok ⟨true, 0, .vmov 7 10 2 0⟩ := by decide +kernel
theorem test_decode_vshli : decodeSlot 0x05416C82 = .ok ⟨false, 0, .vshli 5 2 6 8 0 2⟩ := by decide +kernel
theorem test_decode_wait : decodeSlot 0x87B00851 = .ok ⟨true, 0, .wait 4 5 1⟩ := by decide +kernel
theorem test_decode_wait_pair : decodeSlot 0x07B02D71 = .ok ⟨false, 0, .wait 22 23 1⟩ := by decide +kernel
theorem test_decode_punt : decodeSlot 0x87600010 = .ok ⟨true, 0, .aPunt 16⟩ := by decide +kernel
theorem test_decode_route : decodeSlot 0x07380000 = .ok ⟨false, 0, .aRoute⟩ := by decide +kernel
theorem test_decode_reserved : decodeSlot 0x01C00000 = .error .opcodeUndefined ∧ decodeSlot 0x07C00000 = .error .opcodeUndefined := by
  decide +kernel
theorem test_decode_unused : decodeSlot 0x00000001 = .error .operandIllegal := by decide +kernel
theorem test_encode_hget : encodeSlot ⟨true, 0, .hget 10 11 12 0⟩ = 0x835A96C0 := by decide +kernel
theorem test_bundle_head : headPositions 0xA8001204 = [0, 2, 4] := by decide +kernel

/-! ### Ill-formed terms, one for each check of WellFormed -/

theorem test_ill_low : (Instr.ld32 6 16 8).wf = false ∧ (Instr.cadd 1 2 17 0).wf = false ∧ (Instr.pand 16 0 0 0 0 0).wf = false := by decide
theorem test_ill_even : (Instr.cmp 3 1 2 1 0).wf = false ∧ (Instr.ld2 5 1 0).wf = false ∧ (Instr.vmaskp 3 1 1 0 0 0 0).wf = false := by decide
theorem test_ill_special : (Instr.movs 1 12).wf = false ∧ (Instr.movt 12 1).wf = false := by decide
theorem test_ill_form : (Instr.mov 1 16 1).wf = false ∧ (Instr.mov 1 1 2).wf = false ∧ (Instr.mov 1 1 3).wf = false ∧
    (Instr.pset 1 1 1).wf = false ∧ (Instr.cmov 1 16 1).wf = false ∧ (Instr.cadd 1 1 1 2).wf = false ∧ (Instr.chk 16 0 1).wf = false := by decide
theorem test_ill_part : (Instr.vmov 1 2 3 0).wf = false ∧ (Instr.vmov 1 2 1 2).wf = false ∧ (Instr.vmov 1 2 2 1).wf = false ∧
    (Instr.vmov 1 2 0 3).wf = true := by decide
theorem test_ill_lane : (Instr.vcnt 1 2 3 0 0).wf = false ∧ (Instr.vext 1 2 8 0 0).wf = false ∧ (Instr.vins 1 2 16 1 0).wf = false ∧
    (Instr.vptom 1 2 1 0 2 0).wf = false := by decide
theorem test_ill_round : (Instr.vcvtE4m3F32 1 2 1 0 0).wf = false ∧ (Instr.vcvtE4m3F32 1 2 3 0 0).wf = false := by decide
theorem test_ill_atomic : (Instr.aadd 1 2 3 1).wf = false ∧ (Instr.amin 1 2 3 2).wf = false := by decide
theorem test_ill_anvil : (Instr.mma 0 0 0 0 3 0).wf = false ∧ (Instr.mma 0 0 0 0 0 3).wf = false ∧ (Instr.mts 0 11 0 0).wf = false := by decide
theorem test_ill_ring : (Instr.radv 0 0).wf = false ∧ (Instr.rpop 0 0).wf = false := by decide
theorem test_ill_field : (Instr.aSet 64 0 1).wf = false ∧ (Instr.aSet 57 3 1).wf = false ∧ (Instr.aSet 96 3 1).wf = true ∧
    (Instr.aAdd 0 0 121 3 0).wf = false ∧ (Instr.aAdd 0 0 25 3 1).wf = false ∧ (Instr.aHash 0 0 97 3).wf = false := by decide

/-! ### Scalar and control instructions (05) -/

theorem test_add_wraps : landed (exec (.add 4 1 2) (scalars [(1, 0xFFFFFFFF), (2, 2)])) = [(1, .s 4, 1)] := by decide +kernel
theorem test_addi_sign : landed (exec (.addi 4 1 0x1FF) (scalars [(1, 5)])) = [(1, .s 4, 4)] := by decide +kernel
theorem test_sub_order : landed (exec (.sub 4 1 2) (scalars [(1, 3), (2, 5)])) = [(1, .s 4, 0xFFFFFFFE)] := by decide +kernel
theorem test_mul_latency : landed (exec (.mul 4 1 2) (scalars [(1, 0x10000), (2, 0x10001)])) = [(3, .s 4, 0x10000)] := by decide +kernel
theorem test_mulh_signed : landed (exec (.mulh 4 1 2) (scalars [(1, 0xFFFFFFFF), (2, 2)])) = [(3, .s 4, 0xFFFFFFFF)] := by decide +kernel
theorem test_mulhz_unsigned : landed (exec (.mulhz 4 1 2) (scalars [(1, 0xFFFFFFFF), (2, 2)])) = [(3, .s 4, 1)] := by decide +kernel
theorem test_shl_example : landed (exec (.shl 4 1 2) (scalars [(1, 1), (2, 0x101)])) = [(1, .s 4, 2)] := by decide +kernel
theorem test_sra_full : landed (exec (.srai 4 1 200) (scalars [(1, 0x80000010)])) = [(1, .s 4, 0xFFFFFFFF)] := by decide +kernel
theorem test_shr_full : landed (exec (.shri 4 1 32) (scalars [(1, 0x80000010)])) = [(1, .s 4, 0)] := by decide +kernel
theorem test_rot_example : landed (exec (.roti 4 1 35) (scalars [(1, 1)])) = [(1, .s 4, 8)] := by decide +kernel
theorem test_min_signed : landed (exec (.min 4 1 2) (scalars [(1, 0x80000000), (2, 1)])) = [(1, .s 4, 0x80000000)] := by decide +kernel
theorem test_minz_unsigned : landed (exec (.minz 4 1 2) (scalars [(1, 0x80000000), (2, 1)])) = [(1, .s 4, 1)] := by decide +kernel
theorem test_abs_most_negative : landed (exec (.abs 4 1) (scalars [(1, 0x80000000)])) = [(1, .s 4, 0x80000000)] := by decide +kernel
theorem test_clz_zero : landed (exec (.clz 4 1) (scalars [])) = [(1, .s 4, 32)] := by decide +kernel
theorem test_seth_joins : landed (exec (.seth 4 0x3FFF) (scalars [(4, 0x40003)])) = [(1, .s 4, 0xFFFF)] := by decide +kernel
theorem test_cmp_pair : landed (exec (.cmp 2 4 5 1 2) (scalars [(4, 0xFFFFFFFF), (5, 0)])) = [(1, .p 2, 1), (1, .p 3, 0)] := by decide +kernel
theorem test_pand_inverts : landed (exec (.pand 5 0 0 1 0 0) (scalars [])) = [(1, .p 5, 0)] := by decide +kernel
theorem test_cadd_wraps : landed (exec (.cadd 1 2 3 0) (coords [(2, 0xFFFFFFFF), (3, 1)])) = [(1, .c 1, 0)] := by decide +kernel
theorem test_loop_no_wrap : (after (exec (.loop 7 8 0x1FC) (scalars [(7, 0x7FFFFFFF), (8, 0x7FFFFFFF)]))).here.shadow = none := by decide +kernel
theorem test_bri_target : (after (exec (.bri 2) { scalars [] with cur := { State.reset.cur with addr := 0x1FFFC } })).here.shadow = some ⟨0, 4⟩ := by
  decide +kernel
theorem test_movs_context : landed (exec (.movs 1 6) { (small { logical := 3, trigger := true }) with
    cur := { State.reset.cur with k := 5, x := 2 } }) = [(1, .s 1, 1582)] := by decide +kernel
theorem test_movt_protected : trapOf (exec (.movt 0 1) (scalars [])) = some codeContextIllegal := by decide +kernel
theorem test_trap_vector : (after (exec (.trap 7) (ctxState { hvb := 0x400, dup := { hvb := 0x400 } }))).here.pc = 0x400 + 0x700 ∧
    (after (exec (.trap 7) (ctxState { hvb := 0x400, dup := { hvb := 0x400 } }))).here.tva = 7 := by decide +kernel
theorem test_chk_differs : trapOf (exec (.chk 1 2 0) (scalars [(1, 1)])) = some codeDupMismatch := by decide +kernel

/-! ### Number formats and vectors (02, 06) -/

/-- One FP32 conversion of lane 0 with a mode, and its flags: the tables of 02. -/
theorem test_convert_bf16 : lanesOf 16 1 (exec (.vcvtBf16F32 1 2 0 0 0) (vectors [(2, 0x3FD9999A)])) = [0x3FDA] ∧
    lanesOf 16 1 (exec (.vcvtBf16F32 1 2 5 0 0) (vectors [(2, 0x3FD9999A)])) = [0x3FD9] := by decide +kernel
theorem test_convert_e4m3 : lanesOf 8 1 (exec (.vcvtE4m3F32 1 2 0 0 0) (vectors [(2, 0x3FD9999A)])) = [0x3E] ∧
    lanesOf 8 1 (exec (.vcvtE4m3F32 1 2 0 0 0) (vectors [(2, 0x43FA0000)])) = [0x7E] := by decide +kernel
theorem test_convert_e5m2 : lanesOf 8 2 (exec (.vcvtE5m2F32 1 2 0 0 0) (vectors [(2, pack 32 [0x43FA0000, 0x4788B800])])) = [0x60, 0x7C] := by
  decide +kernel
theorem test_convert_subnormal : lanesOf 16 1 (exec (.vcvtBf16F32 1 2 0 0 0) (vectors [(2, 0x00080000)])) = [8] := by decide +kernel
theorem test_fold_example : (foldStep 0x41200000 1000 128 126 6 2).1 = 0x415E8000 := by decide +kernel
theorem test_qblk_example :
    let o := exec (.qblk 1 2 0) (vectors [(2, pack 32 [0x40400000, 0xBFA00000, 0x3ECCCCCD, 0x3C23D70A])])
    lanesOf 8 4 o = [0x60, 0xD8, 0x0D, 0] ∧ (lanesOf 8 121 o)[120]? = some 0x80 := by decide +kernel
theorem test_vsra_lane : lanesOf 32 1 (exec (.vsra 1 0 2 0 0) (vectors [(1, 0x80000010), (2, 200)])) = [0xFFFFFFFF] := by decide +kernel
theorem test_vshr_lane : lanesOf 8 2 (exec (.vshri 1 2 1 1 0 0) (vectors [(1, 0x8080)])) = [0, 0] := by decide +kernel
theorem test_vadds_saturates : lanesOf 8 2 (exec (.vaddsS8 1 2 3 0 0) (vectors [(2, 0x807F), (3, 0xFF01)])) = [0x7F, 0x80] ∧
    flagged (exec (.vaddsS8 1 2 3 0 0) (vectors [(2, 0x807F), (3, 0xFF01)])) = [32] := by decide +kernel
theorem test_vcmp_codes : lanesOf 32 4 (exec (.vcmpF32 4 1 2 0 0) (vectors [(1, pack 32 [0x3F800000, 0x7FC00000, 0x80000000, 0x40400000]),
    (2, pack 32 [0x40000000, 0x40000000, 0, 0x40400000])])) = [1, 8, 2, 2] := by decide +kernel
theorem test_vsel_example : lanesOf 32 4 (exec (.vsel 4 1 2 0 0) (vectors [(4, pack 32 [1, 0, 2, 2]), (1, pack 32 [10, 11, 12, 13]),
    (2, pack 32 [20, 21, 22, 23])])) = [10, 21, 12, 13] := by decide +kernel
theorem test_vfms_step : lanesOf 32 1 (exec (.vfmaF32 2 4 5 0 0) (vectors [(2, 0x3F350200), (4, 0x3EB50200), (5, 0x39057F80)])) = [0x3F3504F3] := by
  decide +kernel
theorem test_vrsqe_two : lanesOf 32 1 (exec (.vrsqe 2 1 0 0) (vectors [(1, 0x40000000)])) = [0x3F350200] := by decide +kernel
theorem test_vcnteq_example : lanesOf 32 8 (exec (.vcnteq 7 5 6 0 0) (vectors [(5, pack 32 [3, 1, 3, 0, 7, 1, 3, 2]),
    (6, pack 32 [0, 1, 2, 3, 4, 5, 6, 7])])) = [1, 2, 1, 3, 0, 0, 0, 1] := by decide +kernel
theorem test_vscan_example : lanesOf 32 8 (exec (.vscan 8 7 0 0 0) (vectors [(7, pack 32 [1, 2, 1, 3, 0, 0, 0, 1])])) = [0, 1, 3, 4, 7, 7, 7, 7] := by decide +kernel
theorem test_vcnt_vclz : lanesOf 8 2 (exec (.vclz 1 2 2 0 0) (vectors [(2, 0x0100)])) = [8, 7] ∧
    lanesOf 16 1 (exec (.vcnt 1 2 1 0 0) (vectors [(2, 0xF00F)])) = [8] := by decide +kernel
theorem test_part_mask : ((flights (exec (.vmov 1 2 1 1) (vectors [(2, BitVec.allOnes 1024)]))).map fun r => r.mask.toNat) =
    [2 ^ 1024 - 2 ^ 512] := by decide +kernel

/-! ### Memory, the anvil and the engines (07 to 09) -/

theorem test_store_then_load : (after (exec (.st16 1 2 4) { (ctxState { s := [(1, 0xABCD)], c := [(2, 0x100)] }) with hbm := {} })).hereCore.engineByte 0x105
    = 0xAB := by decide +kernel
theorem test_load_signed : landed (exec (.ldS8 4 1 2) (coreState { spad := [(0x42, 0x80)], ctxs := [(0, { c := [(1, 0x40)] })] })) =
    [(6, .s 4, 0xFFFFFF80)] := by decide +kernel
theorem test_load_little_endian : landed (exec (.ld32 4 1 0) (coreState { spad := [(0x40, 1), (0x43, 2)], ctxs := [(0, { c := [(1, 0x40)] })] })) =
    [(6, .s 4, 0x02000001)] := by decide +kernel
theorem test_load_negative : trapOf (exec (.ld32 4 1 0x1FC) (coords [])) = some codeAddressRange := by decide +kernel
theorem test_load_misaligned : trapOf (exec (.ld32 4 1 2) (coords [])) = some codeMisaligned := by decide +kernel
theorem test_load_top : landed (exec (.ld32 4 1 0) (coords [(1, 0xFFFFC)])) = [(6, .s 4, 0)] ∧
    trapOf (exec (.ld32 4 1 4) (coords [(1, 0xFFFFC)])) = some codeAddressRange := by decide +kernel
theorem test_load_poison : trapOf (exec (.ld32 4 1 0) (coreState { errs := [(0, .poison)] })) = some codePoison := by decide +kernel
theorem test_tag_mismatch : trapOf (exec (.ldt 4 1 2) (coreState { tags := [(0, 0xFFF)] })) = some codeScheduleFault ∧
    trapOf (exec (.ldt 4 1 2) (coreState { tags := [(0, 1)] })) = some codeTagMismatch := by decide +kernel
theorem test_atomic_example : (let o := exec (.aadd 3 8 9 0) (coreState { spad := [(0x40100, 40)], ctxs := [(0, { s := [(8, 0x40100), (9, 1)] })] })
    landed o = [(6, .s 3, 40)] ∧ (after o).hereCore.engineByte 0x40100 = 41) := by decide +kernel
theorem test_zline : (after (exec (.zline 1 0) (coreState { spad := [(0x3F, 7)], tags := [(0, 5)], wbuf := [⟨0, 1, 0, false, [⟨3, 9, 0, false⟩]⟩] }))).hereCore.engineByte 3
    = 0 := by decide +kernel
theorem test_hget_range : trapOf (exec (.hget 10 11 12 0) (small { trigger := true, world := 2, cores :=
    [(0, { ctxs := [(0, { s := [(10, 0x01002000), (11, 5), (12, 0x10000)] })] })] })) = some codeAddressRange := by decide +kernel
theorem test_mma_schedule : mmaCycles 2 0 2 = 32 ∧ mmaCycles 4 0 0 = 128 ∧ mmaCycles 4 1 1 = 128 := by decide
theorem test_rset_checks : trapOf (exec (.rset 0 1 2) (scalars [(1, 0x80), (2, 0x10001)])) = some codeOperandIllegal := by decide +kernel
theorem test_radv_overrun : trapOf (exec (.radv 0 2) (coreState { rings := [(0, { base := 0, size := 1, tile := 4 })] })) = some codeRingOverrun := by
  decide +kernel

/-! ### Events, the packet pipeline and trust (11 to 17) -/

/-- The example of 11: three bumps bring counter 12 from 3 to 6, and entries 3 and 7 fire one after the other. -/
theorem test_two_entries :
    let t := after (exec (.arrivalCounterUpdate 0) (small { trigger := true, run := 500, counted := 499, counters := [(12, 3)]
                                                            bumps := [⟨500, 12, 1, none, none⟩, ⟨500, 12, 1, none, none⟩, ⟨500, 12, 1, none, none⟩]
                                                            triggers := [(3, { flags := 1, counter := 12, threshold := 4 }), (7, { flags := 1, counter := 12, threshold := 2 })] }))
    (t.cluster 0).counter 12 = 0 ∧ (tget {} (t.cluster 0).triggers 3).pending = 1 ∧ (tget {} (t.cluster 0).triggers 7).pending = 1 := by
  decide +kernel

/-- The example of 04: of two results that land together the later-issued stands, and of two issued together the higher position. -/
theorem test_collision :
    let r := fun (i p : Nat) (m v : Vec) => (⟨105, i, p, .v 3, m, v, 0⟩ : Result)
    let t := after (exec (.resultLand 0 0) (small { run := 105, cores := [(0, { ctxs := [(0, { flight := [r 102 5 (BitVec.allOnes 1024) 7,
      r 100 4 (BitVec.allOnes 1024) 9] })] })] }))
    (t.ctx 0 0 0).rv 3 = 7 ∧ (t.core 0 0).collisions = 1 := by decide +kernel

/-- A TRAP rolls back on the next cycle to the duplicate registers and the belay bundle, and its handler keeps its place. -/
theorem test_rollback :
    let t := after (exec (.rollback 0) (small { run := 1016, trap := some { cycle := 1015, handlers := [(0, 0)], rollbackAt := some 1016 }
                                                cores := [(0, { ctxs := [(0, { s := [(1, 9)], dup := { s := [(1, 4)] }, pc := 0x400, blp := 0x80, status := .ready }),
                                                                         (1, { s := [(1, 9)], status := .ready })] }),
                                                          (1, { ctxs := [(0, { s := [(1, 9)], dup := { s := [(1, 5)] }, blp := 0x80, status := .ready })] })] }))
    (t.ctx 0 0 0).rs 1 = 4 ∧ (t.ctx 0 0 0).pc = 0x400 ∧ (t.ctx 0 1 0).rs 1 = 5 ∧ (t.ctx 0 1 0).pc = 0x80 ∧ (t.ctx 0 0 1).rs 1 = 9 := by
  decide +kernel

/-- The routed token of 12: DMOD 0x012, EP 0x0185, RT 0, forwarded to port 4. -/
theorem test_route_example :
    let hv : List Byte := [0x12, 0x80, 0x01, 0x02, 0x04, 0, 0, 0x02, 0x01, 0, 0, 0x07, 0, 0x40, 0, 0] ++ List.replicate 112 0
    let t := after (exec .aRoute { State.reset with
      moduleId := 0x00A
      pkt := { State.reset.pkt with active := true, port := 2, hv := hv, bundle := { State.reset.pkt.bundle with data := [0x12, 0, 5, 3, 0, 4] ++ List.replicate 26 0 } } })
    t.pkt.hv.take 8 = [0x12, 0x80, 0x01, 0x02, 0x00, 0x85, 0x01, 0x02] ∧ t.pkt.hv.getD 72 0 = 4 ∧ t.pkt.hv.getD 71 0 = 1 := by decide +kernel

/-- SM3 of "abc" and SM4 of the standard's example; the SM2 generator lies on its curve. -/
theorem test_sm3 : sm3 [0x61, 0x62, 0x63] = beBytes 32 0x66c7f0f462eeedd9d1f2d46bdc10e4e24167c4875cf2f7a2297da02b8f4ba8e0 := by decide +kernel
theorem test_sm4 : sm4Block (sm4Keys (beBytes 16 0x0123456789abcdeffedcba9876543210)) (beBytes 16 0x0123456789abcdeffedcba9876543210) =
    beBytes 16 0x681edf34d206965e86b3e94f536e4246 := by decide +kernel
theorem test_sm2 : sm2OnCurve sm2Gx sm2Gy = true := by decide +kernel
/-- CRC-32C of the nine digits. -/
theorem test_crc32c : crc32c [0x31, 0x32, 0x33, 0x34, 0x35, 0x36, 0x37, 0x38, 0x39] = 0xE3069283 := by decide +kernel

/-- A store of a wrong number names no object, and stops; a sag counts once. -/
theorem test_no_such_port : exec (.linkTrain 36 { up := true, peer := 1, peerPort := 0, rawDelay := 1, parent := false, peerTick := 0 }) State.reset = .fault .noSuchInput := rfl
theorem test_sag_once : (after (exec .supplySag (after (exec .supplySag State.reset)))).stretchEvents = 1 := by decide +kernel

/-! ### Witnesses: states and operands that meet the hypotheses of each obligation -/

/-- A domain on cluster 0, in a compute pitch, and a state in its exchange pitch. -/
def part : Domain := { id := 1, world := 0, clusters := [0], image := 0 }
def exchanging (c : Core) : State := { coreState c with domains := [{ part with pcn := 1 }] }

theorem witness_DecodeEncode : (Instr.vshli 31 2 7 31 0 3).isEvent = false ∧ (Instr.vshli 31 2 7 31 0 3).wf = true ∧
    (Instr.aFwd 3 35).isEvent = false ∧ (Instr.aFwd 3 35).wf = true := by decide
theorem witness_EncodeDecode : decodeSlot 0xFFA00000 = .ok ⟨true, 15, .bar⟩ := by decide +kernel
theorem witness_ReservedOpcodes : decodeSlot 0x01B80000 ≠ .error .opcodeUndefined ∧ decodeSlot 0x01C00000 = .error .opcodeUndefined ∧
    decodeSlot 0x01F80000 = .error .opcodeUndefined ∧ decodeSlot 0x02000000 ≠ .error .opcodeUndefined := by decide +kernel

/-- A next state that meets a test. -/
def goes (o : Out) (p : State → Bool) : Bool := match o with
  | .next t => p t
  | _ => false
theorem goes_next {o : Out} {p : State → Bool} (h : goes o p = true) : ∃ t, o = .next t ∧ p t = true := by
  cases o with
  | next t => exact ⟨t, rfl, h⟩
  | fault f => simp [goes] at h
  | refused r => simp [goes] at h
def quietSlot (u : State) : Bool := u.cur.trapped.isNone && !u.cur.blocked && !u.cur.held
theorem goesOn_of {u : State} (h : quietSlot u = true) : goesOn u := by
  simp [quietSlot] at h
  exact ⟨h.1.1, h.1.2, h.2⟩

/-- Context 0 of core 0 of cluster 0 is about to issue ADD s4, s4, s1. -/
def fetching : State := State.reset.withFetchWord 32 0x00090810
def fetched : Bundle := ⟨0, 0xE0000000, [(0, 0x00090810), (1, 0), (2, 0x80000000)], 16⟩
theorem witness_IssuesNext : IssuesNext fetching 0 0 0 fetched where
  noActions := rfl
  noPacket := rfl
  noInput := by rfl
  noEvent := by have : fetching.dueBefore.isNone = true := by decide +kernel
                simpa using this
  first := by
    have : fetching.clusters = [(0, fetching.cluster 0)] := rfl
    simp [firstOut, this]
  one := by decide +kernel
  due := by have : (match (fetching.cluster 0).turn 0 0 (fetching.cluster 0).run (fetching.inExchange 0) with
              | .issue => true
              | _ => false) = true := by decide +kernel
            revert this
            cases (fetching.cluster 0).turn 0 0 (fetching.cluster 0).run (fetching.inExchange 0) <;> simp
  fetched := by decide +kernel
  bundle := by decide +kernel
  early := by decide +kernel
  judged := by decide +kernel
  undrained := by decide +kernel
  noBelay := by decide +kernel
theorem witness_StepRunsDecodedSlot :
    (∃ u, (atSlots fetching 0 0 0 fetched).runSlots ((atSlots fetching 0 0 0 fetched).liveSlots fetched) = .next u ∧ goesOn u) ∧
    ∃ u, decodeSlot 0x00090810 = .ok ⟨false, 0, .add 4 4 1⟩ ∧ exec (.add 4 4 1) State.reset = .next u ∧ goesOn u := by
  constructor
  · obtain ⟨u, h, g⟩ := goes_next (o := (atSlots fetching 0 0 0 fetched).runSlots ((atSlots fetching 0 0 0 fetched).liveSlots fetched))
      (p := quietSlot) (by decide +kernel)
    exact ⟨u, h, goesOn_of g⟩
  · obtain ⟨u, h, g⟩ := goes_next (o := exec (.add 4 4 1) State.reset) (p := quietSlot) (by decide +kernel)
    exact ⟨u, by decide +kernel, h, goesOn_of g⟩
theorem witness_StepRunsActionOrInput :
    (let s := { State.reset with actions := [0x87480005, 0] }
     s.actions = [0x87480005, 0] ∧ decodeSlot 0x87480005 = .ok ⟨true, 0, .aMirror 5⟩ ∧ decodeSlot 0x01C00000 = .error .opcodeUndefined) ∧
    (let s := { State.reset with inputs := [(1, .supplySag), (0, .supplyRecovery)] }
     s.actions = [] ∧ s.pkt.active = false ∧ s.inputs = [(1, .supplySag)] ++ (0, .supplyRecovery) :: [] ∧ 0 ≤ s.tick.toNat ∧ s.tick.toNat < 1 ∧
       Instr.supplyRecovery.isEvent = true) := by decide +kernel

theorem witness_ScalarSelections : (let s := scalars [(1, 0xFFFFFFFF)]
    (s.rs 1).toNat < 2 ^ 32 ∧ 2 ^ 31 ≤ (s.rs 1).toNat ∧ (s.rs 2).toNat < 2 ^ 0) ∧ (11 : BitVec 5).toNat < 12 := by decide +kernel
theorem witness_SpecialRegisterReads : (coreTrigger {}).hereCluster.trigger = true ∧ (exchanging {}).hereCluster.trigger = false ∧
    (exchanging {}).domainOf 0 = some { part with pcn := 1 } := by decide +kernel
theorem witness_SpecialRegisterWrites : (ctxState { tsr := 0x10 }).here.tsr.getLsbD 4 = true ∧ State.reset.here.tsr.getLsbD 4 = false := by
  decide +kernel
theorem witness_Compares : (14 : BitVec 5).toNat % 2 = 0 ∧ (7 : BitVec 3) = 7 := by decide
theorem witness_Transfers : State.reset.here.shadow = none ∧
    (let s := scalars [(7, 0x7FFFFFFD), (8, 0x7FFFFFFF)]
     (s.rs 7).toInt + 1 < (s.rs 8).toInt ∧ ¬ (s.rs 8).toInt + 1 < (s.rs 8).toInt) := by decide +kernel
theorem witness_NopMarkCheck : (ctxState { tsr := 8 }).here.tsr.getLsbD 3 = true ∧ State.reset.here.tsr.getLsbD 3 = false ∧
    (scalars [(1, 1)]).rs 1 ≠ (scalars [(1, 1)]).rs 2 ∧ (scalars [(1, 1)]).rs 2 = (scalars [(1, 1)]).rs 0 ∧
    (coords [(1, 1)]).rc 1 ≠ (coords [(1, 1)]).rc 2 ∧ (coords [(1, 1)]).rc 3 = (coords [(1, 1)]).rc 2 := by decide +kernel
theorem witness_ShadowIllegal : (let s := ctxState { shadow := some ⟨0, 64⟩, s := [(7, 0), (8, 2)] }
    s.here.shadow = some ⟨0, 64⟩ ∧ (s.rs 7).toInt + 1 < (s.rs 8).toInt ∧ ¬ (s.rs 8).toInt + 1 < (s.rs 8).toInt ∧ s.here.rp 1 = false) := by decide +kernel
theorem witness_TrapEntry : State.reset.here.tsr.getLsbD 4 = false ∧ State.reset.inExchange 0 = false ∧ State.reset.here.tsr.getLsbD 3 = false ∧
    (let s := ctxState { tsr := 8 }
     s.here.tsr.getLsbD 4 = false ∧ s.inExchange 0 = false ∧ s.here.tsr.getLsbD 3 = true) := by decide +kernel
theorem witness_TrapElsewhere : (ctxState { tsr := 0x10 }).here.tsr.getLsbD 4 = true ∧
    (let s := exchanging {}
     s.here.tsr.getLsbD 4 = false ∧ s.inExchange 0 = true ∧ ∀ d ∈ s.domains, d.clusters.contains 0 = true ∧ d.phase ≠ .ended) ∧
    (let s := exchanging { ctxs := [(0, { tsr := 8 })] }
     s.here.tsr.getLsbD 4 = false ∧ s.here.tsr.getLsbD 3 = true ∧ s.inExchange 0 = true) := by decide +kernel
theorem witness_TrapReturn : State.reset.here.shadow = none ∧ State.reset.here.tsr.getLsbD 4 = false ∧
    (let tr : TrapState := { cycle := 0, handlers := [(0, 0)] }
     let s := small { trigger := true, trap := some tr, cores := [(0, { ctxs := [(0, { tsr := 0xFF98 })] })] }
     s.here.shadow = none ∧ s.here.tsr.getLsbD 4 = true ∧ s.here.tsr.toNat < 2 ^ 16 ∧ s.here.tsr.getLsbD 5 = false ∧ (s.here.tsr.toNat / 2 ^ 6) % 4 ≠ 3 ∧
       s.here.serialTask = false ∧ s.hereCluster.trap = some tr ∧ tr.handlers = [(s.cur.k, s.cur.x)] ∧ tr.deferred = false) ∧
    (ctxTrigger { tsr := 0x18, serialTask := true }).here.serialTask = true ∧
    (let s := ctxTrigger { tsr := 0x10010 }
     s.here.shadow = none ∧ s.here.tsr.getLsbD 4 = true ∧ s.hereCluster.trigger = true ∧ 2 ^ 16 ≤ s.here.tsr.toNat) := by decide +kernel
theorem witness_HaltBarPitch : State.reset.hereCore.afault = none ∧ State.reset.hereCluster.trigger = false ∧ State.reset.here.tsr.getLsbD 3 = false ∧
    State.reset.here.shadow = none ∧ (ctxState { shadow := some ⟨0, 64⟩ }).here.shadow = some ⟨0, 64⟩ ∧ (coreTrigger {}).hereCluster.trigger = true := by
  decide +kernel
theorem witness_WaitAndCount : (let s := small { trigger := true, counters := [(255, 3)], cores := [(0, { ctxs := [(0, { s := [(1, 255), (2, 3), (3, 4), (4, 0x101), (5, 0x202), (6, 0x302), (7, 0x405)] })] })] }
    s.hereCluster.trigger = true ∧ s.here.tsr.getLsbD 3 = false ∧ s.hereCore.afault = none ∧ (s.rs 1).toNat < 256 ∧
    (s.rs 2).toNat ≤ s.hereCluster.counter 255 ∧ s.hereCluster.counter 255 < (s.rs 3).toNat ∧
    ((s.rs 4).toNat / 256 = 1 ∧ (s.rs 4).toNat % 256 < 2) ∧ ((s.rs 5).toNat / 256 = 2 ∧ (s.rs 5).toNat % 256 < 3) ∧
    ((s.rs 6).toNat / 256 = 3 ∧ (s.rs 6).toNat % 256 < 3) ∧ ((s.rs 7).toNat / 256 = 4 ∧ (s.rs 7).toNat % 256 < 6)) := by decide +kernel

/-- One result due, for a destination. -/
def due (d : Dest) : Result := ⟨5, 4, 0, d, 0xFFFFFFFF, 1, 1⟩
theorem witness_ResultLands : ∀ d ∈ ([.s 31, .s 0, .c 15, .p 15, .p 0, .v 31] : List Dest),
    (let s := small { run := 5, cores := [(0, { ctxs := [(0, { flight := [due d, { due d with due := 6 }] })] })] }
     (s.ctx 0 0 0).flight.filter (fun r => decide (r.due ≤ (s.cluster 0).run)) = [due d] ∧ (s.ctx 0 0 0).replaying = false ∧ ∀ n, (due d).dest ≠ .sr n) := by
  intro d hd
  refine ⟨rfl, rfl, ?_⟩
  simp [due] at hd ⊢
  rcases hd with h | h | h | h | h | h <;> simp [h]
theorem witness_ResultsCollide : ∀ n ∈ ([31, 0] : List Nat),
    (let a : Result := ⟨5, 3, 1, .s n, 0xFFFFFFFF, 1, 0⟩
     let b : Result := ⟨5, 3, 2, .s n, 0xFFFFFFFF, 2, 0⟩
     let s := small { run := 5, cores := [(0, { ctxs := [(0, { flight := [b, a] })] })] }
     (s.ctx 0 0 0).replaying = false ∧ (s.ctx 0 0 0).flight.filter (fun r => decide (r.due ≤ (s.cluster 0).run)) = [b, a] ∧
     (∀ y, y ≠ 0 → (s.ctx 0 0 y).flight.filter (fun r => decide (r.due ≤ (s.cluster 0).run)) = []) ∧
     a.issued = b.issued ∧ a.pos < b.pos ∧ ((s.core 0 0).ctxs.map (·.1)).Nodup) := by
  intro n _
  refine ⟨rfl, rfl, ?_, rfl, by show (1 : Nat) < 2; omega, by simp [small, State.core, State.cluster, Cluster.core, tget]⟩
  intro y hy
  have : (small { run := 5, cores := [(0, { ctxs := [(0, { flight := [(⟨5, 3, 2, .s n, 0xFFFFFFFF, 2, 0⟩ : Result),
    ⟨5, 3, 1, .s n, 0xFFFFFFFF, 1, 0⟩] })] })] }).ctx 0 0 y = {} := by
    simp [small, State.ctx, State.core, State.cluster, Cluster.core, Core.ctx, tget, Ne.symm hy]
  rw [this]
  rfl

theorem witness_LegalByPitch :
    (let s := exchanging {}
     (Instr.st32 1 1 0).wf = true ∧ s.valuesOk (.st32 1 1 0) = true ∧ tableTrap s (.st32 1 1 0) = some codePhaseIllegal) ∧
    (let s := scalars [(1, 0x100000)]
     s.valuesOk (.hget 1 2 3 0) = true ∧ tableTrap s (.hget 1 2 3 0) = some codePhaseIllegal ∧ s.valuesOk .ufnc = true ∧
       tableTrap s .ufnc = some codeModeIllegal) ∧
    (let s := coreTrigger {}
     s.valuesOk .bar = true ∧ tableTrap s .bar = some codeModeIllegal) ∧
    (let s := ctxState { tsr := 8 }
     s.valuesOk .pitch = true ∧ tableTrap s .pitch = some codeModeIllegal) ∧
    (let s := small { trigger := true, world := 1, cores := [(0, { ctxs := [(0, { tsr := 8 })] })] }
     s.valuesOk .ufnc = true ∧ tableTrap s .ufnc = some codeModeIllegal) := by decide +kernel

theorem witness_vectorOk : vectorOk (coreState {}) 2 0 ∧ vectorOk (coreState {}) 0 3 ∧ (2 : BitVec 2) ≠ 3 := by
  refine ⟨⟨by decide +kernel, by decide⟩, ⟨by decide +kernel, by decide⟩, by decide⟩
theorem witness_VectorLanes : 32 * (1 : BitVec 2).toNat < widthBits 1 / laneBits 2 ∧ (31 : BitVec 5).toNat < widthBits 2 / 32 ∧ (30 : BitVec 5).toNat % 2 = 0 ∧
    laneAt 1 2 0 32 0 ≠ laneAt 0 2 0 32 0 := by decide +kernel
theorem witness_VectorFloats : nan32 0x7F800001 ∧ ¬ nan32 0xFF800000 ∧ inf32 0xFF800000 ∧ zero32 0x80000000 ∧ nan16 0xFFFF := by decide
/-- 1 + 1 = 2, 3 - 1 = 2, 2 * 1 = 2, 1 + 1 * 1 = 2 and 3 - 1 * 1 = 2 in both formats. -/
theorem witness_VectorFloats_exact : ∀ q ∈ [(fp32, 0x3F800000, 0x40000000, 0x40400000), (bf16, 0x3F80, 0x4000, 0x4040)],
    isNumber q.1 q.2.1 ∧ isNumber q.1 q.2.2.1 ∧ isNumber q.1 q.2.2.2 ∧ valueOf q.1 q.2.2.1 ≠ 0 ∧
    valueOf q.1 q.2.1 + valueOf q.1 q.2.1 = valueOf q.1 q.2.2.1 ∧ valueOf q.1 q.2.2.2 - valueOf q.1 q.2.1 = valueOf q.1 q.2.2.1 ∧
    valueOf q.1 q.2.2.1 * valueOf q.1 q.2.1 = valueOf q.1 q.2.2.1 * 2 ^ 149 ∧
    valueOf q.1 q.2.1 * 2 ^ 149 + valueOf q.1 q.2.1 * valueOf q.1 q.2.1 = valueOf q.1 q.2.2.1 * 2 ^ 149 ∧
    valueOf q.1 q.2.2.2 * 2 ^ 149 - valueOf q.1 q.2.1 * valueOf q.1 q.2.1 = valueOf q.1 q.2.2.1 * 2 ^ 149 := by decide +kernel
theorem witness_VectorConversions_numbers : (∀ q ∈ [(bf16, 0xBF80), (fp16, 0xBC00), (e5m2, 0xBC), (e4m3, 0xB8)],
    isNumber q.1 q.2 ∧ isNumber fp32 0xBF800000 ∧ valueOf fp32 0xBF800000 = valueOf q.1 q.2 ∧ valueOf q.1 q.2 ≠ 0) ∧
    isNumber fp32 0xCF000000 ∧ roundsTo 0 true (valueOf fp32 0xCF000000).natAbs (2 ^ 149) (2 ^ 31) ∧ isNumber fp32 0 ∧ ¬ isNumber fp32 0xFF800000 := by
  refine ⟨by decide +kernel, by decide +kernel, ⟨by decide +kernel, by decide +kernel, fun _ => by decide⟩, by decide +kernel, by decide +kernel⟩
theorem witness_VectorConversions : okRound 0 = true ∧ okRound 7 = true ∧ State.reset.here.fmd.getLsbD 2 = false ∧ laneAt (pack 8 (List.replicate 121 255)) 2 0 8 120 = 0xFF := by
  decide +kernel

/-- A core with nothing in it lets every access in range and aligned through. -/
theorem reached_of {c : Core} (A : Int) (n al : Nat) (h : 0 ≤ A ∧ A + n ≤ 0x100000 ∧ A % al = 0) (hl : c.lent = []) (hf : c.forms = []) :
    Reached (coreState c) A n al :=
  ⟨h.1, h.2.1, h.2.2, fun _ _ => by simp [State.hereCore, State.core, coreState, small, State.cluster, Cluster.core, tget, State.reset, hl],
    fun _ _ => by simp [State.hereCore, State.core, coreState, small, State.cluster, Cluster.core, tget, State.reset, hf]⟩
theorem readable_of {c : Core} (A : Int) (n : Nat) (h : 0 ≤ A ∧ A + n ≤ 0x100000 ∧ A % n = 0) (hl : c.lent = []) (hf : c.forms = []) (he : c.errs = [])
    (hs : c.sched = []) : Readable (coreState c) A n where
  toReached := reached_of A n n h hl hf
  sound := fun _ _ => by simp [State.hereCore, State.core, coreState, small, State.cluster, Cluster.core, tget, State.reset, he]
  free := fun _ _ b hb => by simp [State.hereCore, State.core, coreState, small, State.cluster, Cluster.core, tget, State.reset, hs] at hb
theorem writable_of {c : Core} (A : Int) (n cls : Nat) (h : 0 ≤ A ∧ A + n ≤ 0x100000 ∧ A % n = 0) (hl : c.lent = []) (hf : c.forms = []) (he : c.errs = [])
    (hw : c.wbuf.length + (n + 63) / 64 ≤ 128) : Writable (coreState c) A n cls where
  toReached := reached_of A n n h hl hf
  sound := fun _ _ _ => by simp [State.hereCore, State.core, coreState, small, State.cluster, Cluster.core, tget, State.reset, he]
  room := .inr (by simpa [State.hereCore, State.core, coreState, small, State.cluster, Cluster.core, tget, State.reset] using hw)

/-- The last place of each width; a core with one entry short of a full withholding buffer; one with the full buffer, all of it the entries of
the line stored to. -/
theorem witness_Loads : (coords [(1, 0xFFFFF)]).inExchange 0 = false ∧ Readable (coords [(1, 0xFFFFF)]) 0xFFFFF 1 ∧ Readable (coords [(1, 0xFFFFE)]) 0xFFFFE 2 ∧
    Readable (coords [(1, 0xFFFFC)]) 0xFFFFC 4 ∧ Readable (coords [(1, 0xFFFF8)]) 0xFFFF8 8 ∧ (30 : BitVec 5).toNat % 2 = 0 ∧
    Readable (coords [(1, 0xFFF80)]) 0xFFF80 (widthBits 2 / 8) ∧ okWH 2 0 = true := by
  refine ⟨by decide +kernel, ?_, ?_, ?_, ?_, by decide, ?_, by decide⟩ <;> exact readable_of _ _ (by decide) rfl rfl rfl rfl
def nearlyFull : Core := { wbuf := List.replicate 127 ⟨5, 0, 0, true, []⟩ }
def full : Core := { wbuf := List.replicate 128 ⟨0, 1, 0, false, []⟩ }
theorem witness_Stores : (coreState nearlyFull).inExchange 0 = false ∧ Writable (coreState nearlyFull) 0xFFFFF 1 3 ∧ Writable (coreState nearlyFull) 0xFFFFE 2 3 ∧
    Writable (coreState nearlyFull) 0xFFFFC 4 3 ∧ Writable (coreState nearlyFull) 0xFFFF8 8 3 ∧ Writable (coreState {}) 0xFFF80 (widthBits 2 / 8) 3 ∧
    Writable (coreState full) 0x3C 4 1 := by
  refine ⟨by decide +kernel, ?_, ?_, ?_, ?_, ?_, ?_⟩
  iterate 5 exact writable_of _ _ _ (by decide) rfl rfl rfl (by decide +kernel)
  refine ⟨reached_of _ _ _ (by decide) rfl rfl, fun _ _ _ => by simp [State.hereCore, State.core, coreState, small, State.cluster, Cluster.core, tget, State.reset, full], .inl ?_⟩
  intro l h
  have hl : l = 0 := by
    have := h.2
    simp at this
    omega
  subst hl
  refine ⟨⟨0, 1, 0, false, []⟩, ?_, rfl, rfl, rfl, by decide +kernel⟩
  simp [State.hereCore, State.core, coreState, small, State.cluster, Cluster.core, tget, State.reset, full]

theorem witness_AccessChecks :
    (let s := coords [(1, 0xFFFFFFFF)]
     accessOf s (.ldS8 4 1 0) = some (-1, 1, false) ∧ (Instr.ldS8 4 1 0).wf = true ∧ s.valuesOk (.ldS8 4 1 0) = true ∧ s.inExchange 0 = false) ∧
    (let s := coords [(1, 0xFFFF8)]
     accessOf s (.ld2 4 1 8) = some (0x100000, 8, false) ∧ s.valuesOk (.ld2 4 1 8) = true) ∧
    (let s := coords []
     accessOf s (.ld32 4 1 2) = some (2, 4, false) ∧ (2 : Int) % (4 : Nat) ≠ 0) ∧
    (let s := coreState { lent := [(0, 1)] }
     accessOf s (.st32 4 1 0) = some (0, 4, true) ∧ touches 0 4 64 0 ∧ tget 0 s.hereCore.lent (0 % 32) ≠ 0) ∧
    (let s := coreState { forms := [(0, true)] }
     tget false s.hereCore.forms 0 = true ∧ ∀ l, tget 0 s.hereCore.lent (l % 32) = 0) := by
  refine ⟨by decide +kernel, by decide +kernel, by decide +kernel, ⟨by decide +kernel, ⟨by decide, by decide⟩, by decide +kernel⟩, by decide +kernel, fun _ => rfl⟩
theorem witness_AccessChecks_words :
    (let s := coreState { errs := [(0, .poison)] }
     Reached s 0 4 4 ∧ ¬ soundWords s 0 4) ∧
    (let s := coreState { sched := [⟨1, 0, 0, 0⟩] }
     Reached s 0 4 4 ∧ soundWords s 0 4 ∧ ¬ portFree s 0 4) ∧
    (let s := coreState full
     Reached s 64 4 4 ∧ soundWords s 64 4 ∧ 128 ≤ s.hereCore.wbuf.length ∧
       ∃ l, touches 64 4 64 l ∧ ∀ e ∈ s.hereCore.wbuf, ∀ c, ¬ (e.line = l ∧ e.cls = c ∧ e.ctx = s.cur.x ∧ e.released = s.freeStore)) := by
  refine ⟨⟨reached_of _ _ _ (by decide) rfl rfl, fun h => (h 0 ⟨by decide, by decide⟩).1 rfl⟩,
    ⟨reached_of _ _ _ (by decide) rfl rfl, fun _ _ => ⟨nofun, nofun⟩, fun h => h 0 ⟨by decide, by decide⟩ ⟨1, 0, 0, 0⟩ (by decide +kernel) rfl rfl⟩,
    reached_of _ _ _ (by decide) rfl rfl, fun _ _ => ⟨nofun, nofun⟩, by decide +kernel, 1, ⟨by decide, by decide⟩, ?_⟩
  intro e he c hc
  have : e = ⟨0, 1, 0, false, []⟩ := by
    simpa [State.hereCore, State.core, coreState, small, State.cluster, Cluster.core, tget, State.reset, full] using he
  rw [this] at hc
  exact absurd hc.1 (by decide)

theorem witness_TaggedLoads : (let s := coreState { tags := [(1, 5), (2, 0xFFF)], ctxs := [(0, { s := [(1, 0x40), (2, 5), (3, 4095), (4, 4096), (5, 0x80)] })] }
    okWH 1 1 = true ∧ 4096 ≤ (s.rs 4).toNat ∧ (s.rs 3).toNat < 4096 ∧ Readable s 0x40 4 ∧ Readable s 0x80 (widthBits 1 / 8) ∧
    (∀ l, touches 0x40 4 64 l → (tget 0 s.hereCore.tags l).toNat = (s.rs 2).toNat ∧ (tget 0 s.hereCore.tags l).toNat ≠ 0xFFF) ∧
    (touches 0x80 64 64 2 ∧ (tget 0 s.hereCore.tags 2).toNat = 0xFFF) ∧
    (touches 0x40 4 64 1 ∧ (tget 0 s.hereCore.tags 1).toNat ≠ (s.rs 3).toNat)) := by
  refine ⟨by decide, by decide +kernel, by decide +kernel, readable_of _ _ (by decide) rfl rfl rfl rfl, readable_of _ _ (by decide) rfl rfl rfl rfl, ?_,
    ⟨⟨by decide, by decide⟩, by decide +kernel⟩, ⟨by decide, by decide⟩, by decide +kernel⟩
  intro l h
  have hl : l = 1 := by
    have h1 := h.1
    have h2 := h.2
    simp at h1 h2
    omega
  subst hl
  decide +kernel
theorem witness_LocalAtomics : (let s := coreState { spad := [(0xFFFFC, 7)], ctxs := [(0, { s := [(1, 0xFFFFC), (3, 7)] })] }
    Readable s 0xFFFFC 4 ∧ Writable s 0xFFFFC 4 1 ∧ (s.rs 3) = 7 ∧ s.rs 2 ≠ 7 ∧ 2 ≤ (2 : BitVec 4).toNat) := by
  refine ⟨readable_of _ _ (by decide) rfl rfl rfl rfl, writable_of _ _ _ (by decide) rfl rfl rfl (by decide), by decide +kernel, by decide +kernel, by decide⟩
theorem witness_LineMetadata : (let s := coreState { wbuf := [⟨0x3FFF, 0, 0, false, []⟩], ctxs := [(0, { c := [(1, 0xFFFC0)], s := [(1, 0xFFE), (2, 0xFFF)] })] }
    (s.rc 1).toInt < 0x100000 ∧ 0 ≤ (s.rc 1).toInt ∧ (s.rc 1).toInt % 64 = 0 ∧ (s.rs 1).toNat < 0xFFF ∧ 0xFFF ≤ (s.rs 2).toNat ∧ s.inExchange 0 = false ∧
    tget 0 s.hereCore.lent 31 = 0 ∧ (∀ b ∈ s.hereCore.sched, b.due = s.t + 1 → b.bank ≠ 31) ∧ ∀ e ∈ s.hereCore.wbuf, e.ctx = s.cur.x) := by
  refine ⟨by decide +kernel, by decide +kernel, by decide +kernel, by decide +kernel, by decide +kernel, by decide +kernel, rfl, nofun, by decide +kernel⟩

/-- A shape record of rank 1: FP32 elements from 0x40, extent 5, stride 1; lanes 0 to 4 are in bounds and lanes 5 to 7 are not. -/
def record : BitVec 384 := BitVec.ofNat 384 (0x40 + 2 * 2 ^ 20 + 1 * 2 ^ 24 + 5 * 2 ^ 32 + 1 * 2 ^ 160)
def shaped : Core := { shapes := [(15, record)] }
theorem placed_at : ∀ j, j < 8 → elementAt (coreState shaped) record 4 0 j = 64 + 4 * j := by decide +kernel
theorem witness_TensorAccesses : TensorOk (coreState shaped) record 4 0 0 1 true ∧ inExtents (coreState shaped) record 0 4 ∧ ¬ inExtents (coreState shaped) record 0 5 ∧
    (∀ j, j < 8 → inExtents (coreState shaped) record 0 j →
      (tget 0 (coreState shaped).hereCore.tags (elementAt (coreState shaped) record 4 0 j / 64)).toNat = ((coreState shaped).here.rc 1).toNat % 4096) ∧
    (∀ i j, i < j → j < widthBits 0 / (8 * 4) → elementAt (coreState shaped) record 4 0 i ≠ elementAt (coreState shaped) record 4 0 j) ∧
    recBytes 0x800000 = none ∧ recRank 0 = 0 ∧ recPerm (3 * 2 ^ 27) = 3 ∧ 16 < (15 : BitVec 5).toNat + recRank (2 * 2 ^ 24) := by
  refine ⟨⟨by decide +kernel, by decide +kernel, by decide +kernel, by decide +kernel, ?_, ?_, ?_, ?_⟩, ?_, ?_, ?_, ?_, by decide +kernel, by decide +kernel,
    by decide +kernel, by decide +kernel⟩
  · unfold inExtents; decide +kernel
  · unfold inExtents; decide +kernel
  · intro i j hi hj _ _ _
    rw [placed_at i hi, placed_at j hj]
    have hi' : i < 8 := hi
    have hj' : j < 8 := hj
    omega
  · intro _ j hj _ q hq
    simp [State.hereCore, State.core, coreState, small, State.cluster, Cluster.core, tget, State.reset, shaped] at hq
  · unfold inExtents; decide +kernel
  · unfold inExtents; decide +kernel
  · unfold inExtents; decide +kernel
  · intro i j h hj
    rw [placed_at i (Nat.lt_trans h hj), placed_at j hj]
    omega

/-- A state whose core 0 has scalars and more. -/
def withRegs (l : Tbl Word) (c : Core) : State := coreState { c with ctxs := [(0, { s := l })] }

theorem witness_RingsAndBanks :
    (let s := withRegs [(1, 0xFFF00), (2, 0x10001), (3, 0x10002)] {}
     ((s.rs 1).toNat % 256 = 0 ∧ (s.rs 1).toNat + 256 * ((s.rs 2).toNat / 2 ^ 16) * ((s.rs 2).toNat % 2 ^ 16) ≤ 0x100000) ∧ s.hereCore.claim 0 = 0 ∧
     ¬ (s.rs 1).toNat + 256 * ((s.rs 3).toNat / 2 ^ 16) * ((s.rs 3).toNat % 2 ^ 16) ≤ 0x100000) ∧
    (let s := coreState { rings := [(0, { size := 511, count := 0, tile := 1 }), (1, { size := 2, count := 2 })]
                          anvil := [{ ctx := 0, issued := 0, zero := false, bank := 1, qa := 2, qb := 3, n := 1, wa := 0, wb := 0, tiles := [] }] }
     s.inExchange 0 = false ∧ s.hereCore.claim 2 ≠ 0 ∧ (tget {} s.hereCore.rings 0).size ≠ 0 ∧
     (tget {} s.hereCore.rings 0).count + (511 : BitVec 9).toNat ≤ (tget {} s.hereCore.rings 0).size ∧
     (tget {} s.hereCore.rings 1).size < (tget {} s.hereCore.rings 1).count + (1 : BitVec 9).toNat ∧ (tget {} s.hereCore.rings 2).size = 0 ∧
     s.hereCore.claim 1 = 0 ∧ (2 : BitVec 9).toNat ≤ (tget {} s.hereCore.rings 1).count ∧ (tget {} s.hereCore.rings 1).count < (3 : BitVec 9).toNat ∧
     (∃ m ∈ s.hereCore.anvil, m.bank = 1) ∧ ¬ (∃ m ∈ s.hereCore.anvil, m.bank = 0) ∧ (∀ p ∈ s.hereCore.pending, s.t < p.due) ∧
     ((0 : Int) + (2 : BitVec 9).toInt) % 4 ≠ 0) ∧
    Writable (coreState {}) 0 4 0 := by
  refine ⟨by decide +kernel, by decide +kernel, writable_of _ _ _ (by decide) rfl rfl rfl (by decide)⟩

/-- Rings for 8-bit elements, with one A tile and two B tiles. -/
def tiles : Tbl Ring := [(0, { base := 0, size := 2, tile := 4, count := 1 }), (1, { base := 0x1000, size := 2, tile := 8, count := 2 })]
theorem witness_MatrixMultiply :
    (let s := coreState { rings := tiles }
     s.inExchange 0 = false ∧ s.hereCore.anvil.length < 2 ∧
     s.hereCore.busy ((queuedMma s false 0 0 0 1 0 0).schedule (queuedMma s false 0 0 0 1 0 0).planned) = false ∧
     ∀ p ∈ s.hereCore.pending, p.upd.isBank = false) ∧
    tilesFit (coreState { rings := tiles }) 0 1 0 0 ∧ tilesFilled (coreState { rings := tiles }) 0 0 1 ∧
    ¬ tilesFit (coreState { rings := tiles }) 1 0 0 0 ∧ ¬ tilesFilled (coreState { rings := tiles }) 1 0 1 ∧
    (coreState { rings := tiles, anvil := [queuedMma State.reset false 0 0 2 3 0 0, queuedMma State.reset true 0 0 2 3 0 0] }).hereCore.anvil.length = 2 ∧
    (let m : Mma := { ctx := 0, issued := 0, zero := false, bank := 0, qa := 0, qb := 1, n := 1, wa := 2, wb := 1, tiles := []
                      rows := List.replicate 32 0, stream := List.replicate 32 { data := 1, why := none, poison := 0 } }
     m.wa ≤ 2 ∧ m.wb ≤ 2 ∧ m.stream.length = blockBytes m.wa / 2 + blockBytes m.wb ∧ (∀ l ∈ m.stream, l.why = none ∧ l.poison = 0) ∧ m.rows.length = 32) := by
  refine ⟨by decide +kernel, ?_, ?_, ?_, ?_, by decide +kernel, by decide +kernel⟩
  · refine ⟨by decide +kernel, by decide +kernel, by decide +kernel, by decide +kernel⟩
  · have h : (coreState { rings := tiles }).hereCore.claim 0 + 1 ≤ 1 ∧ (coreState { rings := tiles }).hereCore.claim 1 + 1 ≤ 2 := by decide +kernel
    simpa [tilesFilled, State.hereCore, State.core, coreState, small, State.cluster, Cluster.core, tget, State.reset, tiles] using h
  · exact fun h => absurd h.2.2.1 (by decide +kernel)
  · have h : ¬ ((coreState { rings := tiles }).hereCore.claim 0 + 2 ≤ 1) := by decide +kernel
    intro g
    exact h (by simpa [tilesFilled, State.hereCore, State.core, coreState, small, State.cluster, Cluster.core, tget, State.reset, tiles] using g.1)

theorem witness_Folds :
    (let s := withRegs [(1, 0x2000000), (2, 0x2FFFE0), (3, 0xFFFC0), (4, 0x2100000)] {}
     s.inExchange 0 = false ∧ (s.rs 1).toNat / 2 ^ 20 % 2 ^ 6 = 32 ∧ (s.rs 2).toNat / 2 ^ 20 = 2 ∧ (s.rs 2).toNat % 2 ^ 20 + 32 ≤ 0x100000 ∧
     (s.rs 3).toNat % 2 ^ 20 + 64 ≤ 0x100000 ∧ ¬ (s.rs 4).toNat / 2 ^ 20 % 2 ^ 6 ≤ 32 ∧ s.hereCore.fold = [] ∧
     s.hereCore.busy (({ ctx := 0, issued := 0, zero := false, bank := 1, dst := 0, rows := 32, sup := false, sa := 0xFFFE0, fa := 2, sb := 0xFFFC0, fb := 0, j := 7 } : Fold).schedule 0)
       = false) ∧
    (let f : Fold := { ctx := 0, issued := 0, zero := false, bank := 1, dst := 0, rows := 32, sup := false, sa := 0, fa := 2, sb := 0, fb := 0, j := 7 }
     (coreState { fold := [{ f with start := some 0 }, f] }).hereCore.fold.length = 2 ∧ (coreState {}).t < 0 + f.rows) := by decide +kernel

theorem witness_EngineUpdatesLand :
    (∀ u ∈ ([.ringSet 0 {}, .ringFill 7 1, .ringPop 7 1, .mmaPop 0 1, .bankClear 1, .tsClear 10, .shape 15 1, .pattern 1 63 1, .patternSwitch,
        .bankLand 1 (List.replicate 32 1) 1 true] : List CoreUpdate),
      let p : Pending := ⟨5, 4, 0, u⟩
      let s := small { run := 5, cores := [(0, { pending := [p] })] }
      (s.core 0 0).pending.filter (fun q => decide (q.due ≤ (s.cluster 0).run)) = [p] ∧
      [] = (s.core 0 0).pending.filter (fun q => !decide (q.due ≤ (s.cluster 0).run)) ∧ ((s.core 0 0).ctx 0).replaying = false ∧
      ∀ x, ((s.core 0 0).ctx x).flight = []) ∧
    (let m : Mma := { ctx := 0, issued := 0, zero := true, bank := 0, qa := 0, qb := 1, n := 16, wa := 1, wb := 1, tiles := [], start := some 0 }
     let f : Fold := { ctx := 0, issued := 0, zero := false, bank := 1, dst := 0, rows := 32, sup := false, sa := 0, fa := 2, sb := 0, fb := 0, j := 7 }
     let s := small { run := 384, cores := [(0, { anvil := [m, { m with start := none }], fold := [f] })] }
     (s.core 0 0).anvil = m :: [{ m with start := none }] ∧ 0 + mmaCycles m.n m.wa m.wb ≤ (s.cluster 0).run ∧ (s.core 0 0).fold = f :: [] ∧
     f.planned ≤ (s.cluster 0).run ∧ 0 + 8 + f.rows ≤ (s.cluster 0).run) := by
  refine ⟨?_, by decide +kernel⟩
  intro u _
  exact ⟨rfl, rfl, rfl, fun _ => rfl⟩

/-- A core with nothing in it is open and has room for every command. -/
theorem openRange_of (l : Tbl Word) (k a n : Nat) (h : a + n ≤ 0x100000) : openRange (withRegs l {}) k a n := by
  refine ⟨h, fun q _ => ?_⟩
  by_cases hk : k = 0
  · subst hk
    rfl
  · have : (withRegs l {}).core 0 k = {} := by
      simp [withRegs, coreState, small, State.core, State.cluster, Cluster.core, tget, Ne.symm hk]
    show tget 0 ((withRegs l {}).core 0 k).lent _ = 0
    rw [this]
    rfl
theorem quiet_of (l : Tbl Word) : quietPort (withRegs l {}) := fun b hb => by
  simp [withRegs, coreState, small, State.hereCore, State.core, State.cluster, Cluster.core, tget, State.reset] at hb
theorem witness_LocalCopyAndLoads :
    (let l : Tbl Word := [(1, 0xF0000), (2, 0), (3, 65536), (4, 128), (5, 0xFC0), (6, 0xFFFC0), (7, 65600), (8, 0xFE000)]
     let s := withRegs l {}
     quietPort s ∧ (s.rs 1).toNat = 0xF0000 ∧ (s.rs 3).toNat ≤ 65536 ∧ ¬ (s.rs 7).toNat ≤ 65536 ∧
     openRange s 0 0 65536 ∧ openRange s 0 0xF0000 65536 ∧ 0x100000 < 0xFE000 + 65536 ∧
     ((((0xF0000 / 64 : Nat) : Int) - (0 / 64 : Nat)) % 32 < 5) ∧
     ((s.rs 5).toNat % 2 ^ 6 + ((s.rs 5).toNat / 2 ^ 6 + 1) ≤ 64) ∧ openRange s 0 0x80 (128 * 64) ∧ hasRoom s [.cpy] 4 ∧ hasRoom s [.spld] 2 ∧
     hasRoom s [.shape] 4 ∧ 0xFFFC0 + 48 ≤ 0x100000 ∧ (∀ c ∈ s.hereCore.cmds, c.kind = .spld → c.issued + 1 + c.n < s.t + 2)) ∧
    (((((5 * 64) / 64 : Nat) : Int) - (0 / 64 : Nat)) % 32 = 5 ∧ (768 : Nat) % 256 = 0) ∧
    (let s := coreState { lent := [(3, 1)] }
     ¬ openRange s 0 0 256) ∧
    (let s := coreState { cmds := List.replicate 4 { kind := .cpy, ctx := 0, issued := 0, done := 9 } }
     ¬ hasRoom s [.cpy] 4) ∧ Reached (coreState {}) 0xFFFC0 48 64 ∧ soundWords (coreState {}) 0xFFFC0 48 := by
  refine ⟨⟨quiet_of _, by decide +kernel, by decide +kernel, by decide +kernel, openRange_of _ _ _ _ (by decide), openRange_of _ _ _ _ (by decide), by decide,
    by decide, by decide +kernel, openRange_of _ _ _ _ (by decide), ?_, ?_, ?_, by decide, by decide +kernel⟩, by decide, ?_, ?_, reached_of _ _ _ (by decide) rfl rfl,
    fun _ _ => ⟨nofun, nofun⟩⟩
  · show (0 : Nat) < 4; omega
  · show (0 : Nat) < 2; omega
  · show (0 : Nat) < 4; omega
  · exact fun h => absurd (h.2 3 ⟨by decide, by decide⟩) (by decide +kernel)
  · exact fun h => absurd (show (4 : Nat) < 4 from h) (by decide)
theorem witness_SendsAndSeals :
    (let l : Tbl Word := [(1, 0x0010FFC0), (2, 0x02F00000), (3, 0xFFE), (4, 0x040FF000), (5, 0x20), (6, 0xFFF)]
     let s := withRegs l {}
     quietPort s ∧ sendLegal s 1 2 3 ∧ ¬ sendLegal s 1 2 6 ∧ s.here.tsr.getLsbD 3 = false ∧ openRange s 0 0xFFC0 64 ∧ openRange s 47 0 64 ∧
     hasRoom s [.xsnd, .xrcv] 8 ∧ ((s.rs 4).toNat / 2 ^ 20 = 64 ∧ (s.rs 4).toNat % 2 ^ 20 = 0xFF000) ∧ openRange s 0 0xFF000 (64 * 64) ∧ openRange s 0 0x20 32 ∧
     (∀ q, touches 0xFF000 (64 * 64) 64 q → tget false s.hereCore.forms q = false) ∧ hasRoom s [.sealOp, .openOp] 1) ∧
    (let s := coreState { forms := [(0, true)], cmds := List.replicate 8 { kind := .sealOp, ctx := 0, issued := 0, done := 9 } }
     (touches 0 64 64 0 ∧ tget false s.hereCore.forms 0 = true) ∧ ¬ hasRoom s [.sealOp, .openOp] 1) ∧
    ¬ hasRoom (coreState { cmds := List.replicate 8 { kind := .xrcv, ctx := 0, issued := 0, done := 9 } }) [.xsnd, .xrcv] 8 := by
  refine ⟨⟨quiet_of _, by unfold sendLegal; decide +kernel, by unfold sendLegal; decide +kernel, by decide +kernel, openRange_of _ _ _ _ (by decide),
    openRange_of _ _ _ _ (by decide), ?_, by decide +kernel, openRange_of _ _ _ _ (by decide), openRange_of _ _ _ _ (by decide), fun _ _ => rfl, ?_⟩,
    ⟨⟨⟨by decide, by decide⟩, by decide +kernel⟩, ?_⟩, ?_⟩
  · show (0 : Nat) < 8; omega
  · show (0 : Nat) < 1; omega
  · exact fun h => absurd (show (8 : Nat) < 1 from h) (by decide)
  · exact fun h => absurd (show (8 : Nat) < 8 from h) (by decide)

/-- World 0's segment 0: LIVE, read and write, exported, 2 pages from virtual page 0, its entry at the start of frame 1. -/
def segmentCells : List Host.Cell := [(65536, 0x1D), (65548, 2)]
def hbmState (cl : Cluster) : State :=
  { small cl with hbm := { cells := segmentCells }, worlds := [(0, { World.boot with flags := 0, segments := 1 })] }
/-- Its two pages, at frames 16 and 17, in both translation buffers. -/
def pages : List Translation := [⟨0, 0, 16 * 65536, false, true, false, true, false⟩, ⟨0, 1, 17 * 65536, false, true, false, true, false⟩]
def copyState (l : Tbl Word) : State := hbmState { trigger := true, tlb0 := pages, tlb1 := pages, cores := [(0, { ctxs := [(0, { s := l })] })] }
theorem open_copy (l : Tbl Word) (a n : Nat) (h : a + n ≤ 0x100000) : openRange (copyState l) 0 a n := ⟨h, fun _ _ => rfl⟩
/-- Registers of its copies: lines, offsets, an index list, and CPY.hbm of two lines and of a run past the segment. -/
def copyRegs : Tbl Word :=
  [(1, 0x001FFFC0), (2, 0), (3, 0x1FFC0), (4, 0x20000), (5, 0x001FFE00), (6, 0x00300100), (7, 0x2000), (8, 0x3000), (9, 0x10000)]
theorem one_page (s : State) (e sg : Nat) (rd wr : Bool) (q : Nat) (m : PageMap) (h : s.pageMap s.cur.g e s.hereCluster.world sg q = some m)
    (h1 : m.rd = true) (h2 : m.wr = true) (h3 : (s.segment s.hereCluster.world sg).state = 1) (h4 : (s.segment s.hereCluster.world sg).busy < 65535) :
    pagesHeld s e sg rd wr [q] :=
  fun _ => ⟨h3, h4, fun p hp => ⟨m, by rw [List.mem_singleton.mp hp]; exact h, fun _ => h1, fun _ => h2⟩⟩
theorem witness_HbmCopies :
    (let s := copyState copyRegs
     s.hereCluster.trigger = true ∧ quietPort s ∧ (s.rs 1).toNat % 2 ^ 20 % 64 = 0 ∧ (s.rs 1).toNat / 2 ^ 20 = 1 ∧ openRange s 0 0xFFFC0 64 ∧
     (s.world 0).flags % 2 = 0 ∧ s.copyEngineFull 1 = false ∧ 0x1FFC0 + 64 * 1 ≤ (s.segment 0 0).limit * 65536 ∧
     (s.segment 0 0).limit * 65536 < 0x20000 + 64 * 1) ∧
    (let s := copyState copyRegs
     pagesHeld s 1 0 true true (pagesOf 0x1FFC0 64) ∧ noLeak s 1 0 (pagesOf 0x1FFC0 64) ∧ openRange s 0 0xFFE00 (1 * (64 * 2 ^ 3)) ∧
     openRange s 0 0x100 (4 * 1) ∧ pagesHeld s 1 0 true true (indexPages (s.hereCore.indexWords 0x100 1) (64 * 2 ^ 3) (s.segment 0 0).limit) ∧
     noLeak s 1 0 (indexPages (s.hereCore.indexWords 0x100 1) (64 * 2 ^ 3) (s.segment 0 0).limit) ∧
     (¬ (s.world 0).flags % 2 = 0 ∨ ∃ q, q ∈ pagesOf 0x1FFC0 64)) := by
  have h1 : pagesOf 0x1FFC0 64 = [1] := by decide +kernel
  have h2 : indexPages ((copyState copyRegs).hereCore.indexWords 0x100 1) (64 * 2 ^ 3) ((copyState copyRegs).segment 0 0).limit = [0] := by decide +kernel
  refine ⟨⟨by decide +kernel, fun b hb => ?_, by decide +kernel, by decide +kernel, open_copy _ _ _ (by decide), by decide +kernel, by decide +kernel,
    by decide +kernel, by decide +kernel⟩, ?_, .inl (by decide +kernel), open_copy _ _ _ (by decide), open_copy _ _ _ (by decide), ?_,
    .inl (by decide +kernel), .inr ⟨1, by decide +kernel⟩⟩
  · have : (copyState copyRegs).hereCore.sched = [] := rfl
    rw [this] at hb
    simp at hb
  · rw [h1]
    exact one_page _ _ _ _ _ _ ⟨1, 17, false, true, true⟩ (by decide +kernel) rfl rfl (by decide +kernel) (by decide +kernel)
  · show pagesHeld _ 1 0 true true (indexPages _ _ _)
    rw [h2]
    exact one_page _ _ _ _ _ _ ⟨0, 16, false, true, true⟩ (by decide +kernel) rfl rfl (by decide +kernel) (by decide +kernel)
theorem witness_HbmCopies_between :
    (let s := copyState copyRegs
     (s.rs 9).toNat % 64 = 0 ∧ (s.rs 2).toNat % 64 = 0 ∧ (s.rs 7).toNat / 2 ^ 12 = 2 ∧ (s.rs 7).toNat % 2 ^ 12 = 0 ∧ 0 + 64 * 2 ≤ 0x10000 ∧
     s.cur.trapped = none ∧ s.cur.blocked = false ∧ (s.segment 0 0).limit * 65536 < (s.rs 3).toNat + 64 * ((s.rs 8).toNat / 2 ^ 12) ∧
     0x10000 + 64 * 2 ≤ (s.segment 0 0).limit * 65536 ∧ s.allCmds = []) ∧
    (let s := copyState copyRegs
     pagesHeld s 1 0 true false (pagesOf 0 (64 * 2)) ∧ pagesHeld s 1 0 false true (pagesOf 0x10000 (64 * 2)) ∧ noLeak s 1 0 (pagesOf 0x10000 (64 * 2)) ∧
     (∀ i, i < 2 → plainLine s 1 0 0 i false ⟨0, 16, false, true, true⟩ ∧ plainLine s 1 0 0x10000 i true ⟨1, 17, false, true, true⟩ ∧
       (s.hbm.line (lineHome 0x10000 i ⟨1, 17, false, true, true⟩ / 64)).key ≤ s.hbmOrder 1 + 1 ∧
       s.segAddr 0 0 / 64 ≠ lineHome 0x10000 i ⟨1, 17, false, true, true⟩ / 64) ∧
     ∀ i j, i < 2 → j < 2 → lineHome 0x10000 i ⟨1, 17, false, true, true⟩ = lineHome 0x10000 j ⟨1, 17, false, true, true⟩ → i = j) := by
  have h1 : pagesOf 0 (64 * 2) = [0] := by decide +kernel
  have h2 : pagesOf 0x10000 (64 * 2) = [1] := by decide +kernel
  refine ⟨by decide +kernel, ?_, ?_, .inl (by decide +kernel), fun i hi => ?_, fun i j hi hj h => ?_⟩
  · rw [h1]
    exact one_page _ _ _ _ _ _ ⟨0, 16, false, true, true⟩ (by decide +kernel) rfl rfl (by decide +kernel) (by decide +kernel)
  · rw [h2]
    exact one_page _ _ _ _ _ _ ⟨1, 17, false, true, true⟩ (by decide +kernel) rfl rfl (by decide +kernel) (by decide +kernel)
  · have : i = 0 ∨ i = 1 := by omega
    rcases this with rfl | rfl <;> unfold plainLine <;> decide +kernel
  · simp only [lineHome] at h
    omega

/-- A context with scalars in trigger mode, whose scratchpad may hold a descriptor. -/
def trig (l : Tbl Word) (m : List Host.Cell) : State := coreTrigger { spad := m, ctxs := [(0, { s := l })] }
theorem trig_sound (l : Tbl Word) (m : List Host.Cell) (a : Int) (n : Nat) : soundWords (trig l m) a n := fun _ _ => ⟨nofun, nofun⟩
theorem witness_UntimedOperations :
    UntimedOk (trig [] []) ∧ UntimedOk { ctxTrigger { tsr := 8 } with worlds := [] } ∧
    (let s := trig [(1, 0x1FFFF), (2, 0x20000), (3, 0x21), (4, 0xFFFE0)] []
     (s.rs 1).toNat < 2 ^ 17 ∧ 2 ^ 17 ≤ (s.rs 2).toNat ∧ (s.rs 3).toNat % 32 ≠ 0 ∧ (s.rs 4).toNat % 32 = 0 ∧ openRange s 0 0xFFFE0 32 ∧ quietPort s ∧
     s.here.replay = [] ∧ s.here.untimed.length < 32 ∧ s.hereCore.afault = none ∧ s.here.untimed = [] ∧ soundWords s 0xFFFE0 32) ∧
    (let u : Untimed := { id := 0, kind := 1, issued := 0 }
     let s := ctxTrigger { untimed := List.replicate 32 u, replay := [3] }
     32 ≤ s.here.untimed.length ∧ s.here.replay = 3 :: [] ∧ s.here.untimed ≠ [] ∧ s.here.tsr.getLsbD 3 = false) ∧
    (let s := trig [(1, 0x40)] [(0x48, 0x40), (0x45, 1), (0x85, 1)]
     engineNumber s (0x40 + 8) 4 = 64 ∧ engineNumber s (0x40 + 4) 4 = 0x100 ∧ s.assay.queue.length < 32 ∧ openRange s 0 0x100 64 ∧
       engineNumber s (0x80 + 8) 4 < 64) ∧
    (let s := trig [(1, 0x80)] []
     s.itemOk 0 0 0 = false) ∧
    (let s := { trig [(1, 0x80)] [] with assay := { State.reset.assay with queue := List.replicate 32 ⟨0, 0, 0, false, 1, []⟩ } }
     32 ≤ s.assay.queue.length) := by
  refine ⟨⟨rfl, .inl rfl⟩, ⟨rfl, .inr ⟨rfl, nofun⟩⟩, ⟨by decide +kernel, by decide +kernel, by decide +kernel, by decide +kernel, ⟨by decide, fun _ _ => rfl⟩,
    fun b hb => by simp [trig, coreTrigger, small, State.hereCore, State.core, State.cluster, Cluster.core, tget, State.reset] at hb,
    rfl, by decide +kernel, rfl, rfl, trig_sound _ _ _ _⟩, by decide +kernel, ⟨by decide +kernel, by decide +kernel, by decide +kernel, ⟨by decide, fun _ _ => rfl⟩,
    by decide +kernel⟩, by decide +kernel, by decide +kernel⟩
theorem witness_UntimedOperations_status :
    (let s := trig [(1, 0x40)] [(0x40, 1), (0x50, 1)]
     descriptorOk 1 (engineNumber s 0x40 32) = true ∧ s.sourceStatus 0 (descriptor 1 (engineNumber s 0x40 32)) ≠ codeDone) ∧
    descriptorOk 1 0 = false ∧ UntimedOk (trig [] []) := by
  refine ⟨by decide +kernel, by decide +kernel, rfl, .inl rfl⟩

/-- A token with RT set in the parser of module 5, with the data of its route. -/
def routing (edge : Bool) (d : List Byte) : State :=
  { State.reset with
    moduleId := 5
    pkt := { State.reset.pkt with hv := [5, 0, 0, 0, 4] ++ List.replicate 123 0, bytes := [5, 0, 0, 0, 4] ++ List.replicate 11 0, edge := edge
                                  bundle := { State.reset.pkt.bundle with data := d ++ List.replicate 26 0 } } }
/-- A pipeline whose stage 0 has one bank of counts and one of meters. -/
def arrayed (r : Bool) : State := { State.reset with pipes := [(0, { ready := r, config := [(0, List.replicate 53 0 ++ [1, 0, 1])] })] }
theorem witness_PacketActions :
    (∀ e, (routing e [5, 0, 1, 0, 0, 36]).pkt.hv.length = 128) ∧ (120 : BitVec 7).toNat + 2 ^ (3 : BitVec 2).toNat ≤ 128 ∧
    (let s := routing false [5, 0, 1, 0, 0, 36]
     s.pkt.edge = false ∧ numberAt s.pkt.bytes 0 16 / 2 ^ 12 % 2 ^ 3 = 0 ∧ numberAt s.pkt.hv 0 16 / 2 ^ 34 % 2 = 1 ∧
     numberAt s.pkt.bundle.data 0 2 % 2 ^ 12 = s.moduleId.toNat) ∧
    (let s := routing false [4, 0, 1, 0, 0, 35]
     numberAt s.pkt.bundle.data 0 2 % 2 ^ 12 ≠ s.moduleId.toNat ∧ (byteOf s.pkt.bundle.data 5).toNat < 36) ∧
    (let s := routing false [4, 0, 1, 0, 0, 36]
     numberAt s.pkt.bundle.data 0 2 % 2 ^ 12 ≠ s.moduleId.toNat ∧ 36 ≤ (byteOf s.pkt.bundle.data 5).toNat) ∧
    (routing true [5]).pkt.edge ≠ false ∧
    (let c := ((arrayed true).pipe 0).cfg 0 0
     ((arrayed true).pipe 0).ready = true ∧ 4095 < 4096 * (byteOf c 53).toNat ∧ ¬ 4096 < 4096 * (byteOf c 53).toNat ∧ 1023 < 1024 * (byteOf c 55).toNat ∧
     ¬ 1024 < 1024 * (byteOf c 55).toNat) ∧ ((arrayed false).pipe 0).ready ≠ true := by decide +kernel
/-- A register array at bank 0 takes the sum, and only there; before the pipeline is ready the action leaves it (R283, R289, R298). -/
theorem test_regadd :
    (let s := { arrayed true with pkt := { State.reset.pkt with ready := true, hv := [7] ++ List.replicate 127 0 } }
     (after (exec (.aRegadd 0 0 1 0 0) s)).pkt.hv.take 2 = [7, 0] ∧ (after (exec (.aRegadd 0 0 1 0 0) s)).itemRead 0 3 0 0 0 = [7, 0, 0, 0, 0, 0, 0, 0]) ∧
    (let s := { arrayed false with pkt := { State.reset.pkt with hv := [7] ++ List.replicate 127 0 } }
     (after (exec (.aRegadd 0 0 1 0 0) s)).pkt.hv.take 2 = [0, 0] ∧ (after (exec (.aRegadd 0 0 1 0 0) s)).clusters = []) := by decide +kernel
theorem witness_CoreEvents_rollback :
    (let tr : TrapState := { cycle := 4, handlers := [(0, 0)], rollbackAt := some 5 }
     let s := small { trigger := true, trap := some tr, cores := [(0, { ctxs := [(0, { status := .ready }), (1, { status := .halted })] })] }
     (s.cluster 0).trap = some tr ∧ tr.rollbackAt = some 5 ∧ (s.ctx 0 0 0).status ≠ .never ∧ (s.ctx 0 0 0).status ≠ .halted ∧ (s.ctx 0 0 0).status ≠ .faulted ∧
     tr.handlers.contains (0, 0) = true ∧ (s.ctx 0 0 1).status = .halted ∧ (s.ctx 0 1 0).status = .never) ∧
    (let c := fun (u : Status) => small { trap := some { cycle := 4, handlers := [], rollbackAt := some 5 }, cores := [(0, { ctxs := [(0, { status := u })] })] }
     (∃ x, x < 4 ∧ (((c .ready).cluster 0).trigger = true ∨ x = 0) ∧ ((c .ready).ctx 0 0 x).status ≠ .never ∧ ((c .ready).ctx 0 0 x).status ≠ .halted ∧
       ((c .ready).ctx 0 0 x).status ≠ .faulted) ∧
     ¬ ∃ x, x < 4 ∧ (((c .halted).cluster 0).trigger = true ∨ x = 0) ∧ ((c .halted).ctx 0 0 x).status ≠ .never ∧ ((c .halted).ctx 0 0 x).status ≠ .halted ∧
       ((c .halted).ctx 0 0 x).status ≠ .faulted) := by decide +kernel
theorem witness_CoreEvents_launch :
    (let e : Trigger := { pending := 1 }
     let s := small { trigger := true, triggers := [(63, e)] }
     (s.cluster 0).triggers.find? (fun p => p.2.core == 0 && decide (0 < p.2.pending)) = some (63, e) ∧ (s.cluster 0).isFree 0 0 0 = true) ∧
    (let s := small { trigger := true, cores := [(0, { choosing := some 3, ctxs := [(2, { status := .blocked }), (3, { status := .ready })] })] }
     (s.core 0 0).choosing = some 3 ∧ ((s.core 0 0).ctx 3).status = .ready ∧ ((s.core 0 0).ctx 2).status = .blocked ∧ ((s.core 0 0).ctx 2).fresh = false) := by
  decide +kernel
theorem witness_CoreEvents_drain :
    (let e : WEntry := ⟨0x3FFF, 0, 0, true, [⟨63, 7, 0, false⟩, ⟨0, 1, 0, false⟩]⟩
     let s := coreState { wbuf := [e] }
     (s.core 0 0).wbuf = [e] ∧ e.released = true ∧ (∀ b ∈ e.bytes, b.off < 64) ∧ (e.bytes.map (·.off)).Nodup ∧
     (∀ b ∈ e.bytes, (s.core 0 0).wordPoisoned (8 * e.line + b.off / 8) = false) ∧ (s.core 0 0).sched = [] ∧
     ∀ d ∈ (coreState { wbuf := [{ e with released := false }] }).hereCore.wbuf, d.released = false) := by decide +kernel
theorem witness_CoreEvents_counters :
    (let e : Trigger := { flags := 3, counter := 255, threshold := 7 }
     let s := small { run := 1, counters := [(255, 7)], triggers := [(63, e)] }
     (s.cluster 0).counted < (s.cluster 0).run ∧ (s.cluster 0).bumps = [] ∧ tget {} (s.cluster 0).triggers 63 = e ∧ e.flags % 2 = 1 ∧
     e.threshold ≤ (s.cluster 0).counter e.counter ∧ e.pending < 255) ∧
    (let r : CntRead := ⟨1, 0, 0, 255, 0, 4, true⟩
     let s := small { run := 1, counted := 1, reads := [r] }
     (s.cluster 0).counted = (s.cluster 0).run ∧ (s.cluster 0).reads = [r] ∧ r.due ≤ (s.cluster 0).run ∧ r.sel < 256) ∧
    (let u : Untimed := { id := 3, kind := 1, issued := 0, phase := .bumpDue }
     let s := small { run := 1, bumps := [⟨1, 255, 1, none, some ⟨0, 0, 3⟩⟩], cores := [(0, { ctxs := [(0, { untimed := [u] })] })] }
     (s.cluster 0).counted < (s.cluster 0).run ∧ (s.ctx 0 0 0).untimed = [u] ∧ (u.phase == .bumpDue) = true ∧
     (s.cluster 0).bumps.any (fun b => decide (b.due ≤ (s.cluster 0).run) && (b.op.map (·.id)) == some u.id) = true) ∧
    (∀ i, (tget {} (small { run := 1 }).hereCluster.triggers i).flags % 2 = 0) ∧ (∀ j, ((small { run := 1 }).core 0 j).afault = none) ∧
    (ctxState { status := .atBar }).here.status = .atBar ∧ ((ctxState { status := .atPitch }).ctx 0 0 0).status = .atPitch := by
  refine ⟨by decide +kernel, by decide +kernel, by decide +kernel, fun _ => rfl, fun _ => rfl, by decide +kernel, by decide +kernel⟩

/-- A line of bytes 1. -/
def ones64 : Line := { data := BitVec.ofNat 512 1, tag := 5 }
theorem witness_EngineCompletions_copies :
    (let m : Cmd := { kind := .cpy, ctx := 0, issued := 0, done := 258, src := 0, dst := 0x40000, n := 65536, buf := [(1023, ones64), (1022, ones64), (1021, ones64), (1020, ones64)] }
     let s := small { run := 258, cores := [(0, { cmds := [m] })] }
     (s.core 0 0).cmds = [m] ∧ m.done = (s.cluster 0).run ∧ m.done = m.issued + 2 + (m.n + 255) / 256 ∧ 64 ≤ m.n ∧ m.n % 64 = 0 ∧
     ∀ i, 4 * ((m.n + 255) / 256 - 1) ≤ i → i < m.n / 64 → m.buf.find? (fun q => q.1 == i) = some (i, ones64)) ∧
    (let m : Cmd := { kind := .hget, ctx := 0, issued := 0, done := 640 + 1, n := 1, w := 640, maps := [⟨0, 16, false, true, true⟩] }
     let s := { State.reset with clusters := [(0, { run := 641, cores := [(0, { cmds := [m] })] })] }
     s.clusters = [(0, s.cluster 0)] ∧ (s.cluster 0).cores = [(0, s.core 0 0)] ∧ (s.core 0 0).cmds = [m] ∧ m.done = (s.cluster 0).run ∧ m.late = false ∧
     m.failed = false ∧ m.done = m.issued + m.w + (m.n + 1) / 2 ∧ m.lineAt false 0 = some (16 * 1024, false) ∧ m.lineAt false 65536 = none) ∧
    (let m : Cmd := { kind := .hput, ctx := 0, issued := 0, done := 641, n := 1, w := 640 }
     m.issued + (m.n + 1) / 2 < 641 ∧ ({ m with kind := .cpyHbm } : Cmd).kind = .cpyHbm) := by
  refine ⟨⟨by decide +kernel, by decide, by decide, by decide, by decide, ?_⟩, by decide +kernel, by decide⟩
  intro i h1 h2
  have h1' : 1020 ≤ i := h1
  have h2' : i < 1024 := h2
  have : i = 1020 ∨ i = 1021 ∨ i = 1022 ∨ i = 1023 := by omega
  rcases this with h | h | h | h <;> subst h <;> rfl
theorem witness_EngineCompletions_sends :
    (let a : SideAcc := { due := 5, kind := .send, issued := 1, source := 1, ctx := 0, core := 0, line := 31, data := some ones64 }
     let b : SideAcc := { a with source := 2, line := 63 }
     let s := small { run := 5, side := [a, b] }
     (s.cluster 0).side = [a, b] ∧ a.kind = .send ∧ a.core = 0 ∧ a.due = (s.cluster 0).run ∧ a.done = false ∧ a.data = some ones64 ∧ a.fail = none ∧
     b.line % 32 = a.line % 32 ∧ b.line ≠ a.line ∧ a.issued = b.issued ∧ a.source < b.source) ∧
    (let a : SideAcc := { due := 5, kind := .pullRead, issued := 1, source := 0, ctx := 0, core := 1, line := 31, tag := 5 }
     let s := small { run := 5, side := [a], cores := [(1, { tags := [(31, 5), (30, 0xFFF)] })] }
     (s.cluster 0).side = [a] ∧ a.core ≠ 0 ∧ ((s.core 0 1).bankLine 31).tag = a.tag ∧ ((s.core 0 1).bankLine 31).tag ≠ 0xFFF ∧
     ((s.core 0 1).bankLine 30).tag = 0xFFF ∧ ((s.core 0 1).bankLine 29).tag ≠ a.tag) ∧
    (let a : SideAcc := { due := 5, kind := .pull, issued := 1, source := 0, ctx := 0, core := 0, line := 31, data := some ones64 }
     a.kind = .pull ∧ a.data = some ones64 ∧ a.fail = none) := by decide +kernel
theorem witness_EngineCompletions_seals :
    (let m : Cmd := { kind := .sealOp, ctx := 0, issued := 0, done := 15, n := 1, other := 0x20, iv := List.replicate 12 1 }
     let s := small { run := 15, cores := [(0, { cmds := [m] })] }
     (s.core 0 0).cmds = [m] ∧ m.done ≤ (s.cluster 0).run ∧ m.other % 32 = 0 ∧ m.iv.length = 12) ∧
    (let m : Cmd := { kind := .openOp, ctx := 0, issued := 0, done := 142, n := 64, other := 0x20, buf := [(63, ones64)] }
     let s := fun (t : Nat) (f : Bool) => small { run := t, cores := [(0, { cmds := [{ m with failed := f }] })] }
     m.done = m.issued + 14 + 2 * m.n ∧ m.other % 32 = 0 ∧ ((s 77 false).cluster 0).run = m.issued + 13 + m.n ∧ ((s 141 false).cluster 0).run = m.issued + 14 + m.n + 63 ∧
     m.buf.find? (fun q => q.1 == 63) = some (63, ones64) ∧ m.buf.find? (fun q => q.1 == m.n) = none ∧ ((s 142 false).cluster 0).run = m.done ∧
     ((s 78 true).cluster 0).run = m.issued + 14 + m.n ∧ ((s 78 true).core 0 0).wordPoisoned (m.other / 8 + 1) = false ∧
     ((s 142 false).core 0 0).cmds = [m]) := by decide +kernel

/-- An operation of core 0, alone. -/
def withOp (u : Untimed) : State := ctxTrigger { untimed := [u] }
theorem onlyOp_of (u : Untimed) : onlyOp (withOp u) 0 0 0 u := by
  refine ⟨rfl, by decide, by decide, by decide, rfl, fun y hy => ?_⟩
  have : (withOp u).ctx 0 0 y = {} := by
    simp [withOp, ctxTrigger, coreTrigger, small, State.ctx, State.core, State.cluster, Cluster.core, Core.ctx, tget, Ne.symm hy]
  rw [this]
theorem witness_UntimedEvents_departs :
    (let u : Untimed := { id := 0, kind := 6, issued := 0, length := 16, data := List.replicate 16 0, handle := 35 }
     onlyOp (withOp u) 0 0 0 u ∧ u.phase = .queued ∧ u.length ≤ u.data.length ∧ u.handle % 64 < 36) ∧
    (let u : Untimed := { id := 0, kind := 4, issued := 0, module := 4095, length := 8192 }
     onlyOp (withOp u) 0 0 0 u ∧ u.phase = .queued ∧ u.module ≠ (withOp u).moduleId.toNat ∧ u.module < 4096 ∧ u.length - u.gone ≤ 8192 ∧
     ((withOp u).port (routePort 4095)).trained = false ∧ 0 ≤ (withOp u).tick.toNat) ∧
    (let u : Untimed := { id := 0, kind := 2, issued := 0, module := 4095, length := 1 }
     let s := { withOp u with ports := (List.range 128).map fun i => (i, { trained := true }) }
     u.offset + u.gone < 2 ^ 40 ∧ u.kind ≤ 2 ∧ s.tick.toNat = 0) := by
  refine ⟨⟨onlyOp_of _, rfl, by decide, by decide⟩, ⟨onlyOp_of _, rfl, by decide, by decide, by decide, rfl, by decide⟩, by decide +kernel⟩
theorem witness_UntimedEvents_completes :
    (let u : Untimed := { id := 0, kind := 4, issued := 0, phase := .completed, cairn := true }
     onlyOp (withOp u) 0 0 0 u ∧ u.phase = .completed ∧ u.cairn = true) ∧
    (let u : Untimed := { id := 0, kind := 3, issued := 0, phase := .departed, awaiting := 1 }
     let s := { withOp u with tick := 2 ^ 20 }
     u.phase = .departed ∧ 0 < u.awaiting ∧ u.departTick + 2 ^ 20 ≤ s.tick.toNat ∧ onlyOp (withOp u) 0 0 0 u) := by
  refine ⟨⟨onlyOp_of _, rfl, rfl⟩, rfl, by decide, by decide +kernel, onlyOp_of _⟩

/-- A ring of 8 slots at 0x400 with HEAD and TAIL. -/
def ringCells (tail : List Host.Cell) : State := coreState { spad := tail ++ [(0x408, 8)] }
theorem witness_rings :
    (ringAt (ringCells []) 0 0 0x400 32 ∧ ringRoom (ringCells []) 0 0 0x400) ∧
    (ringAt (ringCells [(0x400, 8)]) 0 0 0x400 512 ∧ ¬ ringRoom (ringCells [(0x400, 8)]) 0 0 0x400) ∧
    (let s := coreState { spad := [(0x408, 7)] }
     (∀ i, i < 2 → (s.core 0 0).err (0x400 / 8 + i) = .sound) ∧ (s.core 0 0).ringValid 0x400 (bankNumber s 0 0 0x408 4) 32 = false) := by
  refine ⟨⟨⟨rfl, by decide, by decide, by decide +kernel, fun _ _ => rfl⟩, by unfold ringRoom; decide +kernel⟩,
    ⟨⟨rfl, by decide, by decide, by decide +kernel, fun _ _ => rfl⟩, by unfold ringRoom; decide +kernel⟩, fun _ _ => rfl, by decide +kernel⟩
theorem witness_UntimedEvents_cairns :
    (let q : CairnReq := { core := 47, base := 0x400, status := 0, kind := 1, flags := 0, world := 0, source := 0, order := 0, stamp := 0, count := 0 }
     let s := { State.reset with cairns := [q] }
     s.cairns = [q] ∧ q.core = 48 * 0 + 47 ∧ q.op = none ∧ q.wrote = none ∧ q.stalled = false ∧ (s.cluster 0).fenced = false ∧
     ({ q with wrote := some 3, irq := some (16, 15) } : CairnReq).wrote = some 3 ∧ (s.func 16).masked.getLsbD 15 = true) ∧
    (let s := { State.reset with funcs := [(16, { masked := 0 })], worlds := [(16, World.boot)] }
     (s.world 16).state = 1 ∧ (s.func 16).masked.getLsbD 10 = false ∧ (s.func 16).allMasked = false) := by decide +kernel

theorem fits_of {p : Port} {c n : Nat} (hp : p.egress = []) (hn : n ≤ 768) : p.fits c n = true := by
  have h0 : ∀ k, p.held k = 0 := fun k => by simp [Port.held, hp]
  simp only [Port.fits, Port.fitsAll, h0, decide_eq_true_eq, List.range, List.range.loop, List.map_cons, List.map_nil, List.sum_cons, List.sum_nil]
  split <;> split <;> split <;> split <;> omega

theorem read_departs (s : State) (h : (s.port (routePort 4095)).egress = []) (h1 : 4095 ≠ s.moduleId.toNat) :
    s.canDepart { id := 0, kind := 2, issued := 0, module := 4095, length := 1 } = true := by
  have hn : flitsOf (s.packetOf { id := 0, kind := 2, issued := 0, module := 4095, length := 1 }).length ≤ 768 := by
    simp [State.packetOf, fabricHeader, leBytes, flitsOf]
  have hr : ({ id := 0, kind := 2, issued := 0, module := 4095, length := 1 } : Untimed).reads = 0 := rfl
  simp only [State.canDepart, hr, State.fabricRoom, h1, if_false, fits_of h hn]
  rfl

/-- A remote read that may leave: its packet has room whatever the route is. -/
theorem witness_UntimedEvents_room :
    (let u : Untimed := { id := 0, kind := 2, issued := 0, module := 4095, length := 1 }
     let s := { withOp u with ports := [(routePort 4095, { trained := true })] }
     onlyOp s 0 0 0 u ∧ s.canDepart u = true ∧ (s.port (routePort u.module)).trained = true ∧ (s.port (routePort u.module)).edge = false) ∧
    (let u : Untimed := { id := 0, kind := 1, issued := 0, module := 4095, length := 1 }
     (withOp u).canDepart u = false ∧ (withOp { u with kind := 2 }).canDepart { u with kind := 2 } = true ∧
     ((withOp u).port (routePort u.module)).trained = false) := by
  refine ⟨⟨⟨rfl, by decide, by decide, by decide, rfl, (onlyOp_of _).2.2.2.2.2⟩, ?_, by simp [State.port, tget], by simp [State.port, tget]⟩, by decide +kernel, ?_, rfl⟩
  · exact read_departs _ (by simp [State.port, tget]) (by decide)
  · exact read_departs _ rfl (by decide)

theorem witness_UntimedEvents_bumps :
    (let u : Untimed := { id := 0, kind := 1, issued := 0, phase := .completed, bump := true, counter := 255 }
     onlyOp (withOp u) 0 0 0 u ∧ u.phase = .completed ∧ u.cairn = false ∧ u.refused = false ∧ u.bump = true) ∧
    (let u : Untimed := { id := 0, kind := 1, issued := 0, phase := .completed, cairn := true, bump := true, refused := true }
     onlyOp (withOp u) 0 0 0 u ∧ (u.cairn = true ∨ u.refused = true)) := by
  refine ⟨⟨onlyOp_of _, rfl, rfl, rfl, rfl⟩, onlyOp_of _, .inl rfl⟩
/-- The check value of the CRC of 12 R273: that of the nine digits. -/
theorem test_crc32 : crc32 [0x31, 0x32, 0x33, 0x34, 0x35, 0x36, 0x37, 0x38, 0x39] = 0xCBF43926 := by decide +kernel
theorem witness_PipelineEvents_ingress :
    (let s := { State.reset with ports := [(34, { trained := true, edge := true }), (35, { trained := true })] }
     (s.port 0).trained = false ∧ (s.port 35).trained = true ∧ (s.port 35).edge = false ∧ (s.port 34).edge = true ∧ (s.port 34).ingress = [] ∧
     16 ≤ (List.replicate 16 (0 : Byte)).length ∧ ((35 : Nat) < 36)) ∧
    (let b := zeros 60 ++ leBytes 4 (crc32 (zeros 60))
     b.length = 64 ∧ field b 60 4 = crc32 (b.take 60) ∧ (zeros 64).length = 64 ∧ field (zeros 64) 60 4 ≠ crc32 ((zeros 64).take 60)) ∧
    (let k : Packet := { bytes := List.replicate 16 0 }
     let s := { State.reset with ports := [(0, { ingress := [k] })] }
     s.nextDisp 0 = none ∧ s.parserFree 0 = true ∧ s.nextPacket 0 = some (k, true) ∧ (s.port 0).edge = false ∧ State.reset.nextPacket 0 = none) ∧
    (let d : Disp := { ready := 0, cls := 0, edge := false, bytes := List.replicate 16 0, hv := List.replicate 71 0 ++ [4] ++ List.replicate 56 0, world := 0 }
     let s := { State.reset with pipes := [(0, { flight := [d] })] }
     s.nextDisp 0 = some d ∧ d.bit 2 = true ∧ d.counts = []) := by decide +kernel
theorem witness_PipelineEvents_absorbs :
    (let q : AbsorbLine := ⟨0, 7, 0xFFFC0, List.replicate 64 1⟩
     let a : Absorb := { id := 7, cluster := 0, core := 0, addr := 0xFFFC0, bytes := List.replicate 64 1, handed := 64, queued := 1, landing := some 255 }
     let s := { State.reset with absorbQ := [(bankKey 0 0 31, [q])], pipes := [(0, { absorbs := [a] })] }
     s.queueOf 0 0 31 = q :: [] ∧ (s.cluster 0).fenced = false ∧ (s.pipe q.pipe).absorbs = [a] ∧ a.id = q.absorb ∧ a.op = none ∧ a.faulted = false ∧ a.counts = [] ∧
     q.addr % 64 + q.bytes.length ≤ 64 ∧ 0 < q.bytes.length ∧ (∀ i, i < 8 → (s.core 0 0).err (8 * (q.addr / 64) + i) = .sound) ∧
     (a.queued = 1 ∧ a.handed = a.bytes.length) ∧ tget 0 ({ forms := [(0x3FFF, true)], lent := [(31, 1)] } : Core).lent (q.addr / 64 % 32) ≠ 0 ∧
     (s.pipe q.pipe).punts.length < 64) ∧
    (let a : Absorb := { id := 7, cluster := 0, core := 0, addr := 0, bytes := [1, 2], handed := 1 }
     let s := { State.reset with tick := 1024, pipes := [(0, { absorbs := [a] })] }
     (s.pipe 0).absorbs = [a] ∧ a.op = none ∧ a.counts = [] ∧ a.handed < a.bytes.length ∧ a.waiting + 1024 ≤ s.tick.toNat ∧ State.reset.tick.toNat < a.waiting + 1024) := by
  decide +kernel
theorem witness_PipelineEvents_punts :
    (let q : Punt := { header := [], bytes := [], world := 0 }
     let s := { ringCells [] with pipes := [(0, { punts := [q] })], worlds := [(0, { World.boot with puntBase := 0x400 })] }
     (s.pipe 0).punts = q :: [] ∧ (s.world q.world).state = 1 ∧ (s.world q.world).puntBase = 0x400 ∧ (s.world q.world).puntCore = 0 ∧ (State.reset.world 0).puntBase = 0) ∧
    ringAt (ringCells []) 0 0 0x400 512 := by
  refine ⟨by decide +kernel, rfl, by decide, by decide, by decide +kernel, fun _ _ => rfl⟩
theorem witness_PipelineEvents_writes :
    (let u : Untimed := { id := 0, kind := 6, issued := 0, phase := .departed }
     let q : TableWrite := ⟨6 * 2 ^ 6, 255, zeros 64, 0, ⟨0, 0, 0⟩⟩
     let s := { withOp u with pipes := [(0, { writes := [q] })] }
     (s.pipe 0).writes = q :: [] ∧ hPort q.handle = 0 ∧ q.op = ⟨48 * 0 + 0, 0, u.id⟩) ∧
    (let u : Untimed := { id := 0, kind := 6, issued := 0, phase := .departed }
     onlyOp { withOp u with pipes := [(0, { writes := [⟨6 * 2 ^ 6, 255, zeros 64, 0, ⟨0, 0, 0⟩⟩] })] } 0 0 0 u) := by
  refine ⟨by decide +kernel, rfl, by decide, by decide, by decide, rfl, (onlyOp_of _).2.2.2.2.2⟩

theorem witness_LinkEvents_sends :
    (let f : Flit := ⟨3, 0, true, true, List.replicate 120 0⟩
     let k : Packet := { bytes := List.replicate 120 0, cls := 3, world := 31 }
     let s := { State.reset with ports := [(33, { trained := true, resend := [f] }), (34, { trained := true, edge := true, egress := [k] }),
       (35, { trained := true, egress := [k], credits := [(3, 1)] })] }
     s.egressDue 0 = false ∧ s.egressDue 33 = true ∧ (s.port 33).resend = f :: [] ∧ s.egressDue 34 = true ∧ (s.port 34).edge = true ∧ (s.port 34).egress = [k] ∧
     s.egressDue 35 = true ∧ (s.port 35).resend = [] ∧ (s.port 35).egress = [k] ∧ k.sent = 0 ∧ k.bytes.length ≤ 120 ∧ 0 < k.bytes.length ∧ k.cls < 4 ∧ k.world < 32 ∧
     k.op = none ∧ 0 < tget 0 (s.port 35).credits k.cls ∧ (s.port 35).retry.length < 512) := by decide +kernel

/-- A frame of a kind for port 35 of module 0 on tick 0, with its CRC. -/
def frameOf (kind : Nat) (flit : List Byte) : Frame :=
  { flit := flit, crc := BitVec.ofNat 32 (crc32c (leBytes 2 0 ++ leBytes 1 0 ++ [0] ++ leBytes 2 0 ++ leBytes 1 35 ++ [0] ++ leBytes 8 0 ++ leBytes 1 kind ++ padTo 128 flit)) }
def linked : State := { State.reset with ports := [(35, { trained := true })] }
theorem witness_LinkEvents_frames :
    linked.reservedIn 35 0 = false ∧ (linked.port 35).trained = true ∧ (linked.port 35).edge = false ∧ linked.frameOk 35 0 (frameOf 0 (zeros 128)) = true ∧
    linked.frameOk 35 0 (frameOf 1 (zeros 128)) = false ∧ linked.frameOk 35 1 (frameOf 1 (leBytes 8 (3 * 2 ^ 27) ++ zeros 120)) = true ∧
    field (leBytes 8 (3 * 2 ^ 27) ++ zeros 120) 0 8 % 4096 = (linked.port 35).expected ∧ field (leBytes 8 (3 * 2 ^ 27) ++ zeros 120) 0 8 / 2 ^ 27 % 4 = 3 ∧
    linked.frameOk 35 1 (frameOf 1 (leBytes 8 4095 ++ zeros 120)) = true ∧ field (leBytes 8 4095 ++ zeros 120) 0 8 % 4096 ≠ (linked.port 35).expected := by decide +kernel
theorem witness_LinkEvents_lines :
    (let f : Flit := ⟨3, 0, true, true, []⟩
     let s := { State.reset with tick := 4096, ports := [(0, { trained := true, retry := [f], fruitless := 31 }), (1, { trained := true, retry := [f], fruitless := 32 }),
       (2, { fixed := 1023 }), (3, { edge := true }), (4, { sentTick := some 4096 })] }
     (s.port 0).trained = true ∧ (s.port 0).edge = false ∧ (s.port 0).retry ≠ [] ∧ (s.port 0).ackTick + 4096 ≤ s.tick.toNat ∧ (s.port 0).fruitless < 32 ∧
     32 ≤ (s.port 1).fruitless ∧ (s.port 2).retry = [] ∧ (s.port 2).trained = false ∧ (s.port 3).fixed = 0 ∧ 1023 ≤ (s.port 2).fixed ∧ (s.port 2).fixed ≤ 1023 ∧ (s.port 2).fixed < 1024 ∧
     s.edges < 8 ∧ (s.port 2).edge = false ∧ (s.port 2).sentTick ≠ some s.tick.toNat ∧ (s.port 3).trained = false ∧ (s.port 3).edge = true ∧
     (s.port 4).sentTick = some s.tick.toNat) ∧
    (let q : LinkInfo := { up := true, peer := 4095, peerPort := 35, rawDelay := 1023, parent := true, peerTick := 0, peers := [(4095, 3)] }
     q.up = true ∧ q.peer < 4096 ∧ q.peers = [(4095, 3)] ∧ 1 ≤ q.rawDelay ∧ q.rawDelay ≤ 1023) := by
  decide +kernel

/-- A timetable section with one pitch entry for pitch 1 and one record and collective. -/
def ttOne (kind pull port src dst srcAddr dstAddr count tag : Nat) : List Byte :=
  zeros 4 ++ leBytes 4 1 ++ leBytes 4 1 ++ leBytes 4 1 ++ zeros 48 ++
    (leBytes 4 1 ++ leBytes 4 1 ++ leBytes 4 0 ++ leBytes 2 1 ++ leBytes 2 0) ++
    (leBytes 4 0 ++ leBytes 1 2 ++ zeros 11) ++
    (leBytes 4 0 ++ leBytes 1 kind ++ leBytes 1 pull ++ leBytes 2 port ++ leBytes 2 src ++ leBytes 2 dst ++ leBytes 4 srcAddr ++ leBytes 4 dstAddr ++
      leBytes 4 count ++ leBytes 2 tag ++ zeros 6)
def timed (kind pull port : Nat) : Domain := { part with pcn := 1, startTick := 100, timetable := ttOne kind pull port 0 0 0 128 128 5 }
def timedState (kind pull port : Nat) (cl : Cluster) : State := { small cl with domains := [timed kind pull port], ports := [(35, { trained := true })] }
theorem witness_LinkEvents_scheduled :
    (let s := { timedState 3 0 35 {} with tick := 100 }
     s.reservedIn 35 100 = true ∧ (s.lineOn 3 35 100).isSome = true ∧ (s.port 35).landing.length < 1024 ∧
     ∃ fr : Frame, s.frameOk 35 2 fr = true) := by
  refine ⟨?_, by decide +kernel, by decide +kernel, ⟨zeros 128, BitVec.ofNat 32 (crc32c (leBytes 2 0 ++ leBytes 1 0 ++ [0] ++ leBytes 2 0 ++ leBytes 1 35 ++ [0] ++ leBytes 8 100 ++ leBytes 1 2 ++ zeros 128))⟩,
    by decide +kernel⟩
  have h : (State.tickDomain { timedState 3 0 35 {} with tick := 100 } 3 35 100).isSome = true := by decide +kernel
  show (_ || _) = true
  rw [h, Bool.or_true]
theorem witness_LinkEvents_unfilled :
    let s := { small {} with domains := [{ timed 2 1 35 with pcn := 2 }], ports := [(35, { trained := true })], tick := 100 }
    s.egressDue 35 = true ∧ (s.port 35).edge = false ∧ s.unfilled 35 100 = some { timed 2 1 35 with pcn := 2 } ∧ s.unfilled 35 99 = none := by decide +kernel
theorem witness_TimetableEvents_departs :
    (let s := timedState 2 1 35 {}
     let d := timed 2 1 35
     s.domains = [d] ∧ d.id = 1 ∧ (d.recordOf 2 0).map (·.port) = some 35 ∧ (d.recordOf 2 0).map (s.departReadDue d) = some true ∧ (d.recordOf 2 0).map (·.pull) = some true ∧
     (d.recordOf 2 0).map (·.tag) = some 5) ∧
    (let s := { timedState 2 0 35 { run := 1 } with tick := 100, ports := [(35, { trained := true, departing := [⟨100, [], false⟩] })] }
     let d := timed 2 0 35
     (d.recordOf 2 0).map (s.departReadDue d) = some false ∧ (d.recordOf 2 0).map (s.departDue d) = some true) := by decide +kernel
theorem witness_TimetableEvents_lands :
    (let a : SideAcc := { due := 8, kind := .landing, issued := 0, source := 35, ctx := 0, core := 0, line := 2, dst := 1, tag := 5 }
     let s := { timedState 3 0 35 { run := 8, side := [a] } with ports := [(35, { trained := true, landing := [⟨100, some (zeros 131)⟩] })] }
     0 ∈ (timed 3 0 35).clusters ∧ (timed 3 0 35).phase ≠ .ended ∧ s.clusters = [(0, s.cluster 0)] ∧ (s.cluster 0).side = [a] ∧ (s.cluster 0).holding = none ∧
     (s.cluster 0).fenced = false ∧ (s.cluster 0).frozen = false ∧ a.due = (s.cluster 0).run ∧ a.fail = none ∧ a.data = none ∧
     (timed 3 0 35).startTick + (a.due - (s.cluster 0).pitchRun - 8) = 100 ∧ (s.port 35).landing = [⟨100, some (zeros 131)⟩]) := by decide +kernel
theorem witness_TimetableEvents_steps :
    (let a : SideAcc := { due := 12, kind := .exchange, issued := 0, source := 0, ctx := 0, core := 0, line := 2 }
     let s := timedState 1 0 0 { side := [a] }
     let d := timed 1 0 0
     (d.recordOf 1 0).isSome = true ∧ (d.recordOf 1 0).map (fun x => s.readDue d x x.chunks) = some true ∧ (d.recordOf 1 0).map (·.dstAddr) = some 128 ∧ a.line = 128 / 64 + 2 * 0) ∧
    (let a : SideAcc := { due := 12, kind := .exchange, issued := 0, source := 0, ctx := 0, core := 0, line := 2, data := some ones64 }
     let s := timedState 1 0 0 { run := 12, side := [a] }
     ((timed 1 0 0).recordOf 1 0).map (fun x => s.readDue (timed 1 0 0) x x.chunks) = some false ∧ a.due = (s.cluster 0).run) ∧
    (let s := timedState 4 0 0 {}
     let d := timed 4 0 0
     (d.recordOf 4 0).map (fun x => s.readDue d x (x.count / 128)) = some true ∧ (ttColl d.timetable 0).type = 2 ∧ (ttColl d.timetable 0).op = 0) ∧
    (let w : StepWrite := ⟨8, 0, 128, zeros 128, 0⟩
     let s := { timedState 4 0 0 { run := 8 } with domains := [{ timed 4 0 0 with writes := [w] }] }
     ((timed 4 0 0).recordOf 4 0).map (fun x => s.readDue (timed 4 0 0) x (x.count / 128)) = some false ∧ s.stepWriteDue w = true ∧ w.addr % 8 = 0 ∧ w.bytes.length % 8 = 0) := by
  decide +kernel

/-- A state with one domain. -/
def withDomain (d : Domain) (cl : Cluster) : State := { small cl with domains := [d] }
/-- The 48 cores of a cluster, each with its context 0 in a status. -/
def allCores (st : Status) : Tbl Core := (List.range 48).map fun k => (k, { ctxs := [(0, { status := st })] })
theorem witness_DomainEvents_boundary :
    (let s := withDomain part { cores := allCores .atBoundary }
     s.domain 1 = some part ∧ s.boundaryReady part = true ∧ part.fatal = none ∧ s.linksLost part = false ∧ (State.reset.boundaryReady part) = false) ∧
    (let d := { part with pcn := 3, failure := some 1, replays := 3 }
     let s := withDomain d { cores := allCores .atBoundary }
     s.boundaryReady d = true ∧ d.pcn.toNat % 2 = 1 ∧ d.failure.isSome = true ∧ 3 ≤ d.replays ∧ ({ d with fatal := some 9 } : Domain).fatal = some 9) ∧
    (let d := { timed 2 0 35 with pcn := 2 }
     let s := { withDomain d { cores := allCores .atBoundary } with ports := [(35, { packetsOnly := true })] }
     s.boundaryReady d = true ∧ d.fatal = none ∧ d.failure = none ∧ s.linksLost d = true) ∧
    (let d := { part with phase := .col 0 }
     let s := { withDomain d {} with now := 32 }
     s.startNow d = some (0, 1) ∧ (1 : Word) ≠ d.pcn ∧ State.reset.startNow d = none) := by decide +kernel
theorem afaults_none (d : Domain) : ∀ g k, ((withDomain d {}).core g k).afault = none := by
  intro g k
  by_cases h : g = 0
  · subst h
    rfl
  · have : (withDomain d {}).cluster g = {} := by simp [withDomain, small, State.cluster, tget, Ne.symm h]
    show (((withDomain d {}).cluster g).core k).afault = none
    rw [this]
    rfl

theorem tget_all {α : Type} (P : α → Prop) (d : α) (hd : P d) : ∀ (l : Tbl α), (∀ q ∈ l, P q.2) → ∀ n, P (tget d l n)
  | [], _, _ => hd
  | (k, v) :: t, h, n => by
    unfold tget
    split
    · exact h (k, v) List.mem_cons_self
    · exact tget_all P d hd t (fun q hq => h q (List.mem_cons_of_mem _ hq)) n
theorem afaults_none_all (d : Domain) (st : Status) : ∀ g k, ((withDomain d { cores := allCores st }).core g k).afault = none := by
  intro g k
  refine tget_all (fun c : Core => c.afault = none) {} rfl _ (fun q hq => ?_) k
  refine tget_all (fun c : Cluster => ∀ q ∈ c.cores, q.2.afault = none) {} nofun _ (fun c hc => ?_) g q hq
  intro q hq
  rw [List.mem_singleton.mp hc] at hq
  obtain ⟨i, -, rfl⟩ := List.mem_map.mp hq
  rfl

/-- The neighbours of a domain: its parent on port 34 and a child on port 35. -/
def parent34 : Neighbour := { port := 34, parent := true }
def child35 : Neighbour := { port := 35, parent := false, ready := true }
def joined (ph : DomainPhase) : Domain := { part with phase := ph, neighbours := [parent34, child35] }
/-- Its state on the sync tick of a port, and a domain whose child asks for a replay. -/
def ticking (d : Domain) (p : Nat) : State :=
  { withDomain d {} with now := 16, tick := BitVec.ofNat 64 (Config.syncPhase 1 p % 256), ports := [(p, { trained := true })] }
theorem ticking_due (d : Domain) (p : Nat) (hi : d.id = 1) (he : (d.phase != .ended) = true) (hn : d.neighbours.any (fun n => n.port == p) = true) :
    (ticking d p).syncDue d p = true := by
  have h : Config.syncPhase 1 p % 256 < 256 := Nat.mod_lt _ (by decide)
  simp only [State.syncDue, he, hn, ticking, State.port, tget, Port.burcon, syncOut, hi]
  simp
def asked (st : Option Nat) : Domain := { joined (.col 0) with pcn := 1, failure := st, neighbours := [parent34, { child35 with replay := true, status := 7 }] }
theorem witness_DomainEvents_ticks :
    ((ticking (joined (.col 0)) 34).syncDue (joined (.col 0)) 34 = true ∧ (joined (.col 0)).neighbours.find? (fun n => n.port == 34) = some parent34 ∧
      (joined (.col 0)).stop = none ∧ (ticking (joined (.col 0)) 34).locallyReady (joined (.col 0)) = true ∧ (joined (.col 0)).childrenReady = true ∧
      (joined (.col 0)).wantsReplay = false) ∧
    (∀ st, (ticking (asked st) 34).syncDue (asked st) 34 = true ∧ (ticking (asked st) 34).locallyReady (asked st) = true ∧ (asked st).childrenReady = true ∧
      (asked st).neighbours.find? (fun n => !n.parent && n.replay) = some { child35 with replay := true, status := 7 } ∧ (asked st).stop = none) ∧
    (asked none).wantsReplay = true ∧ (asked (some 3)).wantsReplay = true ∧ (asked none).failure = none ∧ (asked (some 3)).failure = some 3 ∧
    (let d := { joined (.col 0) with delayed := [(0, 0, 0)] }
     (ticking d 34).syncDue d 34 = true ∧ (ticking d 34).locallyReady d = false ∧ d.delayed ≠ [] ∧ d.stop = none) ∧
    (let d := { joined (.col 0) with go := some (2 ^ 64 - 1, 1) }
     (ticking d 35).syncDue d 35 = true ∧ d.neighbours.find? (fun n => n.port == 35) = some child35 ∧ child35.parent = false ∧
     d.go = some (2 ^ 64 - 1, 1)) ∧
    (let d := { joined (.stopped codePreempted) with stop := some codePreempted }
     (ticking d 35).syncDue d 35 = true ∧ d.stop = some codePreempted) ∧ State.reset.syncDue (joined (.col 0)) 34 = false := by
  refine ⟨⟨ticking_due _ _ rfl rfl rfl, rfl, rfl, rfl, rfl, rfl⟩, fun st => ⟨ticking_due _ _ rfl rfl rfl, rfl, rfl, rfl, rfl⟩, rfl, rfl, rfl, rfl,
    ⟨ticking_due _ _ rfl rfl rfl, rfl, by decide, rfl⟩, ⟨ticking_due _ _ rfl rfl rfl, rfl, rfl, rfl⟩, ⟨ticking_due _ _ rfl rfl rfl, rfl⟩, rfl⟩
theorem witness_DomainEvents_losses :
    (let d := { joined (.col 0) with neighbours := [{ parent34 with losses := 16 }], goLate := true, delayed := [(0, 0, 0)] }
     (∃ n ∈ d.neighbours, n.port = 34 ∧ 16 ≤ n.losses) ∧ d.goLate = true ∧ (withDomain d {}).locallyReady d = false ∧ d.delayed ≠ []) ∧
    (∀ n ∈ (joined .pitch).neighbours, n.port = 34 → n.losses < 16) ∧
    (let d := { part with pcn := 2 }
     let s := { withDomain d {} with now := 2 ^ 60 }
     s.straggles d = true ∧ State.reset.straggles d = false ∧ s.partOver d = true ∧ (withDomain part { cores := allCores .ready }).partOver part = false) := by decide +kernel
theorem crc32c_lt (bs : List Byte) : crc32c bs < 2 ^ 32 := by
  refine Nat.xor_lt_two_pow (by decide) ?_
  refine List.foldlRecOn bs _ (motive := fun r => r < 2 ^ 32) (by decide) fun r hr b _ => ?_
  refine List.foldlRecOn (List.range 8) _ (motive := fun r => r < 2 ^ 32) (Nat.xor_lt_two_pow hr (by have := b.isLt; omega)) fun r hr _ _ => ?_
  split
  · exact Nat.xor_lt_two_pow (by omega) (by decide)
  · omega
/-- A state on the tick when a domain's flit from a port is due, and any flit then arrives. -/
def arriving (d : Domain) (p : Nat) : State :=
  { withDomain d {} with tick := BitVec.ofNat 64 (256 + Config.syncArrival 1 p % 256), ports := [(p, { trained := true })] }
theorem arriving_tick (d : Domain) (p : Nat) : (arriving d p).tick.toNat = 256 + Config.syncArrival 1 p % 256 := by
  have hb : Config.syncArrival 1 p % 256 < 256 := Nat.mod_lt _ (by decide)
  show (BitVec.ofNat 64 (256 + Config.syncArrival 1 p % 256)).toNat = _
  rw [BitVec.toNat_ofNat]
  omega
theorem sync_arrives (d : Domain) (p : Nat) (n : Neighbour) (fl : List Byte) (hp : p < 36) (hi : d.id = 1)
    (hn : d.neighbours.find? (fun n => n.port == p) = some n) (hu : ∀ q ∈ d.neighbours, q.port = p → q = n) :
    syncArrives (arriving d p) 1 p (field fl 0 1) ⟨fl, BitVec.ofNat 32 (frameCrc (frameSeed 0 0 0 p (256 + Config.syncArrival 1 p % 256)) 3 fl)⟩ d n := by
  have hx : (arriving d p).port p = { trained := true } := by simp [arriving, State.port, tget]
  refine ⟨hp, by rw [hx], by rw [hx], by simp [arriving, withDomain, State.domain, hi], hn, ?_, ?_, rfl, hu⟩
  · rw [arriving_tick]
    omega
  · have hc : frameCrc (frameSeed 0 0 0 p (256 + Config.syncArrival 1 p % 256)) 3 fl < 2 ^ 32 := crc32c_lt _
    simp only [State.frameOk, hx, arriving_tick, Nat.sub_zero]
    show ((BitVec.ofNat 32 _).toNat == frameCrc (frameSeed 0 0 0 p (256 + Config.syncArrival 1 p % 256)) 3 fl) = true
    rw [BitVec.toNat_ofNat, Nat.mod_eq_of_lt hc]
    exact beq_self_eq_true _
/-- A flit of each kind with a pitch and a start tick, and the hash and digest of the domain. -/
def flitAt (kind pitch start : Nat) : List Byte := syncFlit kind 7 pitch start ((joined .pitch).collHash pitch) 0
theorem witness_DomainEvents_receipts (fl : List Byte) (ph : DomainPhase) :
    (∃ fr, syncArrives (arriving (joined ph) 34) 1 34 (field fl 0 1) fr (joined ph) parent34 ∧ fr.flit = fl) ∧
    (∃ fr, syncArrives (arriving (joined ph) 35) 1 35 (field fl 0 1) fr (joined ph) child35 ∧ fr.flit = fl) := by
  refine ⟨⟨_, sync_arrives (joined ph) 34 parent34 fl (by decide) rfl rfl ?_, rfl⟩, ⟨_, sync_arrives (joined ph) 35 child35 fl (by decide) rfl rfl ?_, rfl⟩⟩ <;>
  · intro q hq hp
    have : q = parent34 ∨ q = child35 := by simpa [joined] using hq
    rcases this with rfl | rfl <;> first | rfl | simp [parent34, child35] at hp
theorem witness_DomainEvents_flits :
    (∀ k, k < 6 → field (flitAt k 1 0) 0 1 = k ∧ laterPitch (field (flitAt k 1 0) 4 4) 1 = false ∧ laterPitch (field (flitAt k 0 0) 4 4) 1 = false) ∧
    (field (flitAt 1 1 0) 4 4 = 1 ∧ field (flitAt 1 1 0) 16 8 = (joined .pitch).collHash 1 ∧ field (flitAt 1 1 0) 24 32 = (joined .pitch).digest.toNat) ∧
    (field (flitAt 5 0 0) 4 4 = (joined .pitch).pcn.toNat ∧ field (flitAt 5 0 0) 16 8 = (joined .pitch).collHash 1 ∧
      field (flitAt 5 0 0) 24 32 = (joined .pitch).digest.toNat ∧ field (flitAt 5 1 0) 4 4 ≠ (joined .pitch).pcn.toNat) ∧
    field (flitAt 1 0 0) 4 4 ≠ 1 ∧ (∀ b, (∀ c, DomainPhase.col b ≠ .stopped c) ∧ DomainPhase.col b ≠ .ended) ∧
    (field (flitAt 3 0 0) 4 4 = (joined .pitch).pcn.toNat ∧ field (flitAt 3 0 0) 8 8 = (joined .pitch).startTick) ∧
    (∀ ph p, (arriving (joined ph) p).tick.toNat ≤ field (flitAt 3 1 (2 ^ 32)) 8 8 ∧ field (flitAt 3 1 0) 8 8 < (arriving (joined ph) p).tick.toNat) ∧
    field (flitAt 3 1 (2 ^ 32)) 4 4 ≠ (joined .pitch).pcn.toNat := by
  have h1 : field (flitAt 3 1 (2 ^ 32)) 8 8 = 2 ^ 32 := by decide +kernel
  have h0 : field (flitAt 3 1 0) 8 8 = 0 := by decide +kernel
  refine ⟨by decide +kernel, by decide +kernel, by decide +kernel, by decide +kernel, fun b => ⟨fun c => nofun, nofun⟩, by decide +kernel, fun ph p => ?_, by decide +kernel⟩
  have hb : Config.syncArrival 1 p % 256 < 256 := Nat.mod_lt _ (by decide)
  rw [h1, h0, arriving_tick]
  omega
theorem witness_DomainEvents_boundary_stop :
    (let d := { part with fatal := some codePreempted, stop := some codePreempted }
     let s := withDomain d { cores := allCores .atBoundary }
     s.boundaryReady d = true ∧ d.fatal = some codePreempted ∧ d.stop ≠ none ∧ 0 ∈ d.clusters ∧ (s.cluster 0).fenced = false ∧ (s.cluster 0).frozen = false ∧
     ∀ h ∈ (s.cluster 0).holds, h.kind ≠ .capture) ∧
    (let d := { part with pcn := 3, failure := some 1, replays := 2, phase := .col 0, go := some (0, 3) }
     let s := { withDomain d { cores := allCores .atBoundary } with now := 32, worlds := [(0, { World.boot with mgmtBase := 0x400 })] }
     s.startNow d = some (0, d.pcn) ∧ (s.world d.world).mgmtBase ≠ 0 ∧ d.failure = some 1) ∧
    (let d := { part with pcn := 3, phase := .col 0, go := some (0, 3), neighbours := [{ child35 with replay := true, status := 7 }] }
     let s := { withDomain d {} with now := 32 }
     s.startNow d = some (0, d.pcn) ∧ d.failure = none ∧
     d.neighbours.find? (fun n => !n.parent && n.replay) = some { child35 with replay := true, status := 7 }) := by decide +kernel
/-- World 0's page tables and a start vector of one cluster: segment 0 maps to frames 512 and 513; image 0 in timetable mode. -/
def launchCells : List Host.Cell :=
  [(65536, 0x1D), (65548, 2), (131072, 1), (131073, 0x10), (131074, 2), (135168, 1), (135169, 0x20), (135170, 2), (139264, 7), (139267, 2),
    (33554432, 0x59), (33554433, 0x4B), (33554434, 0x53), (33554435, 0x56), (33554438, 1)]
def launchImage : Image :=
  { handle := 0, world := 0, header := [0, 0, 0, 0, 0, 0, 0, 8], digest := 0, placement := [0], clusters := 1 }
def launching : State :=
  { small { image := some 0 } with
    hbm := { cells := launchCells }
    worlds := [(0, { World.boot with flags := 0, segments := 1, pageRoot := 32, hbmShare := Sys2Proof.Config.timedSlots 0 })]
    images := [launchImage], bring := 1, launchQ := [(0, [{ segment := 0, offset := 0 }])] }
theorem top_of (c H P : Nat) (hH : H = 1236950581248) (hP : P = 33554432) (h : c < H) : 67108864 < H - P * ((P - 1 + 10 * c / 64) / P) := by
  have h2 : P * ((P - 1 + 10 * c / 64) / P) ≤ P - 1 + 10 * c / 64 := Nat.mul_div_le _ _
  omega
theorem small_addr (a : Nat) (h : a ≤ 67108864) : ¬ poolTop ≤ a :=
  Nat.not_le.mpr (Nat.lt_of_le_of_lt h (top_of _ hbmBytes largePage rfl rfl (Nat.mod_lt Sys2Proof.Config.protectedPool (by decide))))
theorem launching_walk : launching.walk 0 0 = some ⟨33554432, true, true, false, 139264⟩ := by
  have e0 : launching.phys 131072 8 = 135169 := by decide +kernel
  have e1 : launching.phys 135168 8 = 139265 := by decide +kernel
  have e2 : launching.phys 139264 8 = 33554439 := by decide +kernel
  have r : (launching.world 0).pageRoot = 32 := rfl
  simp [State.walk, State.walkFrom, r, e0, e1, e2, bits, small_addr]
theorem launching_pages (n : Nat) (h : n = 64 ∨ n = 832) : launching.untimedPages 0 0 0 n false = .ok [⟨0, 512, false, true, true⟩] := by
  have hs : launching.segment 0 0 = ⟨1, true, true, true, false, 0, 0, 2⟩ := by decide +kernel
  rcases h with rfl | rfl <;>
    simp [State.untimedPages, hs, pagesOf, launching_walk, Leaf.translation, Translation.frame]
theorem launching_vector (n : Nat) (h : n = 64 ∨ n = 832) :
    launching.readVector 0 0 0 n = some ([0x59, 0x4B, 0x53, 0x56, 0, 0, 1] ++ List.replicate (n - 7) 0) := by
  have h1 : ∀ m ∈ [64, 832], launching.readSeg 0 [⟨0, 512, false, true, true⟩] 0 m = ([0x59, 0x4B, 0x53, 0x56, 0, 0, 1] ++ List.replicate (m - 7) 0, false) := by
    decide +kernel
  rw [State.readVector, launching_pages n h]
  simp [h1 n (by simpa using h)]
/-- An import entry over segment 0's first line for module 5 and key 9, and requests to it, one past the table. -/
def imported : Import := { flags := 3, exporter := 0, importer := 0, source := 5, segment := 0, key := 9, base := 0, length := 64 }
def asking (entry type : Nat) : Packet := { bytes := fabricHeader 0 type 0 64 false entry 9 0 ++ List.replicate 64 1, origin := some (5, 0, 0, 0) }
def importing (p : Nat) (m : Packet) : State := { launching with ports := [(p, { imports := [m] })], imports := [(0, imported)] }
theorem importing_checks : ∀ p, p < 2 →
    (importing p (asking 0 1)).ingressStatus (asking 0 1) = codeDone ∧ (requestOf (asking 0 1)).type = 1 ∧ (requestOf (asking 0 1)).src = 5 ∧
    5 ≠ (importing p (asking 0 1)).moduleId.toNat ∧ ((importing p (asking 0 1)).segment 0 0).busy < 65535 ∧ ((importing p (asking 0 1)).segment 0 0).state = 1 ∧
    ((importing p (asking 0 1)).readSeg 0 [⟨0, 512, false, true, true⟩] 0 64).2 = false ∧ (asking 0 1).held = false ∧
    (importing p (asking 0 2)).ingressStatus (asking 0 2) = codePermDenied ∧ (requestOf (asking 0 2)).type = 2 ∧
    (importing p (asking 8191 2)).ingressStatus (asking 8191 2) = codeImportInvalid := by decide +kernel
theorem importing_room (p : Nat) (m : Packet) : (importing p m).fabricRoom 5 (16 + 64) = true := by
  have h5 : ¬ 5 = (importing p m).moduleId.toNat := by
    show ¬ 5 = State.reset.moduleId.toNat
    decide +kernel
  rw [State.fabricRoom, if_neg h5]
  refine fits_of ?_ (by decide)
  by_cases h : p = routePort 5 <;> simp [importing, State.port, tget, h, launching, small, State.reset]
theorem witness_UntimedEvents_imports : ∃ p, p < 2 ∧ routePort (requestOf (asking 0 1)).src ≠ p ∧
    ((importing p (asking 0 1)).port p).imports = asking 0 1 :: [] ∧ (asking 0 1).held = false ∧
    (importing p (asking 0 1)).ingressStatus (asking 0 1) = codeDone ∧ (importing p (asking 0 1)).fabricRoom 5 (16 + 64) = true ∧
    (importing p (asking 0 1)).untimedPages 0 0 0 64 false = .ok [⟨0, 512, false, true, true⟩] ∧
    ((importing p (asking 0 2)).port p).imports = asking 0 2 :: [] ∧ (importing p (asking 0 2)).ingressStatus (asking 0 2) ≠ codeDone := by
  have h : ∃ p, p < 2 ∧ routePort 5 ≠ p := by
    by_cases h : routePort 5 = 0
    · exact ⟨1, by decide, by omega⟩
    · exact ⟨0, by decide, h⟩
  obtain ⟨p, hp, hr⟩ := h
  have c := importing_checks p hp
  have hi : ∀ m, ((importing p m).port p).imports = m :: [] := fun m => by simp [importing, State.port, tget]
  refine ⟨p, hp, by rw [c.2.2.1]; exact hr, hi _, rfl, c.1, importing_room _ _, launching_pages 64 (.inl rfl), hi _, ?_⟩
  rw [c.2.2.2.2.2.2.2.2.1]
  decide
theorem launching_verdict : launching.nextVerdict =
    some (0, 0, { segment := 0, offset := 0 }, .accept ([0x59, 0x4B, 0x53, 0x56, 0, 0, 1] ++ List.replicate 825 0) launchImage [0] none) := by
  have hw : launching.waiting = [(0, 0)] := by decide +kernel
  have hq : (launching.queue 0 0).find? (fun e => !e.refused) = some { segment := 0, offset := 0 } := by decide +kernel
  have hv : launching.verdict 0 0 { segment := 0, offset := 0 } [] =
      .accept ([0x59, 0x4B, 0x53, 0x56, 0, 0, 1] ++ List.replicate 825 0) launchImage [0] none := by
    simp only [State.verdict]
    rw [launching_vector 64 (.inl rfl)]
    have hn : field ([0x59, 0x4B, 0x53, 0x56, 0, 0, 1] ++ List.replicate (64 - 7) 0) 6 2 = 1 := by decide +kernel
    simp only [hn]
    rw [show 64 + 768 * 1 = 832 from rfl, launching_vector 832 (.inr rfl)]
    have hi : launching.imageOf (field ([0x59, 0x4B, 0x53, 0x56, 0, 0, 1] ++ List.replicate (64 - 7) 0) 8 4) = some launchImage := by decide +kernel
    have hp : decide (launching.portion 0 < Sys2Proof.Config.timedSlots launchImage.digest) = false := by
      have : launching.portion 0 = Sys2Proof.Config.timedSlots 0 := Nat.div_one _
      rw [this]
      simp [launchImage]
    rw [hi]
    simp only [hp]
    decide +kernel
  unfold State.nextVerdict
  rw [hw]
  simp only [List.foldl_cons, List.foldl_nil, hq, hv]
theorem witness_ControlEvents_launch :
    (launching.func 0).resetting = false ∧ (launching.world 0).state = 1 ∧ (0 : BitVec 64).toNat / 2 ^ 52 = 0 ∧
    launching.readVector 0 0 0 64 = some ([0x59, 0x4B, 0x53, 0x56, 0, 0, 1] ++ List.replicate 57 0) ∧
    startHeaderOk ([0x59, 0x4B, 0x53, 0x56, 0, 0, 1] ++ List.replicate 57 0) = true ∧
    launching.imageOf (field ([0x59, 0x4B, 0x53, 0x56, 0, 0, 1] ++ List.replicate 57 0) 8 4) = some launchImage ∧
    launchImage.clusters = field ([0x59, 0x4B, 0x53, 0x56, 0, 0, 1] ++ List.replicate 57 0) 6 2 ∧ (launching.queue 0 0).length < 8 ∧ startHeaderOk (zeros 64) = false ∧
    launching.readVector 0 1 0 64 = none ∧ (∀ d ∈ launching.domains, d.delayed = []) ∧
    ({ launching with launchQ := [(0, List.replicate 8 { segment := 0, offset := 0 })] }.queue 0 0).length = 8 ∧
    ({ State.reset with funcs := [(16, { resetting := true })] }.func 16).resetting = true := by
  refine ⟨by decide +kernel, by decide +kernel, by decide, launching_vector 64 (.inl rfl), by decide +kernel, by decide +kernel, by decide +kernel, by decide +kernel,
    by decide +kernel, by decide +kernel, by decide +kernel, by decide +kernel, by decide +kernel⟩
theorem witness_ControlEvents_admission :
    (∃ e v image need, launching.nextVerdict = some (0, 0, e, .accept v image need none) ∧ need.Nodup ∧ field v 5 1 = 0) ∧
    ({ launching with launchQ := [(0, [{ segment := 1, offset := 0 }])] } : State).nextVerdict =
      some (0, 0, { segment := 1, offset := 0 }, .refuse codeStartInvalid) ∧ State.reset.nextVerdict = none := by
  refine ⟨⟨_, _, _, _, launching_verdict, by decide, by decide +kernel⟩, by decide +kernel, by decide +kernel⟩
theorem witness_ControlEvents_queues :
    (let s := { State.reset with launchQ := [(0, [{ segment := 0, offset := 0, refused := true }, { segment := 0, offset := 64 }])] }
     (s.queue 0 0)[0]? = some { segment := 0, offset := 0, refused := true } ∧ (s.queue 0 0)[1]? = some { segment := 0, offset := 64 }) ∧
    (let s := { State.reset with funcs := [(0, { shootLen := BitVec.ofNat 64 (2 ^ 36), shootVa := 65536 })] }
     (16 : Word).toNat < 17 ∧ (s.func 0).shootVa.toNat % 65536 = 0 ∧ (s.func 0).shootLen.toNat ≠ 0 ∧ (s.func 0).shootLen.toNat ≤ 2 ^ 36 ∧ ¬ (17 : Word).toNat < 17) := by
  decide +kernel
/-- A task on cluster 0. -/
def job : Task :=
  { id := 1, world := 0, priority := 0, level := 0, killable := true, drain := 0, image := 0, clusters := [0], timetable := true, segment := 0, offset := 0, admitted := 0 }
def savedSet : ImageSet :=
  { seq := 5, kind := 0, world := 0, status := 0, pcn := 0, dcc := 0, pitchCycles := 0, digest := 0, stopTick := 0, stopCycle := 0, sealedSet := false, key := none
    icm := false, rwr := false, stepping := 0xB0, clusters := [(0, {})], domain := some { part with phase := .col 3 }, task := none }
theorem witness_ControlEvents_captures :
    (let s := { withDomain { part with phase := .col 0 } {} with now := 1, tasks := [{ job with stopping := 1 }] }
     s.task 1 = some { job with stopping := 1 } ∧ s.captureDue { job with stopping := 1 } = true) ∧
    (let s := { withDomain { part with phase := .col 0, pcn := 1 } {} with tasks := [{ job with stopping := 2 }] }
     s.task 1 = some { job with stopping := 2 } ∧ s.captureDue { job with stopping := 2 } = true ∧ s.captureDue job = false) ∧
    (let t := { job with timetable := false }
     let s := { small { trigger := true } with tasks := [t] }
     s.task 1 = some t ∧ s.taskOver t = true ∧ s.taskOver job = false) ∧
    (let t := { job with stopping := 1, stopAt := some 5 }
     let s := { State.reset with tasks := [t], imageSets := [savedSet] }
     s.streamer 5 = some t ∧ s.imageSet 5 = some savedSet ∧ ({ t with stopping := 3 } : Task).stopping ≠ 1) ∧
    (let r : Restore := { seq := 5, cycle := 0, clusters := [0] }
     let s := { State.reset with restores := [r], imageSets := [savedSet], tasks := [job] }
     s.restores = [r] ∧ r.seq = 5 ∧ s.imageSet 5 = some savedSet ∧ r.clusters = [0] ∧ savedSet.clusters = [(0, {})] ∧
     s.tasks.find? (fun t => t.clusters == r.clusters) = some job ∧ s.parks = [] ∧ tget 0 (s.core 0 47).lent (0xFFFFF / 64 % 32) = 0 ∧
     ({ savedSet with domain := none } : ImageSet).domain = none) ∧
    (∀ j b, tget 0 ((({} : Cluster).core j).lent) b = 0) ∧
    (let s := { small { fenced := true, fenceCode := codeLentBank } with imageSets := [savedSet] }
     (s.cluster 0).fenced = true ∧ (s.cluster 1).fenced = false ∧ s.streamer 5 = none ∧ (∀ r ∈ s.restores, r.seq ≠ 5) ∧ (s.imageSet 5).isSome = true) := by
  refine ⟨by decide +kernel, by decide +kernel, by decide +kernel, by decide +kernel, by decide +kernel, fun _ _ => rfl, by decide +kernel⟩
theorem witness_ControlEvents_moves :
    (let mq : MigrationReq := { world := 0, segment := 0, newVbase := 512 }
     let s := { hbmState {} with migrations := [{ req := mq }] }
     s.migrations = { req := mq } :: [] ∧ s.migrationReady = true ∧ ({ req := mq, held := true } : Migration).held = true ∧ State.reset.migrations = []) ∧
    (let mq : MigrationReq := { world := 0, segment := 1, newVbase := 512 }
     let s := { hbmState {} with migrations := [{ req := mq, held := true }] }
     (s.segment 0 1).limit = 0 ∧ (s.migrateAll 0 (s.segment 0 1).vbase 512 0).2.1 = true) ∧
    (let mq : MigrationReq := { world := 0, segment := 0, newVbase := 512 }
     let s := { hbmState {} with migrations := [{ req := mq, held := true }] }
     (s.migrateAll 0 (s.segment 0 0).vbase (2 ^ 36) 1).2.1 = false ∧ mq.segment = 0 ∧ ({ mq with segment := 1 } : MigrationReq) ≠ mq) ∧
    (let n := 2 ^ 40 + 3
     let s := { State.reset with rekeys := [n], assay := { State.reset.assay with keys := [(0, { memory := some 7 })] }, hbm := { lines := [(64 * 3 + 63, { owner := some 0 })] } }
     n ∈ s.rekeys ∧ 4 ∉ s.rekeys ∧ n / 2 ^ 40 = 1 ∧ (s.memKey 0).isSome = true ∧ (s.hbm.line (64 * (n % 2 ^ 40) + 63)).owner = some 0) := by decide +kernel

/-- World 0's line 255, with its MAC under keys whose second half is 0, beneath a node that waits for its rekey. -/
def authentic : State :=
  { State.reset with
    rekeys := [2 ^ 40 + 3], assay := { State.reset.assay with keys := [(0, { memory := some 7 })] }
    nodes := [(2 * 2 ^ 40, { minors := [(3, 126)] })]
    hbm := { lines := [(255, { owner := some 0, mac := Sys2Proof.Config.lineMac 0 255 0 (zeros 64) })] } }
theorem witness_ControlEvents_rekey :
    2 ^ 40 + 3 ∈ authentic.rekeys ∧ (authentic.memKey 0).isSome = true ∧ authentic.verifies authentic.hbm 0 (64 * 3 + 63) = true ∧
    tget 0 (tget {} authentic.nodes (2 * 2 ^ 40 + 3 / 64)).minors (3 % 64) < 127 := by
  have hb : authentic.hbm.bytes 255 = zeros 64 := by decide +kernel
  have hk : authentic.macKey 0 = some 0 := by decide +kernel
  have hl : authentic.hbm.line 255 = { owner := some 0, mac := Sys2Proof.Config.lineMac 0 255 0 (zeros 64) } := rfl
  have hp : authentic.pathOk 255 = true := by decide +kernel
  refine ⟨by decide, by decide +kernel, ?_, by decide +kernel⟩
  simp [State.verifies, hl, hk, hb, hp]
/-! The Assay controller: requests of a core of cluster 0 with their buffers at 0x1000 and their replies at 0x4000. -/

def bytesWith (n : Nat) (l : List (Nat × Nat)) : List Byte := (List.range n).map fun i => BitVec.ofNat 8 (((l.find? (·.1 == i)).map (·.2)).getD 0)
def cellsOf (a : Nat) (bs : List Byte) : List Host.Cell := ((List.range bs.length).zip bs).filterMap fun q => if q.2 = 0 then none else some (a + q.1, q.2)
def ask (w : Nat) (l : List (Nat × Nat)) : AssayReq :=
  { world := w, cluster := 0, core := 0, fromHost := false, seq := 7, bytes := bytesWith 64 ([(2, 9), (5, 0x40), (8, 64)] ++ l) }
def assaying (rq : AssayReq) (b : List Byte) (ws : Tbl World) (y : Assay) : State :=
  { coreState { spad := cellsOf 0x1000 b } with worlds := (0, World.boot) :: ws, assay := { y with serving := true, queue := [rq] } }
/-- The request is at the head with a row of R367, and step 5 of R368 is reached or not. -/
abbrev meets (s : State) (code : Nat) (rq : AssayReq) : Prop :=
  ∃ c, assayCmd code = some c ∧ s.assay.queue = rq :: [] ∧ s.assay.serving = true ∧ field rq.bytes 0 2 = code ∧ rq.fromHost = false ∧
    (s.world rq.world).state = 1 ∧ s.assay.unlock = none ∧ (s.cluster rq.cluster).fenced = false ∧ 64 ≤ field rq.bytes 8 4 ∧
    field rq.bytes 4 4 % 64 = 0
def refusalOf (s : State) (code : Nat) (rq : AssayReq) : Option Nat := (assayCmd code).map fun c => s.refusal c rq (bufferOf s rq c)
theorem meets_of (s : State) (code : Nat) (rq : AssayReq) (c : AssayCmd) (h : assayCmd code = some c) (h1 : s.assay.queue = rq :: [])
    (h2 : s.assay.serving = true ∧ field rq.bytes 0 2 = code ∧ rq.fromHost = false ∧ (s.world rq.world).state = 1 ∧ s.assay.unlock = none ∧
      (s.cluster rq.cluster).fenced = false ∧ 64 ≤ field rq.bytes 8 4 ∧ field rq.bytes 4 4 % 64 = 0) : meets s code rq := ⟨c, h, h1, h2⟩
def anEntry : List Byte := bytesWith 128 [(1, 1), (2, 1), (8, 5), (16, 0x20), (64, 3), (82, 1)]
def tenant : World := { World.boot with flags := 1, function := 1, clusters := 0x20, weight := 3 }
def toWorld (code : Nat) : AssayReq := ask 0 [(0, code), (12, 1), (17, 0x10)]
theorem witness_AssayCommands_small :
    (let rq := ask 0 [(0, 1)]; let s := assaying rq [] [] State.reset.assay; meets s 1 rq ∧ refusalOf s 1 rq = some codeDone) ∧
    (let rq := ask 0 [(0, 2)]; let s := assaying rq [] [] State.reset.assay; meets s 2 rq ∧ refusalOf s 2 rq = some codeDone) ∧
    (let rq := ask 1 [(0, 0x17), (40, 5)]; let s := assaying rq [] [(1, tenant)] State.reset.assay; meets s 0x17 rq ∧ refusalOf s 0x17 rq = some codeDone) ∧
    (let rq := ask 0 [(0, 0x20)]; let s := assaying rq [] [] { State.reset.assay with fused := 1, lifecycle := 1 }
     meets s 0x20 rq ∧ refusalOf s 0x20 rq = some codeDone) ∧
    (let rq := ask 0 [(0, 0x20)]; let s := assaying rq [] [] State.reset.assay
     meets s 0x20 rq ∧ refusalOf s 0x20 rq = some codeDone ∧ s.assay.lifecycle ≠ 1) ∧
    (let rq := ask 0 [(0, 0x21)]; let s := assaying rq [] [] State.reset.assay; meets s 0x21 rq ∧ refusalOf s 0x21 rq = some codeDone) ∧
    (let rq := ask 1 [(0, 0x21)]; let s := assaying rq [] [(1, tenant)] State.reset.assay
     meets s 0x21 rq ∧ refusalOf s 0x21 rq = some codeNotPermitted ∧ codeNotPermitted ≠ codeDone) ∧
    (let rq := ask 0 [(0, 0x16), (40, 5)]; let s := assaying rq [] [] State.reset.assay; meets s 0x16 rq ∧ refusalOf s 0x16 rq = some codeDone) := by
  refine ⟨⟨meets_of _ _ _ _ rfl rfl (by decide +kernel), by decide +kernel⟩, ⟨meets_of _ _ _ _ rfl rfl (by decide +kernel), by decide +kernel⟩,
    ⟨meets_of _ _ _ _ rfl rfl (by decide +kernel), by decide +kernel⟩, ⟨meets_of _ _ _ _ rfl rfl (by decide +kernel), by decide +kernel⟩,
    ⟨meets_of _ _ _ _ rfl rfl (by decide +kernel), by decide +kernel, by decide +kernel⟩, ⟨meets_of _ _ _ _ rfl rfl (by decide +kernel), by decide +kernel⟩,
    ⟨meets_of _ _ _ _ rfl rfl (by decide +kernel), by decide +kernel, by decide⟩, ⟨meets_of _ _ _ _ rfl rfl (by decide +kernel), by decide +kernel⟩⟩
theorem witness_AssayCommands_worlds :
    (let rq := toWorld 0x10; let s := assaying rq anEntry [] State.reset.assay; meets s 0x10 rq ∧ refusalOf s 0x10 rq = some codeDone) ∧
    (let rq := toWorld 0x11; let s := assaying rq anEntry [(1, tenant)] State.reset.assay; meets s 0x11 rq ∧ refusalOf s 0x11 rq = some codeDone) ∧
    (let rq := ask 0 [(0, 0x11), (17, 0x10)]; let s := assaying rq anEntry [] State.reset.assay
     meets s 0x11 rq ∧ refusalOf s 0x11 rq = some codeDone ∧ byteAt rq.bytes 12 = 0) ∧
    (let rq := ask 0 [(0, 0x14), (12, 1), (16, 3)]; let s := { assaying rq [] [(1, tenant)] State.reset.assay with images := [{ launchImage with handle := 3, world := 1 }] }
     meets s 0x14 rq ∧ refusalOf s 0x14 rq = some codeDone ∧ s.images.any (fun i => i.handle == field rq.bytes 16 4 && i.world == 1) = true) ∧
    (let rq := ask 0 [(0, 0x14), (12, 1), (16, 3)]; let s := assaying rq [] [(1, tenant)] State.reset.assay
     meets s 0x14 rq ∧ refusalOf s 0x14 rq = some codeDone ∧ s.images = []) ∧
    (let rq := ask 1 [(0, 0x15), (12, 1)]; let s := assaying rq [] [(1, tenant)] State.reset.assay
     meets s 0x15 rq ∧ refusalOf s 0x15 rq = some codeDone ∧ (s.world 1).state = 1 ∧ s.tasks = []) ∧
    (let rq := ask 0 [(0, 0x15), (12, 1)]; let s := assaying rq [] [(1, { tenant with state := 2 })] State.reset.assay
     meets s 0x15 rq ∧ byteAt rq.bytes 12 = 1 ∧ (s.world 1).state = 2 ∧ s.departed = true ∧
     ({ s with tasks := [{ job with world := 1 }] } : State).departed = false) ∧
    (let rq := ask 0 [(0, 3), (13, 0x10)]; let s := assaying rq [] [] { State.reset.assay with unlock := some 5 }
     s.assay.queue = rq :: [] ∧ s.assay.unlock = some 5 ∧ s.departed = true ∧
     ({ s with tasks := [{ job with world := 1 }], worlds := [(1, { tenant with state := 2 })] } : State).departed = false) ∧
    (let x : Scrub := { world := 1, frames := [512], pointer := 0, digest := 0 }
     [x].find? (fun x => x.world == 1) = some x ∧ x.done < x.frames.length ∧
     [{ x with done := 1 }].find? (fun x => x.world == 1) = some { x with done := 1 } ∧ ({ x with done := 1 } : Scrub).frames.length ≤ 1) ∧
    ({ State.reset.assay with fused := 0 } : Assay).fused = 0 ∧ State.reset.assay.fused ≠ 0 := by
  refine ⟨⟨meets_of _ _ _ _ rfl rfl (by decide +kernel), by decide +kernel⟩, ⟨meets_of _ _ _ _ rfl rfl (by decide +kernel), by decide +kernel⟩,
    ⟨meets_of _ _ _ _ rfl rfl (by decide +kernel), by decide +kernel, by decide +kernel⟩, ⟨meets_of _ _ _ _ rfl rfl (by decide +kernel), by decide +kernel, by decide +kernel⟩,
    ⟨meets_of _ _ _ _ rfl rfl (by decide +kernel), by decide +kernel, rfl⟩, ⟨meets_of _ _ _ _ rfl rfl (by decide +kernel), by decide +kernel, by decide +kernel, rfl⟩,
    ⟨meets_of _ _ _ _ rfl rfl (by decide +kernel), by decide +kernel, by decide +kernel, by decide +kernel, by decide +kernel⟩,
    ⟨rfl, rfl, by decide +kernel, by decide +kernel⟩, by decide +kernel, by decide +kernel, by decide +kernel⟩
/-- The key 1, and a ciphertext of R369 for it: C1 is the generator, whose double by the key is itself. -/
def sealedKey : List Byte :=
  let p := beBytes 32 sm2Gx
  let q := beBytes 32 sm2Gy
  let m : List Byte := List.replicate 16 5
  4 :: p ++ q ++ sm3 (p ++ m ++ q) ++ xorBytes m (sm2Kdf (p ++ q) 16)
theorem witness_AssayCommands_keys :
    (let rq := toWorld 0x12; let s := assaying rq sealedKey [(1, tenant)] { State.reset.assay with keys := [(1, { pair := some 1 })] }
     meets s 0x12 rq ∧ refusalOf s 0x12 rq = some codeDone ∧ sm2Decrypt 1 sealedKey = some (List.replicate 16 5) ∧
     (∀ c, assayCmd 0x12 = some c → bufferOf s rq c = sealedKey)) ∧
    (let rq := toWorld 0x12; let s := assaying rq [] [(1, tenant)] { State.reset.assay with keys := [(1, { pair := some 1 })] }
     meets s 0x12 rq ∧ refusalOf s 0x12 rq = some codeDone ∧ sm2Decrypt 1 (zeros 113) = none ∧
     (∀ c, assayCmd 0x12 = some c → bufferOf s rq c = zeros 113)) ∧
    (let rq := toWorld 0x12; let s := assaying rq [] [(1, tenant)] { State.reset.assay with keys := [(1, { sectionKey := some 1 })] }
     meets s 0x12 rq ∧ refusalOf s 0x12 rq = some codeDone ∧ (tget {} s.assay.keys 1).sectionKey.isSome = true) := by
  refine ⟨⟨meets_of _ _ _ _ rfl rfl (by decide +kernel), by decide +kernel, by decide +kernel, fun c h => ?_⟩,
    ⟨meets_of _ _ _ _ rfl rfl (by decide +kernel), by decide +kernel, by decide +kernel, fun c h => ?_⟩,
    ⟨meets_of _ _ _ _ rfl rfl (by decide +kernel), by decide +kernel, by decide +kernel⟩⟩
  · rw [← Option.some.inj h]; decide +kernel
  · rw [← Option.some.inj h]; decide +kernel
/-- Without a nonce that is out, each token is refused. -/
theorem witness_AssayCommands_token :
    let rq := ask 0 [(0, 3), (13, 0x10)]
    let s := assaying rq [] [] State.reset.assay
    meets s 3 rq ∧ refusalOf s 3 rq = some codeDone ∧ s.tokenStatus (zeros 192) ≠ codeDone ∧ ∀ c, assayCmd 3 = some c → bufferOf s rq c = zeros 192 := by
  refine ⟨meets_of _ _ _ _ rfl rfl (by decide +kernel), by decide +kernel, ?_, fun c h => ?_⟩
  · have : (assaying (ask 0 [(0, 3), (13, 0x10)]) [] [] State.reset.assay).assay.nonceOut = none := rfl
    simp [State.tokenStatus, this, codeSignatureInvalid, codeDone]
  · rw [← Option.some.inj h]; decide +kernel
/-- A token for device 7 in DEPLOYED with nonce 5, signed with the key 1, whose public key is the generator; and the fuses that it meets. -/
def aToken : List Byte :=
  leBytes 8 7 ++ [2, 1] ++ zeros 6 ++ leBytes 32 5 ++ leBytes 8 (2 ^ 40) ++ zeros 8 ++
    beBytes 32 89833694509843291097791828065856378827653972216344208263314724730484795034891 ++
    beBytes 32 70875241955434603207524431181092703352234637616785640436186446991051041528479 ++ beBytes 32 sm2Gx ++ beBytes 32 sm2Gy
def fuses : Assay :=
  { State.reset.assay with
    lifecycle := 2, fused := 2, nonceOut := some 5, deviceId := 7
    authority := 47595495997533918562236333261000377433398613401942059309650083819073327407927 }
def unlocking : State := assaying (ask 0 [(0, 3), (13, 0x10)]) aToken [] fuses
theorem unlocking_status : unlocking.tokenStatus aToken = codeDone := by decide +kernel
theorem unlocking_buffer (c : AssayCmd) (h : assayCmd 3 = some c) : bufferOf unlocking (ask 0 [(0, 3), (13, 0x10)]) c = aToken := by
  rw [← Option.some.inj h]
  decide +kernel
theorem unlocking_meets : meets unlocking 3 (ask 0 [(0, 3), (13, 0x10)]) := meets_of _ _ _ _ rfl (by decide +kernel) (by decide +kernel)
theorem witness_AssayCommands_unlock :
    meets unlocking 3 (ask 0 [(0, 3), (13, 0x10)]) ∧ refusalOf unlocking 3 (ask 0 [(0, 3), (13, 0x10)]) = some codeDone ∧
    unlocking.tokenStatus aToken = codeDone ∧ unlocking.tasks = [] ∧
    ∀ c, assayCmd 3 = some c → bufferOf unlocking (ask 0 [(0, 3), (13, 0x10)]) c = aToken :=
  ⟨unlocking_meets, by decide +kernel, unlocking_status, by decide +kernel, unlocking_buffer⟩
/-- Two image files: one of 96 bytes with no section and no digest; one with its digest and one section, the code word of ADD S4, S4, S1 for core 0 of its
cluster 0, in clear. -/
def aFile : List Byte := bytesWith 96 [(0, 0x59), (1, 0x4B), (2, 0x49), (3, 0x31), (4, 1), (6, 0xA1), (12, 1)]
def bFile : List Byte :=
  bytesWith 64 [(0, 0x59), (1, 0x4B), (2, 0x49), (3, 0x31), (4, 1), (6, 0xA1), (12, 1), (28, 96), (32, 1)] ++
    leBytes 32 18161713864948378689501625851731427852507585597184143429366659062837523906866 ++ bytesWith 28 [(8, 112), (12, 12), (24, 0x10), (25, 8), (26, 9)]
/-- A file at 4096 of world 0's segment 0 of a module of stepping A1, and a map of its one cluster to a cluster. -/
def loading (file m : List Byte) (off : Nat) : State :=
  let rq := ask 0 [(0, 0x13), (21, off), (29, 0x10)]
  { assaying rq m [] State.reset.assay with
    clusters := [(0, { cores := [(0, { stg := 0xA1, spad := cellsOf 0x1000 m })] })]
    hbm := { cells := launchCells ++ cellsOf 33558528 file }, worlds := [(0, { World.boot with flags := 0, segments := 1, pageRoot := 32 })] }
def aMap (g : Nat) : List Byte := BitVec.ofNat 8 g :: List.replicate 95 0xFF
theorem loading_pages (file : List Byte) (hf : file = aFile ∨ file = bFile) (off n : Nat) (h : off + n ≤ 131072) (hp : pagesOf off n = [0]) :
    (loading file (aMap 0) 16).untimedPages 0 0 off n false = .ok [⟨0, 512, false, true, true⟩] := by
  have e : ∀ f ∈ [aFile, bFile], (loading f (aMap 0) 16).phys 131072 8 = 135169 ∧ (loading f (aMap 0) 16).phys 135168 8 = 139265 ∧
      (loading f (aMap 0) 16).phys 139264 8 = 33554439 ∧ (loading f (aMap 0) 16).segment 0 0 = ⟨1, true, true, true, false, 0, 0, 2⟩ := by decide +kernel
  obtain ⟨e0, e1, e2, hs⟩ := e file (by simpa using hf)
  have hw : (loading file (aMap 0) 16).walk 0 0 = some ⟨33554432, true, true, false, 139264⟩ := by
    have r : ((loading file (aMap 0) 16).world 0).pageRoot = 32 := rfl
    simp [State.walk, State.walkFrom, r, e0, e1, e2, bits, small_addr]
  have hl : ¬ 2 * 65536 < off + n := by omega
  simp [State.untimedPages, hs, hp, hl, hw, Leaf.translation, Translation.frame]
theorem loading_read (file : List Byte) (off n : Nat) (bs : List Byte) (hf : file = aFile ∨ file = bFile) (h : off + n ≤ 131072)
    (hp : pagesOf off n = [0]) (hr : (loading file (aMap 0) 16).readSeg 0 [⟨0, 512, false, true, true⟩] off n = (bs, false)) :
    (loading file (aMap 0) 16).readWorld0 0 off n = .ok bs := by
  rw [State.readWorld0, loading_pages file hf off n h hp]
  simp [hr]
theorem aFile_read : (loading aFile (aMap 0) 16).readImage 0 4096 = .ok aFile := by
  have r1 := loading_read aFile 4096 96 aFile (.inl rfl) (by decide) (by decide +kernel) (by decide +kernel)
  have r2 := loading_read aFile 4096 1 [0x59] (.inl rfl) (by decide) (by decide +kernel) (by decide +kernel)
  have k1 : imageHeaderOk aFile = true := by decide +kernel
  have k2 : hdrTable aFile = 0 := by decide +kernel
  have k3 : Nat.max 1 (16 * hdrSections aFile) = 1 := by decide +kernel
  have k4 : fileEnd aFile [0x59] = 96 := by decide +kernel
  rw [State.readImage, r1]
  simp only [k1, k2, k3, Nat.add_zero, r2, k4, r1]
  rfl
theorem bFile_read : (loading bFile (aMap 0) 16).readImage 0 4096 = .ok bFile := by
  have r1 := loading_read bFile 4096 96 (bFile.take 96) (.inr rfl) (by decide) (by decide +kernel) (by decide +kernel)
  have r2 := loading_read bFile 4192 16 ((bFile.drop 96).take 16) (.inr rfl) (by decide) (by decide +kernel) (by decide +kernel)
  have r3 := loading_read bFile 4096 124 bFile (.inr rfl) (by decide) (by decide +kernel) (by decide +kernel)
  have k1 : imageHeaderOk (bFile.take 96) = true := by decide +kernel
  have k2 : hdrTable (bFile.take 96) = 96 := by decide +kernel
  have k3 : Nat.max 1 (16 * hdrSections (bFile.take 96)) = 16 := by decide +kernel
  have k4 : fileEnd (bFile.take 96) ((bFile.drop 96).take 16) = 124 := by decide +kernel
  rw [State.readImage, r1]
  simp only [k1, k2, k3]
  rw [show 4096 + 96 = 4192 from rfl, r2]
  simp only [k4, r3]
  rfl
def loadAsk (off : Nat) : AssayReq := ask 0 [(0, 0x13), (21, off), (29, 0x10)]
theorem loading_meets : ∀ f ∈ [aFile, bFile], ∀ q ∈ [(0, 16), (0, 32), (96, 16)], refusalOf (loading f (aMap q.1) q.2) 0x13 (loadAsk q.2) = some codeDone ∧
    (loading f (aMap q.1) q.2).assay.queue = [loadAsk q.2] ∧ (loading f (aMap q.1) q.2).assay.serving = true ∧ field (loadAsk q.2).bytes 0 2 = 0x13 ∧
    (loadAsk q.2).fromHost = false ∧ ((loading f (aMap q.1) q.2).world (loadAsk q.2).world).state = 1 ∧ (loading f (aMap q.1) q.2).assay.unlock = none ∧
    ((loading f (aMap q.1) q.2).cluster (loadAsk q.2).cluster).fenced = false ∧ 64 ≤ field (loadAsk q.2).bytes 8 4 ∧
    field (loadAsk q.2).bytes 4 4 % 64 = 0 := by decide +kernel
theorem loading_buffers (c : AssayCmd) (h : assayCmd 0x13 = some c) : ∀ f ∈ [aFile, bFile], bufferOf (loading f (aMap 0) 16) (loadAsk 16) c = aMap 0 := by
  rw [← Option.some.inj h]
  decide +kernel
theorem witness_AssayCommands_load :
    meets (loading aFile (aMap 0) 16) 0x13 (loadAsk 16) ∧ (loading aFile (aMap 0) 16).placementAccepted 0 (mapPairs (aMap 0)) = true ∧
    (loading aFile (aMap 0) 16).readImage 0 4096 = .ok aFile ∧ hdrStepping aFile = 0xA1 ∧
    digestBytes (imageDigest aFile) ≠ (aFile.drop 64).take 32 ∧ field (loadAsk 16).bytes 16 2 = 0 ∧ field (loadAsk 16).bytes 20 8 = 4096 ∧
    meets (loading aFile (aMap 0) 32) 0x13 (loadAsk 32) ∧ (loading aFile (aMap 0) 32).readImage 1 8192 = .error codeAddressRange ∧
    meets (loading aFile (aMap 96) 16) 0x13 (loadAsk 16) ∧ (loading aFile (aMap 96) 16).placementAccepted 0 (mapPairs (aMap 96)) = false := by
  have m := fun q (h : q ∈ [(0, 16), (0, 32), (96, 16)]) => loading_meets aFile (by decide) q h
  refine ⟨meets_of _ _ _ _ rfl (m (0, 16) (by decide)).2.1 (m (0, 16) (by decide)).2.2, by decide +kernel, aFile_read, by decide +kernel, by decide +kernel,
    by decide +kernel, by decide +kernel, meets_of _ _ _ _ rfl (m (0, 32) (by decide)).2.1 (m (0, 32) (by decide)).2.2, by decide +kernel,
    meets_of _ _ _ _ rfl (m (96, 16) (by decide)).2.1 (m (96, 16) (by decide)).2.2, by decide +kernel⟩
theorem bFile_plain : plainImage (loading bFile (aMap 0) 16) 0 (mapPairs (aMap 0)) bFile := by
  refine ⟨by decide +kernel, by decide +kernel, by decide +kernel, by decide +kernel, by decide +kernel, fun i hi => ?_, fun g k b => ?_⟩
  · have hn : hdrSections bFile = 1 := by decide +kernel
    have : i = 0 := by omega
    subst this
    refine ⟨by decide +kernel, by decide +kernel, ⟨(0, 0), by decide +kernel, by decide +kernel⟩, .inl (by decide +kernel)⟩
  · by_cases hg : 0 = g
    · subst hg
      by_cases hk : 0 = k
      · subst hk
        rfl
      · simp [loading, State.core, State.cluster, Cluster.core, tget, hk]
    · simp [loading, State.core, State.cluster, Cluster.core, tget, hg]
theorem witness_AssayCommands_loaded :
    meets (loading bFile (aMap 0) 16) 0x13 (loadAsk 16) ∧ refusalOf (loading bFile (aMap 0) 16) 0x13 (loadAsk 16) = some codeDone ∧
    (loading bFile (aMap 0) 16).placementAccepted 0 (mapPairs (aMap 0)) = true ∧ (loading bFile (aMap 0) 16).readImage 0 4096 = .ok bFile ∧
    plainImage (loading bFile (aMap 0) 16) 0 (mapPairs (aMap 0)) bFile ∧
    (let x := sectionAt bFile 0
     hdrSections bFile = 1 ∧ x.kind = 0 ∧ (0, 0) ∈ mapPairs (aMap 0) ∧ x.cluster = 0 ∧ x.first ≤ 0 ∧ 0 ≤ x.last ∧ 8 + 3 < x.len ∧
     x.start + x.len ≤ bFile.length) := by
  have m := loading_meets bFile (by decide) (0, 16) (by decide)
  exact ⟨meets_of _ _ _ _ rfl m.2.1 m.2.2, m.1, by decide +kernel, bFile_read, bFile_plain, by decide +kernel⟩
theorem witness_PlatformEvents :
    (let s := { State.reset with worlds := [(0, World.boot), (3, { tenant with state := 1 })] }
     (s.world 3).state = 1 ∧ (s.world 4).state ≠ 1 ∧ (s.func 3).masked.getLsbD 7 = true ∧ (0 : BitVec 64).getLsbD 0 = false ∧
     ({ s with funcs := [(3, { pendingBits := 0x80 })] }.func 3).pendingBits.getLsbD 7 = true) ∧
    (let s := small { fenced := true }
     let x : Word := 0x80000000
     x.getLsbD 31 = true ∧ s.selftDone = none ∧ x.toNat % 2 ^ 7 < 96 ∧ (s.cluster 0).fenced = true ∧ (s.cluster 0).world = 0) ∧
    (let x : Word := 0x8000005F
     x.getLsbD 31 = true ∧ State.reset.selftDone = none ∧ (State.reset.cluster (x.toNat % 2 ^ 7)).fenced = false ∧ ¬ (0x80000060 : Word).toNat % 2 ^ 7 < 96 ∧
     (5 : Word).getLsbD 31 = false) ∧
    (let s := { State.reset with selftDone := some (0, 95) }
     s.selftDone = some (0, 95) ∧ 0 ≤ s.now ∧ s.selftDone.isSome = true) ∧
    (11 < 12 ∧ 35 < 36 ∧ ∃ p, p < 36 ∧ p ≠ 35 ∧ (State.reset.pipe p).ready = false) ∧
    (let s := { State.reset with pipes := (List.range 36).map fun p => (p, { ready := true }) }
     ∀ p, p < 36 → p ≠ 35 → (s.pipe p).ready = true) := by
  refine ⟨by decide +kernel, by decide +kernel, by decide +kernel, by decide +kernel, ⟨by decide, by decide, 0, by decide, by decide, rfl⟩, by decide +kernel⟩
theorem witness_PlatformEvents_registers :
    ¬ listedWrite 1 0x018 8 ∧ ¬ listedWrite 0 0x000 4 ∧ ¬ listedWrite 0 0x030 4 ∧ ¬ listedWrite 0 0x900 4 ∧ ¬ listedWrite 0 0x2000 4 ∧
    (0x1000 ≤ 0x1FFC ∧ 0x1FFC + 4 ≤ 0x2000 ∧ 0x1FFC % 4 = 0) ∧ (0x8F8 < 0x800 + 16 * 16 ∧ 0x8F8 % 4 = 0 ∧ 0x8F8 % 16 + 4 ≤ 12) ∧
    (({ pendingBits := 0x80 } : Func).allMasked = false) ∧
    (let s := { small { fenced := true } with selftDone := some (9, 1) }
     (0 : Nat) < 96 ∧ (s.cluster 0).fenced = true ∧ (s.cluster 0).world = 0 ∧ s.selftDone.isSome = true) ∧
    (({ State.reset with worlds := [(16, { World.boot with state := 2 })] } : State).world 16).state = 2 ∧
    (({ State.reset with worlds := [(16, { World.boot with state := 3 })] } : State).world 16).state = 3 ∧
    ((State.reset.world 16).state ≠ 2 ∧ (State.reset.world 16).state ≠ 3) := by
  refine ⟨?_, ?_, ?_, ?_, ?_, by decide, by decide, by decide +kernel, by decide +kernel, by decide +kernel, by decide +kernel, by decide +kernel⟩ <;>
    unfold listedWrite <;> decide
/-- A scrub of one frame whose list stands in HBM, and one whose list has been overwritten. -/
theorem witness_PlatformEvents_scrubs :
    (let x : Scrub := { world := 1, frames := [5], address := 65536, length := 4, pointer := 0, digest := digestOf (leBytes 4 5) }
     digestOf (Memory.readN [(65536, 5)] x.address x.length) = x.digest ∧ digestOf (Memory.readN [(65536, 6)] x.address x.length) ≠ x.digest) := by
  decide +kernel
theorem witness_StepsGoOn : State.reset.inputsOk ∧
    (let s := { State.reset with inputs := [(5, .supplySag), (0, .registerWrite 17 0 4 0)] }
     s.actions = [] ∧ s.pkt.active = false ∧ s.inputs = [(5, .supplySag)] ++ (0, .registerWrite 17 0 4 0) :: [] ∧ 0 ≤ s.tick.toNat ∧
     (∀ q ∈ [((5 : Nat), Instr.supplySag)], s.tick.toNat < q.1) ∧ Instr.inRange (.registerWrite 17 0 4 0) = false ∧ Instr.nop.isEvent = false) := by
  refine ⟨?_, rfl, rfl, rfl, by decide, ?_, by decide +kernel, by decide +kernel⟩
  · exact fun _ h => absurd h (by simp [State.reset])
  · intro q hq; rw [List.mem_singleton.mp hq]; decide +kernel
theorem witness_MemoriesStayCanonical : canonical State.reset ∧ canonical (small { cores := [(0, { spad := [(0, 7), (64, 1)], imem := [(0, 1)] })] }) ∧
    ∃ t, step State.reset = .next t := by
  refine ⟨?_, ?_, ⟨_, rfl⟩⟩
  · refine ⟨by decide +kernel, ?_, ?_⟩ <;> exact fun q h => absurd h (by simp [State.reset])
  · refine ⟨by decide +kernel, ?_, fun q h => absurd h (by simp [small, State.reset])⟩
    intro q hq p hp
    simp only [small, List.mem_singleton] at hq
    subst hq
    simp only [List.mem_singleton] at hp
    subst hp
    exact ⟨by decide +kernel, by decide +kernel⟩

/-! ### Witnesses of the clauses on links, special registers, operand faults, table items and stopped parts -/

/-- The ADD at 0 falls in the shadow of a CALL of cycle 0 by its offset 0 from a base of 1; the empty bundle after it, with offset 2, is
the first past it. -/
theorem witness_Transfers_link :
    (let k : Core := { fetching.core 0 0 with imem := Memory.write (fetching.core 0 0).imem 17 2 }
     let c : Ctx := { base := 1, regionE := some false }
     let b : Bundle := ⟨16, 0x200, [], 20⟩
     bundlesFrom k 0 ([fetched] ++ [b]) ∧ c.regionE = some false ∧ fallsOn c false [fetched, b] 0 = 1 ∧ fallsOn c false [fetched, b] 1 = 3 ∧
       k.linkFrom c 0 3 0 = 16) := by
  exact ⟨⟨by decide +kernel, by decide +kernel, trivial⟩, rfl, by decide +kernel, by decide +kernel, by decide +kernel⟩
theorem witness_ResultLands_special :
    (let r : Result := ⟨5, 4, 0, .sr 3, 0xFFFFFFC0, 0x12345678, 0⟩
     let s := small { run := 5, cores := [(0, { ctxs := [(0, { flight := [r] })] })] }
     (s.ctx 0 0 0).flight.filter (fun r => decide (r.due ≤ (s.cluster 0).run)) = [r] ∧ (s.ctx 0 0 0).replaying = false ∧ r.dest = .sr 3) := by
  decide +kernel
theorem witness_ResultsCollide_wide :
    (∀ d ∈ ([.v 0, .v 31, .c 0, .p 15, .sr 3] : List Dest),
      let a : Result := ⟨5, 3, 0, d, 0xFFFF, 1, 0⟩
      let b : Result := ⟨5, 4, 0, d, 0xFF00, 2, 0⟩
      let s := small { run := 5, cores := [(0, { ctxs := [(0, { flight := [a, b] })] })] }
      (s.ctx 0 0 0).replaying = false ∧ (s.ctx 0 0 0).flight.filter (fun r => decide (r.due ≤ (s.cluster 0).run)) = [a, b] ∧
        a.issued < b.issued ∧ a.mask &&& b.mask ≠ 0 ∧ ((s.core 0 0).ctxs.map (·.1)).Nodup) ∧
    ∀ y, y ≠ 0 → ((small { cores := [(0, { ctxs := [(0, {})] })] }).ctx 0 0 y).flight = [] := by
  refine ⟨by decide +kernel, fun y hy => ?_⟩
  simp [small, State.ctx, State.core, State.cluster, Cluster.core, Core.ctx, tget, Ne.symm hy]
/-- An operand line that is lent, one that is sealed, one that is poisoned, one that is sound. -/
theorem witness_MatrixMultiply_faults :
    (let c : Core := { lent := [(31, 36)], forms := [(32, true)], errs := [(263, .poison)], anvil := [{
       ctx := 0, issued := 0, zero := true, bank := 0, qa := 0, qb := 1, n := 1, wa := 0, wb := 0, tiles := [(0, 0)], start := some 0 }] }
     c.sideOld = [] ∧ tget 0 c.lent (31 % 32) ≠ 0 ∧ tget 0 c.lent (32 % 32) = 0 ∧ tget false c.forms 32 = true ∧ tget false c.forms 33 = false ∧
     (∃ i, i < 8 ∧ tget .sound c.errs (8 * 32 + i) = .poison) ∧
     ∃ m, c.anvil = m :: [] ∧ m.start = some 0 ∧ (m.stream4 0)[0]? = some 0) := by
  refine ⟨by decide +kernel, by decide +kernel, by decide +kernel, by decide +kernel, by decide +kernel, ⟨7, by decide +kernel⟩, _, rfl, rfl, ?_⟩
  decide +kernel
/-- A fold on its first read, on the write of that row, and on a cycle with neither. -/
theorem witness_Folds_work :
    (let f : Fold := { ctx := 0, issued := 0, zero := false, bank := 1, dst := 256, rows := 1, sup := false, sa := 0, fa := 2, sb := 0, fb := 0, j := 7
                       start := some 3 }
     let r : FoldRow := { row := 0, els := 0, write := 0, bad := 0 }
     f.start = some 3 ∧ 3 - 3 < f.rows ∧ f.snapPoison.getLsbD 0 = false ∧ f.dst % 256 = 0 ∧ f.fa < 3 ∧ f.fb < 3 ∧ (∀ q ∈ f.out, q.row + 8 ≠ 0) ∧
     ({ f with out := [r] } : Fold).out = r :: [] ∧ r.row + 8 = 11 - 3 ∧ ¬ (11 - 3 < f.rows) ∧ ¬ (5 - 3 < f.rows)) := by decide +kernel
theorem witness_UntimedOperations_lookup :
    (let s := arrayed true
     let h := 3 * 4096
     s.itemOk h (4095 * 65536 / 65536 % 65536) 0 = true ∧ s.itemOk h 4096 0 = false ∧ itemSize (hKind h) = some 8 ∧ 4 * 1 + 4 ≤ 8 ∧ ¬ 4 * 2 + 4 ≤ 8) := by
  decide +kernel
theorem witness_UntimedEvents_leaving :
    (let s := { withOp { id := 1, kind := 6, issued := 0, world := 3, phase := .completed } with worlds := [(0, World.boot), (3, { World.boot with state := 2 })] }
     onlyOp s 0 0 0 { id := 1, kind := 6, issued := 0, world := 3, phase := .completed } ∧ (s.world 3).state ≠ 1 ∧ (s.world 0).state = 1) := by
  refine ⟨⟨rfl, by decide, by decide, by decide, rfl, fun y hy => ?_⟩, by decide +kernel, by decide +kernel⟩
  have h : ¬ 0 = y := Ne.symm hy
  simp [withOp, ctxTrigger, coreTrigger, small, State.ctx, State.core, State.cluster, Cluster.core, Core.ctx, tget, h]
theorem witness_CoreEvents_places :
    (let e : WEntry := ⟨16383, 0, 0, true, [⟨63, 1, 1, true⟩, ⟨63, 2, 2, false⟩, ⟨0, 3, 2, false⟩]⟩
     e.released = true ∧ (∀ b ∈ e.bytes, b.off < 64) ∧ (e.bytes.map fun b => (b.off, b.age)).Nodup ∧
     (coreState { wbuf := [e] }).hereCore.wbuf = [e] ∧ (∀ b ∈ e.bytes, (coreState { wbuf := [e] }).hereCore.wordPoisoned (8 * e.line + b.off / 8) = false)) := by
  decide +kernel

/-- A packet whose stage 11 is due for its lookups, and one that is due for its actions. -/
theorem witness_PipelineEvents_stages :
    (∀ l ∈ [11, 12],
      let q : PktCtx := { port := 35, tick := 0, stage := 11, looked := l, hv := List.replicate 128 0 }
      let s := { State.reset with tick := 110, pipes := [(35, { staged := [q] })] }
      s.stageDue 35 = some q ∧ q.port = 35 ∧ (l ≤ 11 ∨ 11 < l)) ∧ State.reset.stageDue 35 = none := by
  decide +kernel
/-- A directory entry that lends bank 3 of core 5, a register cell in that bank, and the entry's return. -/
theorem witness_PipelineEvents_banks :
    (let op : OpRef := ⟨0, 0, 7⟩
     let v := 5 + 3 * 2 ^ 16 + 2 ^ 24
     let dirOf : TableWrite := { handle := 8 * 4096, index := 255, data := leBytes 4 v, world := 0, op := op }
     let cell : TableWrite := { handle := 3 * 4096, index := 4095, data := leBytes 8 1, world := 0, op := op }
     let lent := { State.reset with pipes := [(0, { directory := [(1, v)], config := [(0, List.replicate 52 0 ++ [1, 1] ++ List.replicate 10 0)] })] }
     let free := { State.reset with pipes := [(0, { directory := [(255, v)] })] }
     hKind dirOf.handle = 8 ∧ State.reset.writeStatus dirOf = codeDone ∧ (State.reset.pipe 0).dir 255 ≠ v ∧ dirValid v = true ∧
     hKind cell.handle = 3 ∧ lent.writeStatus cell = codeDone ∧
     free.writeStatus { dirOf with data := leBytes 4 0 } = codeDone ∧ (free.pipe 0).dir 255 = v ∧ dirValid 0 = false) := by
  decide +kernel
/-- Nothing of a timetable is due on the cycle that follows a write. -/
theorem witness_TimetableEvents_idle :
    (let d := timed 1 0 0xFFFF
     d.recordOf 1 0 ≠ none ∧ d.recordOf 2 0 = none ∧ d.recordOf 4 0 = none ∧ (timed 2 0 35).recordOf 1 0 = none) ∧
    (let s := timedState 1 0 0xFFFF { run := 5 }
     (∀ q ∈ s.clusters, ∀ a ∈ q.2.side, a.kind = .landing → a.source = 35 → a.done = true ∨ a.due ≠ q.2.run) ∧
     (s.cluster 0).side = []) := by
  decide +kernel
theorem witness_DomainEvents_stops :
    codeStraggler ≠ codePeerDown ∧ (joined (.col 0)).phase = .col 0 ∧ (joined .errorPhase).phase = .errorPhase ∧
    field (syncFlit syncStop codeStraggler 1 0 0 0) 2 2 = codeStraggler := by
  decide +kernel
/-- A task whose domain is stopped at its boundary, and one whose domain is in its col. -/
theorem witness_ControlEvents_stopped :
    (let s := { small {} with tasks := [{ job with id := 1, stopping := 0 }], domains := [{ part with phase := .stopped codeReplayLimit }] }
     s.task 1 = some { job with id := 1, stopping := 0 } ∧ (s.domain 1).map (·.phase) = some (.stopped codeReplayLimit)) ∧
    (let s := { small {} with tasks := [{ job with id := 1, stopping := 0 }], domains := [{ part with phase := .col 0 }] }
     s.task 1 = some { job with id := 1, stopping := 0 } ∧ (s.domain 1).map (·.phase) = some (.col 0) ∧ s.captureDue { job with id := 1, stopping := 0 } = false) ∧
    (let mq : MigrationReq := { world := 0, segment := 4095, newVbase := 7 }
     let s := { State.reset with migrations := [{ req := mq, asked := 0 }, { req := mq, asked := 0 }] }
     s.migrations = { req := mq, asked := 0 } :: [{ req := mq, asked := 0 }] ∧ s.migrationReady = true) := by
  decide +kernel
theorem witness_LinkEvents_edges :
    (let s := { State.reset with ports := (List.range 8).map fun p => (p, { edge := true }) }
     8 ≤ s.edges ∧ (s.port 35).edge = false) := by
  decide +kernel

end Sys2Proof.Tests
end

section
/-! PROOFS. Transfers in the shadow of a taken transfer (01 R28): the meaning of each transfer, the check that they share, and which
slots of a bundle run at all (01 R29). -/

namespace Sys2Proof.Machine

/-! ### The meanings of the transfers (05 R119 to R122, 14 R316) -/

theorem exec_br (a : BitVec 5) (i : BitVec 9) (s : State) :
    exec (.br a i) s = s.transfer (target (s.rs a + 4 * imm 9 i).toNat) id := rfl
theorem exec_bri (j : BitVec 14) (s : State) : exec (.bri j) s = s.transfer (s.relTarget (imm 14 j)) id := rfl
theorem exec_call (d : BitVec 5) (j : BitVec 14) (s : State) :
    exec (.call d j) s = s.transfer (s.relTarget (imm 14 j)) (fun s => s.emitS 1 d (BitVec.ofNat 32 s.cur.link)) := rfl
theorem exec_ret (a : BitVec 5) (s : State) : exec (.ret a) s = s.transfer (target (s.rs a).toNat) id := rfl
theorem exec_tret (s : State) : exec .tret s = execTret s := rfl
theorem exec_loop_taken {d a : BitVec 5} (i : BitVec 9) {s : State} (h : (s.rs d).toInt + 1 < (s.rs a).toInt) :
    exec (.loop d a i) s = s.transfer (s.relTarget (imm 9 i)) id := if_pos h
theorem exec_loop_untaken {d a : BitVec 5} (i : BitVec 9) {s : State} (h : ¬ (s.rs d).toInt + 1 < (s.rs a).toInt) :
    exec (.loop d a i) s = .next s := if_neg h

/-! ### The check of the shadow -/

theorem State.isNone_shadow {s : State} {sh : Shadow} (h : s.here.shadow = some sh) : s.here.shadow.isNone = false := by
  rw [h, Option.isNone_some]

/-- Whatever its target and whatever else it does, a transfer taken in a shadow takes the trap instead (01 R28). -/
theorem State.transfer_in_shadow {s : State} {sh : Shadow} (h : s.here.shadow = some sh) (dest : Nat) (f : State → State) :
    s.transfer dest f = .next (s.takeTrap codeShadowIllegal) := State.require_trap (State.isNone_shadow h)

/-- TRET makes the check of the shadow before any other: whether it is in a handler and what TSR holds play no part. -/
theorem execTret_in_shadow {s : State} {sh : Shadow} (h : s.here.shadow = some sh) :
    execTret s = .next (s.takeTrap codeShadowIllegal) := State.require_trap (State.isNone_shadow h)

/-! ### The slots that run -/

theorem State.mem_liveSlots {s : State} {b : Bundle} {p : Nat} {w : Word} :
    (p, w) ∈ s.liveSlots b ↔ (p, w) ∈ b.slots ∧ s.here.rp (guardOf w).toNat = true := List.mem_filter

theorem State.not_mem_liveSlots {s : State} {w : Word} (h : s.here.rp (guardOf w).toNat = false) (b : Bundle) (p : Nat) :
    (p, w) ∉ s.liveSlots b := fun hm =>
  have ⟨_, hlive⟩ := State.mem_liveSlots.mp hm
  Bool.false_ne_true (h.symm.trans hlive)

/-- Settles O16: each transfer passes the check of the shadow before it has any effect, an untaken LOOP never reaches the check, and a
slot that is guarded off is filtered out of the live slots. -/
theorem shadowIllegal : Obligations.ShadowIllegal := by
  intro s sh d a i j h
  have trapped := State.transfer_in_shadow h
  refine ⟨?br, ?bri, ?call, ?ret, ?tret, ?taken, exec_loop_untaken i, fun b p w hw => State.not_mem_liveSlots hw b p⟩
  case br => rw [exec_br, trapped]
  case bri => rw [exec_bri, trapped]
  case call => rw [exec_call, trapped]
  case ret => rw [exec_ret, trapped]
  case tret => rw [exec_tret, execTret_in_shadow h]
  case taken => exact fun hlt => by rw [exec_loop_taken i hlt, trapped]

end Sys2Proof.Machine
end

section
/-! PROOFS. Results in flight as the statements write them (`Claims.issuing`), and the compares (05 R111 to R113). -/

namespace Sys2Proof.Machine

open Sys2Proof.Claims

/-! ### Two updates of the context in hand are one -/

theorem tput_tput_same {α : Type} (t : Tbl α) (n : Nat) (v w : α) : tput (tput t n v) n w = tput t n w := by
  induction t with
  | nil => simp [tput]
  | cons p t ih =>
    obtain ⟨k, u⟩ := p
    rcases Nat.lt_trichotomy n k with hlt | heq | hgt
    · simp [tput, hlt]
    · simp [tput, heq]
    · simp [tput, Nat.not_lt_of_gt hgt, Nat.ne_of_gt hgt, ih]

theorem Core.modCtx_modCtx (c : Core) (x : Nat) (f h : Ctx → Ctx) : (c.modCtx x f).modCtx x h = c.modCtx x (h ∘ f) := by
  simp only [Core.modCtx, Core.ctx, tget_tput_same, tput_tput_same, Function.comp_apply]

theorem Cluster.modCore_modCore (c : Cluster) (k : Nat) (f h : Core → Core) :
    (c.modCore k f).modCore k h = c.modCore k (h ∘ f) := by
  simp only [Cluster.modCore, Cluster.core, tget_tput_same, tput_tput_same, Function.comp_apply]

theorem State.modCluster_modCluster (s : State) (g : Nat) (f h : Cluster → Cluster) :
    (s.modCluster g f).modCluster g h = s.modCluster g (h ∘ f) := by
  simp only [State.modCluster, State.cluster, tget_tput_same, tput_tput_same, Function.comp_apply]

theorem State.modCore_modCore (s : State) (g k : Nat) (f h : Core → Core) :
    (s.modCore g k f).modCore g k h = s.modCore g k (h ∘ f) :=
  (State.modCluster_modCluster s g _ _).trans
    (congrArg (fun F => s.modCluster g F) (funext fun c => Cluster.modCore_modCore c k f h))

theorem State.modHere_modHere (s : State) (f h : Ctx → Ctx) : (s.modHere f).modHere h = s.modHere (h ∘ f) :=
  (State.modCore_modCore s s.cur.g s.cur.k _ _).trans
    (congrArg (fun F => s.modCore s.cur.g s.cur.k F) (funext fun c => Core.modCtx_modCtx c s.cur.x f h))

/-! ### Results in flight (01 R26) -/

theorem issuing_issuing (s : State) (rs qs : List Result) : issuing (issuing s rs) qs = issuing s (rs ++ qs) := by
  simp only [issuing, State.modHere_modHere, Function.comp_def, List.append_assoc]

/-- A result is formed from the cycle and the slot in hand, which no result in flight changes. -/
theorem result_issuing (s : State) (rs : List Result) (lat : Nat) (d : Dest) (mask val : Vec) (flags : Word) :
    result (issuing s rs) lat d mask val flags = result s lat d mask val flags := by
  simp only [result, issuing, State.t_modHere, State.modHere_cur]

theorem toP_issuing (s : State) (rs : List Result) (n : Nat) (v : Bool) : toP (issuing s rs) n v = toP s n v :=
  result_issuing s rs _ _ _ _ _

theorem setWidth_ofBool {m : Nat} (v : Bool) : (BitVec.ofBool v).setWidth m = if v then 1 else 0 := by
  cases v with
  | false => exact BitVec.setWidth_zero m 1
  | true => exact BitVec.eq_of_toNat_eq (by simp)

theorem State.emitP_eq_issuing (s : State) (n : Nat) (v : Bool) : s.emitP 1 n v = issuing s [toP s n v] :=
  congrArg (fun x => issuing s [result s 1 (.p n) 1 x 0]) (setWidth_ofBool v)

/-! ### The predicates of a compare (05 R112, R113) -/

theorem State.compare_single (s : State) (d : BitVec 5) (v : Bool) :
    s.compare d 0 v = .next (issuing s [toP s d.toNat v]) :=
  congrArg Host.Outcome.next (State.emitP_eq_issuing s d.toNat v)

theorem State.compare_pair (s : State) (d : BitVec 5) (v : Bool) :
    s.compare d 1 v = .next (issuing s [toP s d.toNat v, toP s (d.toNat + 1) (!v)]) := by
  have hpair : (s.emitP 1 d.toNat v).emitP 1 (d.toNat + 1) (!v) =
      issuing s [toP s d.toNat v, toP s (d.toNat + 1) (!v)] := by
    rw [State.emitP_eq_issuing s, State.emitP_eq_issuing, toP_issuing, issuing_issuing, List.singleton_append]
  exact congrArg Host.Outcome.next hpair

theorem exec_cmp (d a b : BitVec 5) (c : BitVec 1) (n : BitVec 3) (s : State) :
    exec (.cmp d a b c n) s = execCmp d a b c n s := rfl
theorem exec_cmpz (d a b : BitVec 5) (c : BitVec 1) (n : BitVec 3) (s : State) :
    exec (.cmpz d a b c n) s = execCmpz d a b c n s := rfl
theorem exec_cmpi (d a : BitVec 5) (n : BitVec 3) (i : BitVec 6) (s : State) :
    exec (.cmpi d a n i) s = s.compare d 0 (condition n true (s.rs a) (imm 6 i)) := rfl

/-- CMP and CMPZ compare once the limit on a pair's D passes: C = 0, or an even D. -/
theorem exec_cmp_ok {d : BitVec 5} {c : BitVec 1} (h : (c == 0 || isEven d) = true) (a b : BitVec 5) (n : BitVec 3)
    (s : State) : exec (.cmp d a b c n) s = s.compare d c (condition n true (s.rs a) (s.rs b)) :=
  (exec_cmp d a b c n s).trans (State.limit_ok h)
theorem exec_cmpz_ok {d : BitVec 5} {c : BitVec 1} (h : (c == 0 || isEven d) = true) (a b : BitVec 5) (n : BitVec 3)
    (s : State) : exec (.cmpz d a b c n) s = s.compare d c (condition n false (s.rs a) (s.rs b)) :=
  (exec_cmpz d a b c n s).trans (State.limit_ok h)

/-! ### The conditions (05 R111)

`condition` forms four of its codes from "less" and equality by negation and disjunction; R111 names an order for each. -/

/-- Less, and at most, in the signed or the unsigned reading. -/
def lessIn (sgn : Bool) (x y : Word) : Bool := if sgn then decide (x.toInt < y.toInt) else decide (x.toNat < y.toNat)
def atMostIn (sgn : Bool) (x y : Word) : Bool := if sgn then decide (x.toInt ≤ y.toInt) else decide (x.toNat ≤ y.toNat)

theorem not_lessIn (sgn : Bool) (x y : Word) : (!lessIn sgn x y) = atMostIn sgn y x := by
  cases sgn <;> simp [lessIn, atMostIn, ← decide_not]

theorem not_atMostIn (sgn : Bool) (x y : Word) : (!atMostIn sgn x y) = lessIn sgn y x := by
  rw [← not_lessIn, Bool.not_not]

theorem lessIn_or_beq (sgn : Bool) (x y : Word) : (lessIn sgn x y || x == y) = atMostIn sgn x y := by
  rw [Bool.eq_iff_iff]
  cases sgn with
  | false => simp [lessIn, atMostIn, Nat.le_iff_lt_or_eq, BitVec.toNat_inj]
  | true => simp [lessIn, atMostIn, Int.le_iff_lt_or_eq, BitVec.toInt_inj]

theorem all_not_common_eq_and_beq_zero (x y : Word) :
    (List.range 32).all (fun i => !(x.getLsbD i && y.getLsbD i)) = ((x &&& y) == 0) := by
  rw [Bool.eq_iff_iff, beq_iff_eq, BitVec.eq_of_getLsbD_eq_iff]
  simp [or_iff_not_imp_left]

theorem any_common_eq_and_bne_zero (x y : Word) :
    (List.range 32).any (fun i => x.getLsbD i && y.getLsbD i) = ((x &&& y) != 0) := by
  rw [List.any_eq_not_all_not, all_not_common_eq_and_beq_zero, bne]

/-- The condition codes by their suffixes. -/
theorem conditionCode_cases {P : BitVec 3 → Prop} (eq : P 0) (ne : P 1) (lt : P 2) (ge : P 3) (le : P 4) (gt : P 5)
    (tst : P 6) (ntst : P 7) (n : BitVec 3) : P n := by
  have hn : n = 0 ∨ n = 1 ∨ n = 2 ∨ n = 3 ∨ n = 4 ∨ n = 5 ∨ n = 6 ∨ n = 7 := by
    revert n
    decide
  rcases hn with rfl | rfl | rfl | rfl | rfl | rfl | rfl | rfl <;> assumption

/-- What the model computes for a condition code is the condition of R111, in either reading. -/
theorem condition_eq_holds (n : BitVec 3) (sgn : Bool) (x y : Word) : condition n sgn x y = holds n x y sgn := by
  cases n using conditionCode_cases with
  | eq => exact beq_eq_decide x y
  | ne => exact Bool.eq_iff_iff.mpr (bne_iff_ne.trans decide_eq_true_iff.symm)
  | lt => rfl
  | ge => exact not_lessIn sgn x y
  | le => exact lessIn_or_beq sgn x y
  | gt => exact (congrArg not (lessIn_or_beq sgn x y)).trans (not_atMostIn sgn x y)
  | tst => exact (any_common_eq_and_bne_zero x y).symm
  | ntst => exact (all_not_common_eq_and_beq_zero x y).symm

theorem holds_signed_eq_unsigned {n : BitVec 3} (h : n = 0 ∨ n = 1 ∨ n = 6 ∨ n = 7) (x y : Word) :
    holds n x y true = holds n x y false := by
  rcases h with rfl | rfl | rfl | rfl <;> rfl

/-- Settles O12: each compare answers its predicate, or with C = 1 the pair, and what the model computes for a condition code is the
condition of R111. -/
theorem compares : Obligations.Compares := by
  intro s d a b n i
  refine ⟨?cmp, ?cmpz, ?cmpi, fun hd => ?pair, fun hn => holds_signed_eq_unsigned hn (s.rs a) (s.rs b)⟩
  case cmp => rw [exec_cmp_ok rfl, State.compare_single, condition_eq_holds]
  case cmpz => rw [exec_cmpz_ok rfl, State.compare_single, condition_eq_holds]
  case cmpi =>
    have himm : imm 6 i = wrap i.toInt := rfl
    rw [exec_cmpi, State.compare_single, condition_eq_holds, himm]
  case pair =>
    have heven : isEven d = true := beq_iff_eq.mpr hd
    have hlimit : ((1 : BitVec 1) == 0 || isEven d) = true := by rw [heven, Bool.or_true]
    constructor
    · rw [exec_cmp_ok hlimit, State.compare_pair, condition_eq_holds]
    · rw [exec_cmpz_ok hlimit, State.compare_pair, condition_eq_holds]

end Sys2Proof.Machine
end

section
/-! PROOFS. The parts and lanes of vector registers (06 R127), the results of lane maps, and the bit counts of lanes (06 R138). -/

namespace Sys2Proof.Machine

open Sys2Proof.Claims

/-! ### Lanes of a number (06 R127) -/

/-- Bits beyond the lanes of a number do not show in its lanes. -/
theorem mod_lane {e i n : Nat} (p : Nat) (h : e * i + e ≤ n) : p % 2 ^ n / 2 ^ (e * i) % 2 ^ e = p / 2 ^ (e * i) % 2 ^ e := by
  rw [← Nat.sub_add_cancel (Nat.le_of_add_right_le h), Nat.pow_add', Nat.mod_mul_right_div_self]
  exact Nat.mod_mod_of_dvd _ (Nat.pow_dvd_pow 2 (Nat.le_sub_of_add_le' h))

theorem packLanes_lane (e : Nat) (xs : List Nat) (i : Nat) :
    packLanes e xs / 2 ^ (e * i) % 2 ^ e = xs[i]?.getD 0 % 2 ^ e := by
  induction xs generalizing i with
  | nil => simp [packLanes]
  | cons x t ih =>
    cases i with
    | zero => simp [packLanes]
    | succ i =>
      have htail : (x % 2 ^ e + 2 ^ e * packLanes e t) / 2 ^ e = packLanes e t := by
        rw [Nat.add_mul_div_left _ _ (Nat.two_pow_pos e), Nat.div_eq_of_lt (Nat.mod_lt _ (Nat.two_pow_pos e)), Nat.zero_add]
      rw [packLanes, Nat.mul_succ, Nat.pow_add', ← Nat.div_div_eq_div_mul, htail, ih, List.getElem?_cons_succ]

theorem lane_end_le {e i n : Nat} (h : i < n / e) : e * i + e ≤ n :=
  calc e * i + e = e * (i + 1) := rfl
    _ ≤ e * (n / e) := Nat.mul_le_mul_left e h
    _ ≤ n := Nat.mul_div_le n e

/-! ### Lanes of a part -/

theorem lanesOf_eq_map_laneAt (v : Vec) (w h : BitVec 2) (e : Nat) :
    lanesOf v w h e = (List.range (widthBits w / e)).map (laneAt v w h e) := by
  refine List.map_congr_left fun i hi => ?_
  rw [partOf, mod_lane _ (lane_end_le (List.mem_range.mp hi)), Nat.div_div_eq_div_mul, ← Nat.pow_add]
  rfl

theorem laneAt_lt (v : Vec) (w h : BitVec 2) (e i : Nat) : laneAt v w h e i < 2 ^ e := Nat.mod_lt _ (Nat.two_pow_pos e)

/-- A legal part lies inside the register (03 R68). -/
theorem part_end_le {w h : BitVec 2} (hwh : okWH w h = true) : partBase w h + widthBits w ≤ 1024 := by
  revert w h
  decide

/-- The register value that `State.emitPart` issues. -/
def packedPart (w h : BitVec 2) (e : Nat) (xs : List Nat) : Vec :=
  BitVec.ofNat 1024 (packLanes e xs % 2 ^ widthBits w * 2 ^ partBase w h)

theorem packedPart_toNat {w h : BitVec 2} (hwh : okWH w h = true) (e : Nat) (xs : List Nat) :
    (packedPart w h e xs).toNat = packLanes e xs % 2 ^ widthBits w * 2 ^ partBase w h := by
  refine Nat.mod_eq_of_lt ?_
  calc packLanes e xs % 2 ^ widthBits w * 2 ^ partBase w h
    _ < 2 ^ widthBits w * 2 ^ partBase w h :=
      Nat.mul_lt_mul_of_pos_right (Nat.mod_lt _ (Nat.two_pow_pos _)) (Nat.two_pow_pos _)
    _ = 2 ^ (partBase w h + widthBits w) := (Nat.pow_add' ..).symm
    _ ≤ 2 ^ 1024 := Nat.pow_le_pow_right Nat.two_pos (part_end_le hwh)

theorem laneAt_packedPart {w h : BitVec 2} (hwh : okWH w h = true) {e i : Nat} (hi : i < widthBits w / e) (xs : List Nat) :
    laneAt (packedPart w h e xs) w h e i = xs[i]?.getD 0 % 2 ^ e := by
  have hbase : widthBits w * h.toNat = partBase w h := rfl
  rw [laneAt, packedPart_toNat hwh, hbase, Nat.pow_add, ← Nat.div_div_eq_div_mul, Nat.mul_div_cancel _ (Nat.two_pow_pos _),
    mod_lane _ (lane_end_le hi), packLanes_lane]

/-! ### Lane maps that set no flag -/

theorem State.vector_ok {s : State} (hex : s.inExchange s.cur.g = false) (f : State → State) : s.vector f = .next (f s) :=
  State.legal_ok (by simp [State.illegal, hex])

theorem orFlags_eq_zero {xs : List Lane} (h : ∀ p ∈ xs, p.2 = 0) : orFlags xs = 0 := by
  induction xs with
  | nil => rfl
  | cons p t ih =>
    have hp : Nat.lor 0 p.2 = 0 := by rw [h p List.mem_cons_self]; rfl
    rw [orFlags, List.foldl_cons, hp]
    exact ih fun q hq => h q (List.mem_cons_of_mem p hq)

/-- The lanes that a one-source lane map issues, and that it sets no flag. -/
theorem State.int1_eq_issuing (s : State) (lat : Nat) (d a : BitVec 5) (w h : BitVec 2) (e : Nat) (f : Nat → Nat) :
    s.int1 lat d a w h e f = issuing s [result s lat (.v d.toNat) (partBits w h)
      (packedPart w h e ((List.range (widthBits w / e)).map fun i => f (laneAt (s.rv a) w h e i))) 0] := by
  have hvals : (s.lanes1 a w h e fun x => (f x, 0)).map (·.1) =
      (List.range (widthBits w / e)).map fun i => f (laneAt (s.rv a) w h e i) := by
    simp only [State.lanes1, lanesOf_eq_map_laneAt, List.map_map, Function.comp_def]
  have hflags : orFlags (s.lanes1 a w h e fun x => (f x, 0)) = 0 :=
    orFlags_eq_zero (List.forall_mem_map.mpr fun _ _ => rfl)
  rw [State.int1, State.emitLanes, hvals, hflags]
  rfl

/-- A one-source lane map whose values fit their lanes issues the value of each lane. -/
theorem vectorResult_int1 {s : State} {w h : BitVec 2} (hok : vectorOk s w h) {e : Nat} {f : Nat → Nat}
    (hf : ∀ x, x < 2 ^ e → f x < 2 ^ e) (lat : Nat) (d a : BitVec 5) :
    vectorResult s (s.vector fun s => s.int1 lat d a w h e f) lat d w h e (fun i => f (laneAt (s.rv a) w h e i)) 0 := by
  obtain ⟨hex, hwh⟩ := hok
  refine ⟨_, (State.vector_ok hex _).trans (congrArg Host.Outcome.next (State.int1_eq_issuing ..)), fun i hi => ?_⟩
  rw [laneAt_packedPart hwh hi, List.getElem?_map, List.getElem?_range hi]
  exact Nat.mod_eq_of_lt (hf _ (laneAt_lt ..))

/-! ### Bit counts (06 R138) -/

theorem popN_succ (n x : Nat) : popN (n + 1) x = popN n x + x / 2 ^ n % 2 := by
  simp only [popN, List.range_succ, List.foldl_append, List.foldl_cons, List.foldl_nil]

/-- The population count of a pattern is the number of its 1 bits. -/
theorem popN_eq_length_filter (n x : Nat) : popN n x = ((List.range n).filter fun k => x.testBit k).length := by
  induction n with
  | zero => rfl
  | succ n ih =>
    rw [popN_succ, ih, List.range_succ, List.filter_append, List.length_append, ← Nat.toNat_testBit]
    cases hbit : x.testBit n <;> simp [hbit]

theorem popN_le (n x : Nat) : popN n x ≤ n := by
  rw [popN_eq_length_filter]
  exact (List.length_filter_le ..).trans_eq List.length_range

theorem clzN_le (n x : Nat) : clzN n x ≤ n := by
  unfold clzN
  split <;> omega

theorem clzN_zero (n : Nat) : clzN n 0 = n := if_pos rfl

/-- The leading zeros of a pattern whose highest 1 bit is bit k. -/
theorem clzN_of_highest_bit {k x : Nat} (n : Nat) (hle : 2 ^ k ≤ x) (hlt : x < 2 ^ (k + 1)) : clzN n x = n - 1 - k := by
  have hx : x ≠ 0 := (Nat.lt_of_lt_of_le (Nat.two_pow_pos k) hle).ne'
  rw [clzN, if_neg hx, (Nat.log2_eq_iff hx).mpr ⟨hle, hlt⟩]

/-- Settles O27: VCNT and VCLZ are lane maps whose counts are at most e, so they fit a lane. -/
theorem vectorCounts : Obligations.VectorCounts := by
  intro s d a c w h hok _
  have fits {f : Nat → Nat → Nat} (hf : ∀ n x, f n x ≤ n) : ∀ x, x < 2 ^ laneBits c → f (laneBits c) x < 2 ^ laneBits c :=
    fun x _ => (hf _ x).trans_lt Nat.lt_two_pow_self
  refine ⟨?vcnt, _, vectorResult_int1 hok (fits clzN_le) 3 d a, fun i _ => ⟨fun hzero => ?zero, fun k => clzN_of_highest_bit _⟩⟩
  case vcnt =>
    simp only [← popN_eq_length_filter]
    exact vectorResult_int1 hok (fits popN_le) 3 d a
  case zero => exact (congrArg _ hzero).trans (clzN_zero _)

end Sys2Proof.Machine
end
